-- ==== Sys2Proof/Word.lean ====
section
/-! DEFINITION. The word types of the AX-24 and their plainest arithmetic (R3, R4). -/

namespace Sys2Proof

/-- A byte. -/
abbrev Byte := BitVec 8
/-- A 64-bit register or doubleword (R179). -/
abbrev Word := BitVec 64
/-- A 128-bit vector register (R179). -/
abbrev Vec := BitVec 128

/-- The window register a two-bit field of BIND and UNBIND names: v28 to v31 (R169). -/
def Word.windowReg (w : Fin 4) : Fin 32 := ⟨28 + w.val, by omega⟩
/-- The even register of the v pair SPAWN names (R173). -/
def Word.pairLow (v : Fin 16) : Fin 32 := ⟨2 * v.val, by omega⟩
/-- The odd register of the v pair SPAWN names (R173). -/
def Word.pairHigh (v : Fin 16) : Fin 32 := ⟨2 * v.val + 1, by omega⟩

end Sys2Proof
end

