-- ==== Sys2Proof/Syntax.lean ====
section
/-! DEFINITION. The instructions of the AX-24: one constructor for each row of the opcode table, first the 141 encoded
rows of the C slot, then the 61 of the X slot, then the 102 event rows, each an indivisible step of some agent. -/

namespace Sys2Proof

/-- The guard of an instruction (R164): predicate k(gp), negated by gn. -/
structure Guard where
  gn : Bool
  gp : Fin 8
  deriving DecidableEq, Repr

/-- The guard field zero: k0 reads 1, so the instruction runs. -/
def Guard.always : Guard := ⟨false, 0⟩
/-- The guard field 0b1000: the instruction never runs. -/
def Guard.never : Guard := ⟨true, 0⟩

/-- What a translation is wanted for (R139): the fetch of a core, the `nth` unsettled global request of a core, or block
`blk` of the `nth` live engine command of a core. -/
inductive WalkRef
  | fetch (core : Nat)
  | request (core nth : Nat)
  | command (core nth blk : Nat)
  deriving DecidableEq, Repr

/-- Where the translation comes from (R139): a TLB entry of the core, of the die, or a walk of the tables. -/
inductive WalkVia
  | coreTlb
  | dieTlb
  | walk
  deriving DecidableEq, Repr

/-- What a vote is about (R364). -/
inductive VoteSubject
  | core (n : Nat)
  | xd (n : Nat)
  | md (n : Nat)
  | package (n : Nat)
  | serviceProcessor (b : Bool)
  deriving DecidableEq, Repr

/-- One vote of R364: what SPA and SPB each say, and how many peer packages vote for the loss. -/
structure Vote where
  subject : VoteSubject
  spa : Bool
  spb : Bool
  peers : Nat
  deriving DecidableEq, Repr

/-- What one IEEE 1588 exchange establishes (R30 to R32): how far the package is behind (negative: ahead of) the
grandmaster, in nanoseconds. -/
structure Ptp where
  behind : Int
  deriving DecidableEq, Repr

/-- The outcome of bring-up's verifications and self-tests (R379): the images of SPA and SPB verify, and the physical
XDs and MDs that passed. -/
structure SelfTest where
  spaVerified : Bool
  spbVerified : Bool
  xds : List (Fin 26)
  mds : List (Fin 8)
  deriving DecidableEq, Repr

/-- The firmware a service processor takes (R382). -/
inductive FwTarget
  | spa
  | spb
  | iod
  | md
  | xd
  deriving DecidableEq, Repr

/-- A firmware image offered to the service processors (R382). -/
structure FwImage where
  target : FwTarget
  version : BitVec 32
  signed : Bool
  digest : BitVec 256
  deriving DecidableEq, Repr

/-- A reading asked of the service processors (R392): a logical die or the package, a job or 0, an event, SUM or
MINMAX, and two package times. -/
structure ReadingReq where
  scope : Option (Fin 24)
  jobId : BitVec 64
  event : BitVec 8
  minMax : Bool
  t0 : Nat
  t1 : Nat
  deriving DecidableEq, Repr

/-- One access of the debug path to a halted core (R386). -/
inductive DebugAccess
  | readX (n : Fin 32)
  | writeX (n : Fin 32) (value : BitVec 64)
  | readV (n : Fin 32)
  | writeV (n : Fin 32) (value : BitVec 128)
  | readK (n : Fin 8)
  | writeK (n : Fin 8) (value : Bool)
  | readLoop (n : Fin 6)
  | writeLoop (n : Fin 6) (value : BitVec 64)
  | readByte (la : BitVec 32)
  | writeByte (la : BitVec 32) (value : BitVec 8)
  deriving DecidableEq, Repr


/-- An instruction or event, one constructor per row of the opcode table. An encoded instruction carries its guard `g`
(R164) and its operand fields; an event carries what picks the one thing that happens. -/
inductive Instr
  /-- ADD (R202). Writes the 64-bit wrapping sum of xa and xb to xd. -/
  | add (g : Guard) (d : Fin 32) (a : Fin 32) (b : Fin 32)
  /-- SUB (R202). Writes the 64-bit wrapping difference xa minus xb to xd. -/
  | sub (g : Guard) (d : Fin 32) (a : Fin 32) (b : Fin 32)
  /-- MUL (R202). Writes the low 64 bits of the product of xa and xb to xd. -/
  | mul (g : Guard) (d : Fin 32) (a : Fin 32) (b : Fin 32)
  /-- MULH (R202). Writes the high 64 bits of the signed product to xd. -/
  | mulh (g : Guard) (d : Fin 32) (a : Fin 32) (b : Fin 32)
  /-- MULHU (R202). Writes the high 64 bits of the unsigned product to xd. -/
  | mulhu (g : Guard) (d : Fin 32) (a : Fin 32) (b : Fin 32)
  /-- DIV (R203). Signed division truncating towards zero, with fixed results for zero divisor and overflow. -/
  | div (g : Guard) (d : Fin 32) (a : Fin 32) (b : Fin 32)
  /-- DIVU (R203). Unsigned division, giving all ones for a zero divisor. -/
  | divu (g : Guard) (d : Fin 32) (a : Fin 32) (b : Fin 32)
  /-- REM (R203). Signed remainder with the sign of the dividend. -/
  | rem (g : Guard) (d : Fin 32) (a : Fin 32) (b : Fin 32)
  /-- REMU (R203). Unsigned remainder, giving the dividend for a zero divisor. -/
  | remu (g : Guard) (d : Fin 32) (a : Fin 32) (b : Fin 32)
  /-- AND (R202). Writes the bitwise AND of xa and xb to xd. -/
  | and (g : Guard) (d : Fin 32) (a : Fin 32) (b : Fin 32)
  /-- OR (R202). Writes the bitwise OR of xa and xb to xd. -/
  | or (g : Guard) (d : Fin 32) (a : Fin 32) (b : Fin 32)
  /-- XOR (R202). Writes the bitwise XOR of xa and xb to xd. -/
  | xor (g : Guard) (d : Fin 32) (a : Fin 32) (b : Fin 32)
  /-- ANDN (R202). Writes xa AND NOT xb to xd. -/
  | andn (g : Guard) (d : Fin 32) (a : Fin 32) (b : Fin 32)
  /-- SHL (R204). Shifts xa left by the whole 64-bit count, giving 0 for counts of 64 or more. -/
  | shl (g : Guard) (d : Fin 32) (a : Fin 32) (b : Fin 32)
  /-- SHR (R204). Logical right shift by the whole 64-bit count. -/
  | shr (g : Guard) (d : Fin 32) (a : Fin 32) (b : Fin 32)
  /-- SRA (R204). Arithmetic right shift by the whole 64-bit count. -/
  | sra (g : Guard) (d : Fin 32) (a : Fin 32) (b : Fin 32)
  /-- ROR (R204). Rotates xa right by the count modulo 64. -/
  | ror (g : Guard) (d : Fin 32) (a : Fin 32) (b : Fin 32)
  /-- MIN (R202). Writes the signed minimum of xa and xb. -/
  | min (g : Guard) (d : Fin 32) (a : Fin 32) (b : Fin 32)
  /-- MAX (R202). Writes the signed maximum of xa and xb. -/
  | max (g : Guard) (d : Fin 32) (a : Fin 32) (b : Fin 32)
  /-- MINU (R202). Writes the unsigned minimum of xa and xb. -/
  | minu (g : Guard) (d : Fin 32) (a : Fin 32) (b : Fin 32)
  /-- MAXU (R202). Writes the unsigned maximum of xa and xb. -/
  | maxu (g : Guard) (d : Fin 32) (a : Fin 32) (b : Fin 32)
  /-- ADD_CW (R202). Adds a constant-window entry to xa. -/
  | addCw (g : Guard) (d : Fin 32) (a : Fin 32) (cw : Fin 256)
  /-- AND_CW (R202). ANDs xa with a constant-window entry. -/
  | andCw (g : Guard) (d : Fin 32) (a : Fin 32) (cw : Fin 256)
  /-- OR_CW (R202). ORs xa with a constant-window entry. -/
  | orCw (g : Guard) (d : Fin 32) (a : Fin 32) (cw : Fin 256)
  /-- XOR_CW (R202). XORs xa with a constant-window entry. -/
  | xorCw (g : Guard) (d : Fin 32) (a : Fin 32) (cw : Fin 256)
  /-- SHL_CW (R204). Shifts xa left by a constant-window count. -/
  | shlCw (g : Guard) (d : Fin 32) (a : Fin 32) (cw : Fin 256)
  /-- SHR_CW (R204). Logical right shift of xa by a constant-window count. -/
  | shrCw (g : Guard) (d : Fin 32) (a : Fin 32) (cw : Fin 256)
  /-- SRA_CW (R204). Arithmetic right shift of xa by a constant-window count. -/
  | sraCw (g : Guard) (d : Fin 32) (a : Fin 32) (cw : Fin 256)
  /-- MUL_CW (R202). Multiplies xa by a constant-window entry, keeping the low 64 bits. -/
  | mulCw (g : Guard) (d : Fin 32) (a : Fin 32) (cw : Fin 256)
  /-- CMPEQ (R205). Sets kd when xa equals xb. -/
  | cmpeq (g : Guard) (d : Fin 8) (a : Fin 32) (b : Fin 32)
  /-- CMPNE (R205). Sets kd when xa differs from xb. -/
  | cmpne (g : Guard) (d : Fin 8) (a : Fin 32) (b : Fin 32)
  /-- CMPLT (R205). Sets kd when xa is less than xb, signed. -/
  | cmplt (g : Guard) (d : Fin 8) (a : Fin 32) (b : Fin 32)
  /-- CMPGE (R205). Sets kd when xa is at least xb, signed. -/
  | cmpge (g : Guard) (d : Fin 8) (a : Fin 32) (b : Fin 32)
  /-- CMPLTU (R205). Sets kd when xa is less than xb, unsigned. -/
  | cmpltu (g : Guard) (d : Fin 8) (a : Fin 32) (b : Fin 32)
  /-- CMPGEU (R205). Sets kd when xa is at least xb, unsigned. -/
  | cmpgeu (g : Guard) (d : Fin 8) (a : Fin 32) (b : Fin 32)
  /-- CMPEQ_CW (R205). Sets kd when xa equals a constant-window entry. -/
  | cmpeqCw (g : Guard) (d : Fin 8) (a : Fin 32) (cw : Fin 256)
  /-- CMPNE_CW (R205). Sets kd when xa differs from a constant-window entry. -/
  | cmpneCw (g : Guard) (d : Fin 8) (a : Fin 32) (cw : Fin 256)
  /-- CMPLT_CW (R205). Sets kd when xa is signed-less than a constant-window entry. -/
  | cmpltCw (g : Guard) (d : Fin 8) (a : Fin 32) (cw : Fin 256)
  /-- CMPLTU_CW (R205). Sets kd when xa is unsigned-less than a constant-window entry. -/
  | cmpltuCw (g : Guard) (d : Fin 8) (a : Fin 32) (cw : Fin 256)
  /-- PAND (R206). Writes ka and kb to kd. -/
  | pand (g : Guard) (d : Fin 8) (a : Fin 8) (b : Fin 8)
  /-- POR (R206). Writes ka or kb to kd. -/
  | por (g : Guard) (d : Fin 8) (a : Fin 8) (b : Fin 8)
  /-- PXOR (R206). Writes ka xor kb to kd. -/
  | pxor (g : Guard) (d : Fin 8) (a : Fin 8) (b : Fin 8)
  /-- PANDN (R206). Writes ka and not kb to kd. -/
  | pandn (g : Guard) (d : Fin 8) (a : Fin 8) (b : Fin 8)
  /-- PMOVX (R206). Writes 1 or 0 to xd according to ka. -/
  | pmovx (g : Guard) (d : Fin 32) (a : Fin 8)
  /-- EXTU (R207). Extracts an unsigned bitfield of xa described by xb. -/
  | extu (g : Guard) (d : Fin 32) (a : Fin 32) (b : Fin 32)
  /-- EXTS (R207). Extracts a sign-extended bitfield of xa described by xb. -/
  | exts (g : Guard) (d : Fin 32) (a : Fin 32) (b : Fin 32)
  /-- INS (R207). Inserts the low bits of xa into a bitfield of xd described by xb. -/
  | ins (g : Guard) (d : Fin 32) (a : Fin 32) (b : Fin 32)
  /-- CLZ (R208). Counts leading zero bits of xa. -/
  | clz (g : Guard) (d : Fin 32) (a : Fin 32)
  /-- CTZ (R208). Counts trailing zero bits of xa. -/
  | ctz (g : Guard) (d : Fin 32) (a : Fin 32)
  /-- POPC (R208). Counts one bits of xa. -/
  | popc (g : Guard) (d : Fin 32) (a : Fin 32)
  /-- BREV (R208). Reverses the bit order of xa. -/
  | brev (g : Guard) (d : Fin 32) (a : Fin 32)
  /-- BSWAP (R208). Reverses the byte order of xa. -/
  | bswap (g : Guard) (d : Fin 32) (a : Fin 32)
  /-- EXTU_CW (R207). Unsigned bitfield extract with a constant-window control word. -/
  | extuCw (g : Guard) (d : Fin 32) (a : Fin 32) (cw : Fin 256)
  /-- EXTS_CW (R207). Signed bitfield extract with a constant-window control word. -/
  | extsCw (g : Guard) (d : Fin 32) (a : Fin 32) (cw : Fin 256)
  /-- INS_CW (R207). Bitfield insert with a constant-window control word. -/
  | insCw (g : Guard) (d : Fin 32) (a : Fin 32) (cw : Fin 256)
  /-- LDC (R210). Loads a constant-window entry into xd. -/
  | ldc (g : Guard) (d : Fin 32) (cw : Fin 256)
  /-- LEA (R212). Adds an element index, scaled by the pointer's format, to a fat pointer. -/
  | lea (g : Guard) (d : Fin 32) (a : Fin 32) (b : Fin 32)
  /-- ADDA (R212). Adds a byte offset to the VA of a fat pointer. -/
  | adda (g : Guard) (d : Fin 32) (a : Fin 32) (b : Fin 32)
  /-- PFMT (R211). Reads a pointer's FMT and BLG into a format word. -/
  | pfmt (g : Guard) (d : Fin 32) (a : Fin 32)
  /-- SFMT (R211). Sets a pointer's FMT and BLG from a checked format word. -/
  | sfmt (g : Guard) (d : Fin 32) (a : Fin 32) (b : Fin 32)
  /-- LEA_CW (R212). LEA with a constant-window element index. -/
  | leaCw (g : Guard) (d : Fin 32) (a : Fin 32) (cw : Fin 256)
  /-- ADDA_CW (R212). ADDA with a constant-window byte offset. -/
  | addaCw (g : Guard) (d : Fin 32) (a : Fin 32) (cw : Fin 256)
  /-- SFMT_CW (R211). SFMT with a constant-window format word. -/
  | sfmtCw (g : Guard) (d : Fin 32) (a : Fin 32) (cw : Fin 256)
  /-- BR (R213). Branches to a bundle-relative target. -/
  | br (g : Guard) (off : BitVec 20)
  /-- CALL (R213). Branches to a bundle-relative target and writes the return address to x31. -/
  | call (g : Guard) (off : BitVec 20)
  /-- JR (R213). Jumps to the address in xa. -/
  | jr (g : Guard) (a : Fin 32)
  /-- RET (R213). Jumps to the address in x31. -/
  | ret (g : Guard)
  /-- LOOP (R214). Opens a zero-overhead loop on a register set, skipping the body when the trip count is zero. -/
  | loop (g : Guard) (set : Fin 2) (n : Fin 32) (len : Fin 16384)
  /-- END (R218). Ends the task after its bundle, starting the task-end sequence, or raises PROT_FAULT with an open domain stack. -/
  | endTask (g : Guard)
  /-- LBRK (R216). Clears the loop count of a set, ending the loop. -/
  | lbrk (g : Guard) (set : Fin 2)
  /-- VFROMX (R209). Builds vd from two x registers. -/
  | vfromx (g : Guard) (d : Fin 32) (a : Fin 32) (b : Fin 32)
  /-- VTOX (R209). Moves the low half of va to xd. -/
  | vtox (g : Guard) (d : Fin 32) (a : Fin 32)
  /-- VTOXH (R209). Moves the high half of va to xd. -/
  | vtoxh (g : Guard) (d : Fin 32) (a : Fin 32)
  /-- VSPLATX (R209). Writes xa into both halves of vd. -/
  | vsplatx (g : Guard) (d : Fin 32) (a : Fin 32)
  /-- LTLD (R255). Loads and checks the 256-entry decode table from local storage. -/
  | ltld (g : Guard) (a : Fin 32)
  /-- SAMPLE (R263). Chooses a token by Gumbel-max sampling over a local logit array and mask. -/
  | sample (g : Guard) (d : Fin 32) (a : Fin 32) (b : Fin 32)
  /-- TOPKM (R264). Selects the top k values or records of a local array in the total order of R74. -/
  | topkm (g : Guard) (d : Fin 32) (a : Fin 32) (b : Fin 32)
  /-- OWN (R265). Computes the owning gang rank and local address of a coordinate from a distribution table. -/
  | own (g : Guard) (d : Fin 32) (a : Fin 32) (b : Fin 32)
  /-- LD_N (R221). Loads 1 to 8 local bytes into xd, zero-extended. -/
  | ldN (g : Guard) (d : Fin 32) (a : Fin 32) (b : Fin 32) (w : Fin 4)
  /-- LD_I (R221). Loads 1 to 4 local bytes into xd, sign-extended. -/
  | ldI (g : Guard) (d : Fin 32) (a : Fin 32) (b : Fin 32) (w : Fin 4)
  /-- LD_CW (R221). Loads local bytes zero-extended, with a constant-window offset. -/
  | ldCw (g : Guard) (d : Fin 32) (a : Fin 32) (cw : Fin 256) (w : Fin 4)
  /-- ST (R221). Stores the low bytes of xd to a local address. -/
  | st (g : Guard) (d : Fin 32) (a : Fin 32) (b : Fin 32) (w : Fin 4)
  /-- ST_CW (R221). Stores the low bytes of xd to a local address with a constant-window offset. -/
  | stCw (g : Guard) (d : Fin 32) (a : Fin 32) (cw : Fin 256) (w : Fin 4)
  /-- VLD (R221). Loads 16 local bytes into vd. -/
  | vld (g : Guard) (d : Fin 32) (a : Fin 32) (b : Fin 32)
  /-- VST (R221). Stores vd to 16 local bytes. -/
  | vst (g : Guard) (d : Fin 32) (a : Fin 32) (b : Fin 32)
  /-- VLDX (R222). Gathers lanes from local offsets given by vb. -/
  | vldx (g : Guard) (d : Fin 32) (a : Fin 32) (b : Fin 32) (e : Fin 4)
  /-- VSTX (R222). Scatters lanes to local offsets given by vb. -/
  | vstx (g : Guard) (d : Fin 32) (a : Fin 32) (b : Fin 32) (e : Fin 4)
  /-- GLD (R224). Issues a global load of 1 to 8 bytes, plain or acquire. -/
  | gld (g : Guard) (d : Fin 32) (a : Fin 32) (sc : Fin 8) (w : Fin 4) (ord : Bool)
  /-- GST (R224). Issues a global store of 1 to 8 bytes, plain or release, .fwd or .gack. -/
  | gst (g : Guard) (d : Fin 32) (a : Fin 32) (sc : Fin 8) (w : Fin 4) (gack : Bool) (ord : Bool)
  /-- GVLD (R224). Issues a 16-byte global load into vd. -/
  | gvld (g : Guard) (d : Fin 32) (a : Fin 32) (sc : Fin 8) (ord : Bool)
  /-- GVST (R224). Issues a 16-byte global store of vd. -/
  | gvst (g : Guard) (d : Fin 32) (a : Fin 32) (sc : Fin 8) (gack : Bool) (ord : Bool)
  /-- GPF_DC (R228). Hints lines of a global range into the die cache. -/
  | gpfDc (g : Guard) (a : Fin 32) (b : Fin 32)
  /-- GPF_LLC (R228). Hints lines of a global range into their homes' LLC slices. -/
  | gpfLlc (g : Guard) (a : Fin 32) (b : Fin 32)
  /-- AADD (R230). Atomic add at the home, returning the old value. -/
  | aadd (g : Guard) (d : Fin 32) (a : Fin 32) (b : Fin 32) (o : Bool) (wd : Bool)
  /-- AAND (R230). Atomic AND at the home, returning the old value. -/
  | aand (g : Guard) (d : Fin 32) (a : Fin 32) (b : Fin 32) (o : Bool) (wd : Bool)
  /-- AOR (R230). Atomic OR at the home, returning the old value. -/
  | aor (g : Guard) (d : Fin 32) (a : Fin 32) (b : Fin 32) (o : Bool) (wd : Bool)
  /-- AXOR (R230). Atomic XOR at the home, returning the old value. -/
  | axor (g : Guard) (d : Fin 32) (a : Fin 32) (b : Fin 32) (o : Bool) (wd : Bool)
  /-- AMIN (R230). Atomic signed or unsigned minimum at the home. -/
  | amin (g : Guard) (d : Fin 32) (a : Fin 32) (b : Fin 32) (o : Bool) (un : Bool) (wd : Bool)
  /-- AMAX (R230). Atomic signed or unsigned maximum at the home. -/
  | amax (g : Guard) (d : Fin 32) (a : Fin 32) (b : Fin 32) (o : Bool) (un : Bool) (wd : Bool)
  /-- ASWP (R230). Atomic swap at the home. -/
  | aswp (g : Guard) (d : Fin 32) (a : Fin 32) (b : Fin 32) (o : Bool) (wd : Bool)
  /-- ACAS (R230). Atomic compare-and-swap at the home. -/
  | acas (g : Guard) (d : Fin 32) (a : Fin 32) (b : Fin 32) (o : Bool) (wd : Bool)
  /-- AFADD (R230). Atomic FP32 add at the home, refused in reproducible mode. -/
  | afadd (g : Guard) (d : Fin 32) (a : Fin 32) (b : Fin 32) (o : Bool)
  /-- VAOR (R230). Atomic 128-bit OR at the home. -/
  | vaor (g : Guard) (d : Fin 32) (a : Fin 32) (b : Fin 32) (o : Bool)
  /-- FENCE_ACQ (R232). Stalls until earlier loads and atomics have returned. -/
  | fenceAcq (g : Guard) (sc : Fin 8)
  /-- FENCE_REL (R232). Holds later stores until earlier accesses have performed for the scope. -/
  | fenceRel (g : Guard) (sc : Fin 8)
  /-- FENCE_FULL (R232). Stalls until earlier loads have returned and earlier stores have performed for the scope. -/
  | fenceFull (g : Guard) (sc : Fin 8)
  /-- TSET (R233). Rewrites a Till's ARM, CHAN, TAG and TARGET and runs the advance loop. -/
  | tset (g : Guard) (a : Fin 32) (b : Fin 32)
  /-- TGEN (R233). Reads a Till's COUNT and GEN as an acquire. -/
  | tgen (g : Guard) (d : Fin 32) (a : Fin 32)
  /-- BARA (R234). Buffers an arrival at a gang barrier. -/
  | bara (g : Guard) (b : Fin 8)
  /-- BARD (R234). Buffers an arrive-and-drop at a gang barrier. -/
  | bard (g : Guard) (b : Fin 8)
  /-- BARQ (R235). Writes a snapshot of a barrier's state to xd. -/
  | barq (g : Guard) (d : Fin 32) (b : Fin 8)
  /-- RDEF (R236). Defines or undefines a ring descriptor. -/
  | rdef (g : Guard) (h : Fin 16) (a : Fin 32)
  /-- RADV_HD (R237). Pops k slots of a ring. -/
  | radvHd (g : Guard) (h : Fin 16) (a : Fin 32)
  /-- RADV_TL (R237). Pushes k slots of a ring. -/
  | radvTl (g : Guard) (h : Fin 16) (a : Fin 32)
  /-- RQRY (R238). Writes a ring's state as the task sees it. -/
  | rqry (g : Guard) (d : Fin 32) (h : Fin 16)
  /-- BIND (R239). Binds a window register to a WIN or RECV ring. -/
  | bind (g : Guard) (w : Fin 4) (h : Fin 16)
  /-- UNBIND (R239). Ends a window register's binding. -/
  | unbind (g : Guard) (w : Fin 4)
  /-- HPIN (R240). Pins a tensor's lines in every LLC slice, all or nothing, returning a status. -/
  | hpin (g : Guard) (d : Fin 32) (a : Fin 32)
  /-- HDEM (R240). Unpins a tensor and lowers its residency priority. -/
  | hdem (g : Guard) (a : Fin 32) (b : Fin 32)
  /-- HEVT (R240). Unpins, writes back and drops a tensor's lines. -/
  | hevt (g : Guard) (a : Fin 32)
  /-- SEND (R273). Buffers a message with a local payload to a target core and channel. -/
  | send (g : Guard) (a : Fin 32) (b : Fin 32)
  /-- SENDV (R273). Buffers a 16-byte message taken from vb. -/
  | sendv (g : Guard) (a : Fin 32) (b : Fin 32)
  /-- REPLY (R273). Buffers a message back to the source of the current message. -/
  | reply (g : Guard) (a : Fin 32) (b : Fin 32)
  /-- DEC (R274). Buffers a decrement of a remote dependence word. -/
  | dec (g : Guard) (a : Fin 32) (b : Fin 32)
  /-- MSGRD (R276). Reads payload or header words of the triggering message. -/
  | msgrd (g : Guard) (d : Fin 32) (b : Fin 32)
  /-- SPAWN (R275). Takes a spawn credit and buffers a task message with its own handler address, or reports failure. -/
  | spawn (g : Guard) (k : Fin 8) (a : Fin 32) (b : Fin 32) (v : Fin 16)
  /-- CPY (R282). Issues a converting copy command to a copy engine. -/
  | cpy (g : Guard) (d : Fin 32) (a : Fin 32) (b : Fin 32)
  /-- CPYS (R283). Issues a strided, permuting copy command. -/
  | cpys (g : Guard) (d : Fin 32) (a : Fin 32) (b : Fin 32)
  /-- EFQ (R284). Issues an error-feedback quantisation command to the core's Edge Codec. -/
  | efq (g : Guard) (d : Fin 32) (a : Fin 32) (b : Fin 32)
  /-- COLL (R285). Issues one participant's share of a collective. -/
  | coll (g : Guard) (d : Fin 32) (a : Fin 32) (b : Fin 32)
  /-- GMASK (R286). Issues a grammar mask command for the current automaton state. -/
  | gmask (g : Guard) (d : Fin 32) (a : Fin 32) (b : Fin 32)
  /-- GSTEP (R286). Issues a grammar step command advancing the state by a token. -/
  | gstep (g : Guard) (d : Fin 32) (a : Fin 32) (b : Fin 32)
  /-- CSRR (R288). Reads a control register into xd. -/
  | csrr (g : Guard) (d : Fin 32) (num : Fin 1024)
  /-- CSRW (R288). Writes RW fields and clears W1C bits of a control register. -/
  | csrw (g : Guard) (d : Fin 32) (num : Fin 1024)
  /-- TRAP (R289). Aborts the task with the program fault TRAP. -/
  | trap (g : Guard) (a : Fin 32)
  /-- HBT (R290). Sends one heartbeat to the die's heartbeat monitor. -/
  | hbt (g : Guard)
  /-- BRK (R291). Halts the core after its bundle when the debug module is enabled. -/
  | brk (g : Guard)
  /-- TRC (R292). Sends a software trace record to the trace encoder. -/
  | trc (g : Guard) (a : Fin 32)
  /-- CDO (R293). Opens a containment domain and enrols the task in its instance. -/
  | cdo (g : Guard) (a : Fin 32)
  /-- CDC (R293). Closes the top containment domain, optionally sealing the instance. -/
  | cdc (g : Guard) (a : Fin 32)
  /-- CDP (R294). Marks a local or global range as a preserved input of the open domain. -/
  | cdp (g : Guard) (a : Fin 32) (b : Fin 32)
  /-- VADD (R243). Lane-wise add, wrapping or saturating on integers, rounded once on floats. -/
  | vadd (g : Guard) (d : Fin 32) (a : Fin 32) (b : Fin 32) (sat : Bool) (t : Fin 16)
  /-- VSUB (R243). Lane-wise subtract, wrapping or saturating on integers, rounded once on floats. -/
  | vsub (g : Guard) (d : Fin 32) (a : Fin 32) (b : Fin 32) (sat : Bool) (t : Fin 16)
  /-- VMUL (R243). Lane-wise multiply. -/
  | vmul (g : Guard) (d : Fin 32) (a : Fin 32) (b : Fin 32) (t : Fin 16)
  /-- VFMA (R244). Lane-wise fused multiply-add into vd with one rounding. -/
  | vfma (g : Guard) (d : Fin 32) (a : Fin 32) (b : Fin 32) (t : Fin 16)
  /-- VMIN (R243). Lane-wise minimum. -/
  | vmin (g : Guard) (d : Fin 32) (a : Fin 32) (b : Fin 32) (t : Fin 16)
  /-- VMAX (R243). Lane-wise maximum. -/
  | vmax (g : Guard) (d : Fin 32) (a : Fin 32) (b : Fin 32) (t : Fin 16)
  /-- VAND (R245). 128-bit AND. -/
  | vand (g : Guard) (d : Fin 32) (a : Fin 32) (b : Fin 32)
  /-- VOR (R245). 128-bit OR. -/
  | vor (g : Guard) (d : Fin 32) (a : Fin 32) (b : Fin 32)
  /-- VXOR (R245). 128-bit XOR. -/
  | vxor (g : Guard) (d : Fin 32) (a : Fin 32) (b : Fin 32)
  /-- VANDN (R245). 128-bit AND NOT. -/
  | vandn (g : Guard) (d : Fin 32) (a : Fin 32) (b : Fin 32)
  /-- VSHL (R243). Lane-wise left shift by whole-lane counts. -/
  | vshl (g : Guard) (d : Fin 32) (a : Fin 32) (b : Fin 32) (t : Fin 16)
  /-- VSHR (R243). Lane-wise logical or arithmetic right shift. -/
  | vshr (g : Guard) (d : Fin 32) (a : Fin 32) (b : Fin 32) (t : Fin 16)
  /-- VCEQ (R245). Lane-wise equality mask. -/
  | vceq (g : Guard) (d : Fin 32) (a : Fin 32) (b : Fin 32) (t : Fin 16)
  /-- VCLT (R245). Lane-wise less-than mask. -/
  | vclt (g : Guard) (d : Fin 32) (a : Fin 32) (b : Fin 32) (t : Fin 16)
  /-- VCLE (R245). Lane-wise less-or-equal mask. -/
  | vcle (g : Guard) (d : Fin 32) (a : Fin 32) (b : Fin 32) (t : Fin 16)
  /-- VSEL (R245). Bitwise select of va and vb under the mask in vd. -/
  | vsel (g : Guard) (d : Fin 32) (a : Fin 32) (b : Fin 32)
  /-- VABS (R243). Lane-wise absolute value. -/
  | vabs (g : Guard) (d : Fin 32) (a : Fin 32) (t : Fin 16)
  /-- VNEG (R243). Lane-wise negation. -/
  | vneg (g : Guard) (d : Fin 32) (a : Fin 32) (t : Fin 16)
  /-- VDOT (R246). Dot products of bytes or BF16 pairs accumulated into 32-bit lanes of vd. -/
  | vdot (g : Guard) (d : Fin 32) (a : Fin 32) (b : Fin 32) (t : Fin 16)
  /-- VPERM (R248). Byte permutation of va selected by vb. -/
  | vperm (g : Guard) (d : Fin 32) (a : Fin 32) (b : Fin 32)
  /-- VZIPL (R249). Interleaves the low halves of va and vb. -/
  | vzipl (g : Guard) (d : Fin 32) (a : Fin 32) (b : Fin 32) (e : Fin 4)
  /-- VZIPH (R249). Interleaves the high halves of va and vb. -/
  | vziph (g : Guard) (d : Fin 32) (a : Fin 32) (b : Fin 32) (e : Fin 4)
  /-- VUZPE (R249). Collects the even elements of va and vb. -/
  | vuzpe (g : Guard) (d : Fin 32) (a : Fin 32) (b : Fin 32) (e : Fin 4)
  /-- VUZPO (R249). Collects the odd elements of va and vb. -/
  | vuzpo (g : Guard) (d : Fin 32) (a : Fin 32) (b : Fin 32) (e : Fin 4)
  /-- VREDADD (R250). Sums the lanes of va in the fixed tree into lane 0. -/
  | vredadd (g : Guard) (d : Fin 32) (a : Fin 32) (t : Fin 16)
  /-- VREDMAX (R250). Maximum of the lanes of va into lane 0. -/
  | vredmax (g : Guard) (d : Fin 32) (a : Fin 32) (t : Fin 16)
  /-- VREDMIN (R250). Minimum of the lanes of va into lane 0. -/
  | vredmin (g : Guard) (d : Fin 32) (a : Fin 32) (t : Fin 16)
  /-- VADD_CW (R247). Lane-wise add of a repeated constant-window entry. -/
  | vaddCw (g : Guard) (d : Fin 32) (a : Fin 32) (cw : Fin 256) (t : Fin 4)
  /-- VMUL_CW (R247). Lane-wise multiply by a repeated constant-window entry. -/
  | vmulCw (g : Guard) (d : Fin 32) (a : Fin 32) (cw : Fin 256) (t : Fin 4)
  /-- VFMA_CW (R247). Fused multiply-add with a repeated constant-window entry. -/
  | vfmaCw (g : Guard) (d : Fin 32) (a : Fin 32) (cw : Fin 256) (t : Fin 4)
  /-- VCVT_RNE (R252). Converts lane types rounding to nearest even. -/
  | vcvtRne (g : Guard) (d : Fin 32) (a : Fin 32) (src : Fin 16) (sat : Bool) (t : Fin 16)
  /-- VCVT_RTZ (R252). Converts lane types rounding towards zero. -/
  | vcvtRtz (g : Guard) (d : Fin 32) (a : Fin 32) (src : Fin 16) (sat : Bool) (t : Fin 16)
  /-- VCVT_RMI (R252). Converts lane types rounding towards minus infinity. -/
  | vcvtRmi (g : Guard) (d : Fin 32) (a : Fin 32) (src : Fin 16) (sat : Bool) (t : Fin 16)
  /-- VCVT_RPI (R252). Converts lane types rounding towards plus infinity. -/
  | vcvtRpi (g : Guard) (d : Fin 32) (a : Fin 32) (src : Fin 16) (sat : Bool) (t : Fin 16)
  /-- QNT (R253). Quantises FP32 lanes by a scale with one saturating rounding. -/
  | qnt (g : Guard) (d : Fin 32) (a : Fin 32) (b : Fin 32) (fmt : Fin 32)
  /-- QNT_NS (R253). Quantises FP32 lanes by a scale with one non-saturating rounding. -/
  | qntNs (g : Guard) (d : Fin 32) (a : Fin 32) (b : Fin 32) (fmt : Fin 32)
  /-- DQN (R254). Decodes narrow codes and multiplies by a scale into FP32. -/
  | dqn (g : Guard) (d : Fin 32) (a : Fin 32) (b : Fin 32) (fmt : Fin 32)
  /-- LTD (R256). Decodes table-format codes through the decode table. -/
  | ltd (g : Guard) (d : Fin 32) (a : Fin 32) (lt4 : Bool)
  /-- LTE (R256). Encodes FP32 lanes into table-format codes. -/
  | lte (g : Guard) (d : Fin 32) (a : Fin 32) (lt4 : Bool)
  /-- HAD (R259). Applies the forward keyed Hadamard transform to a register group. -/
  | had (g : Guard) (d : Fin 32) (a : Fin 32) (b : Fin 32) (n32 : Bool)
  /-- HAD_INV (R259). Applies the inverse keyed Hadamard transform to a register group. -/
  | hadInv (g : Guard) (d : Fin 32) (a : Fin 32) (b : Fin 32) (n32 : Bool)
  /-- RNG_CORE (R257). Draws four core-keyed random words. -/
  | rngCore (g : Guard) (d : Fin 32) (a : Fin 32)
  /-- RNG_IDX (R257). Draws four index-keyed random words. -/
  | rngIdx (g : Guard) (d : Fin 32) (a : Fin 32)
  /-- SRND (R258). Rounds FP32 lanes stochastically into a narrow format. -/
  | srnd (g : Guard) (d : Fin 32) (a : Fin 32) (b : Fin 32) (fmt : Fin 32)
  /-- EXP2 (R260). Lane-wise base-2 exponential by the fixed interpolation. -/
  | exp2 (g : Guard) (d : Fin 32) (a : Fin 32)
  /-- LOG2 (R260). Lane-wise base-2 logarithm. -/
  | log2 (g : Guard) (d : Fin 32) (a : Fin 32)
  /-- RCP (R260). Lane-wise reciprocal. -/
  | rcp (g : Guard) (d : Fin 32) (a : Fin 32)
  /-- RSQ (R260). Lane-wise reciprocal square root. -/
  | rsq (g : Guard) (d : Fin 32) (a : Fin 32)
  /-- SQRT (R260). Lane-wise square root. -/
  | sqrt (g : Guard) (d : Fin 32) (a : Fin 32)
  /-- TANH (R260). Lane-wise hyperbolic tangent. -/
  | tanh (g : Guard) (d : Fin 32) (a : Fin 32)
  /-- MSMRG (R261). Merges two pairs of softmax partials into vd. -/
  | msmrg (g : Guard) (d : Fin 32) (a : Fin 32)
  /-- MMA (R304). Queues a tile product from operand rings into a C tile. -/
  | mma (g : Guard) (a : Fin 16) (b : Fin 16) (t : Fin 64) (zc : Bool)
  /-- MMAS (R304). Queues a tile product with scaled operands and partner scale rings. -/
  | mmas (g : Guard) (a : Fin 16) (b : Fin 16) (t : Fin 64) (zc : Bool)
  /-- MMAT (R304). Queues a tile product with a transposed B layout. -/
  | mmat (g : Guard) (a : Fin 16) (b : Fin 16) (t : Fin 64) (zc : Bool)
  /-- CZERO (R307). Queues zeroing of a C tile. -/
  | czero (g : Guard) (t : Fin 64)
  /-- CSCL (R307). Queues scale, bias and optional ReLU of a C tile. -/
  | cscl (g : Guard) (t : Fin 64) (q : Fin 32)
  /-- CCVT (R308). Waits for writers of a tile, converts it into one ring slot and pushes the slot. -/
  | ccvt (g : Guard) (t : Fin 64) (h : Fin 16)
  /-- CADD (R307). Queues the FP32 addition of one tile into another. -/
  | cadd (g : Guard) (t : Fin 64) (q : Fin 64)
  /-- MDRAIN (R309). Stalls until every queued MXU operation of the core has retired. -/
  | mdrain (g : Guard)
  /-- MQRY (R310). Writes a snapshot of the core's MXU queue to vd. -/
  | mqry (g : Guard) (d : Fin 32)
  /-- MXCFG (R311). Sets the core's MXU arbiter weight. -/
  | mxcfg (g : Guard) (a : Fin 32)
  /-- Event STALLED_ISSUE_RESUME (R225). A bundle stalled on a pending register, full queue, held bytes or sequence block issues once the cause clears. -/
  | stalledIssueResume (core : Nat)
  /-- Event BREAKPOINT_HALT (R385). The core halts before executing a bundle at an enabled breakpoint address. -/
  | breakpointHalt (core : Nat) (bp : Fin 2)
  /-- Event DEBUG_HALT (R385). A requested halt or single step takes effect after the bundle in progress completes. -/
  | debugHalt (core : Nat)
  /-- Event MESSAGE_ARRIVAL (R85). A message reaching a core's network interface is checked, queued to its channel or spilled to the Barrow. -/
  | messageArrival (idx : Nat)
  /-- Event BARROW_REFILL (R86). As run-queue slots free, the oldest Barrow record moves into the run queue. -/
  | barrowRefill (core : Nat)
  /-- Event DEC_ARRIVAL (R101). A DEC applied to a dependence word decrements COUNT, posting or reporting underflow. -/
  | decArrival (idx : Nat)
  /-- Event TASK_DISPATCH (R90). The scheduler chooses a ready channel and dispatches its head message as a task. -/
  | taskDispatch (core : Nat)
  /-- Event WAIT_AGING (R93). A ready channel's WAIT reaching a multiple of 2^16 raises its effective priority. -/
  | waitAging (core : Nat) (chan : Fin 16)
  /-- Event TASK_BUDGET (R96). The budget watchdog reaching zero aborts the task. -/
  | taskBudget (core : Nat)
  /-- Event TASK_END_RELEASE (R95). Once the MXU queue is empty after END, buffered operations are released, the slot freed and the core may retire. -/
  | taskEndRelease (core : Nat)
  /-- Event BUFFERED_MESSAGE_SEND (R271). A released message leaves the core once earlier accesses have performed for its scope. -/
  | bufferedMessageSend (core : Nat) (idx : Nat)
  /-- Event LATE_FAULT (R348). A late fault for an issued request is delivered to its core between bundles. -/
  | lateFault (core : Nat)
  /-- Event GLOBAL_REQUEST_AT_HOME (R158). A load or store reaching its home is applied at most once and answered. -/
  | globalRequestAtHome (core : Nat) (nth : Nat) (ecc : Bool)
  /-- Event ATOMIC_PERFORM (R230). An atomic is performed at its home's atomic unit as one step in coherence order. -/
  | atomicPerform (core : Nat) (nth : Nat) (ecc : Bool)
  /-- Event ORDERED_ATOMIC_SEND (R231). A held ordered atomic is sent once every earlier ordered atomic is performed. -/
  | orderedAtomicSend (core : Nat) (nth : Nat)
  /-- Event GLOBAL_RESPONSE (R225). A response or refusal returns to the requester, writing the destination and lowering OUTSTANDING. -/
  | globalResponse (core : Nat) (nth : Nat)
  /-- Event ACK_TIMEOUT (R157). A request's acknowledgement timer expires and the request is resent. -/
  | ackTimeout (core : Nat) (nth : Nat)
  /-- Event CRIER_ORDER (R145). The Crier gives a replicated-page update or .gack exposure its position in one total order. -/
  | crierOrder (rec : Nat)
  /-- Event REPLICA_UPDATE (R145). A replica applies a multicast update in Crier order. -/
  | replicaUpdate (md : Nat)
  /-- Event GACK_EXPOSE (R151). A .gack store acknowledged by home and replicas becomes visible to every die at once. -/
  | gackExpose (rec : Nat)
  /-- Event FWD_STORE_REMOTE_VISIBLE (R151). A .fwd store becomes visible to another die at a later moment. -/
  | fwdStoreRemoteVisible (die : Nat) (rec : Nat)
  /-- Event PAGE_WALK (R139). A walk completes, giving a translation or an XLATE_FAULT or PROT_FAULT. -/
  | pageWalk (who : WalkRef) (via : WalkVia)
  /-- Event DEMAND_SERVICE_EXPIRY (R140). The service limit of a waiting fault expires and the fault is reported. -/
  | demandServiceExpiry (token : Nat)
  /-- Event PARITY_UPDATE (R332). A parity MD applies an erasure delta to P0 and P1. -/
  | parityUpdate (idx : Nat) (parity : Fin 2)
  /-- Event FRAME_ZERO (R161). An MD zeroes a frame passing between jobs and invalidates its cached lines. -/
  | frameZero (frame : Nat) (job : Nat)
  /-- Event ENGINE_COMMAND_ACCEPT (R278). An engine checks a command record, accepting it and reserving slots or refusing it. -/
  | engineCommandAccept (core : Nat) (nth : Nat)
  /-- Event ENGINE_BLOCK_SEND (R313). An engine converts and sends the next translated block of a command. -/
  | engineBlockSend (core : Nat) (nth : Nat) (ecc : Bool)
  /-- Event ENGINE_BLOCK_ARRIVAL (R314). A block reaching its writer is judged by CRC, then counted, applied or asked for again. -/
  | engineBlockArrival (core : Nat) (nth : Nat) (blk : Nat) (got : Option (List (BitVec 8)))
  /-- Event BLOCK_RESEND (R314). On a request from the writer, the sender resends the stored block. -/
  | blockResend (core : Nat) (nth : Nat) (blk : Nat)
  /-- Event ENGINE_COMMAND_COMPLETE (R281). After its last block is counted, a command posts its completion record or status. -/
  | engineCommandComplete (core : Nat) (nth : Nat)
  /-- Event COLL_MATCH (R285). Engines match COLL commands of one use, completing with GROUP_MISMATCH on disagreement. -/
  | collMatch (job : Nat) (gid : Nat) (use : Nat)
  /-- Event GRAMMAR_EXECUTE (R337). The grammar engine reads STATE and AUTO and writes a mask or advances the state. -/
  | grammarExecute (core : Nat) (nth : Nat)
  /-- Event MXU_START (R296). When the previous operation ends, the arbiter starts the next queued operation. -/
  | mxuStart (mxu : Nat)
  /-- Event MMA_RETIRE (R306). A tile product retires, writing its tile and popping its rings. -/
  | mmaRetire (core : Nat)
  /-- Event CZERO_RETIRE (R307). A CZERO retires, zeroing its tile. -/
  | czeroRetire (core : Nat)
  /-- Event CSCL_RETIRE (R307). A CSCL retires, scaling its tile. -/
  | csclRetire (core : Nat)
  /-- Event CADD_RETIRE (R307). A CADD retires, adding one tile into another. -/
  | caddRetire (core : Nat)
  /-- Event SQ_DOORBELL (R369). A write of SQTAIL makes new submission entries available. -/
  | sqDoorbell (q : Fin 64) (tail : BitVec 12)
  /-- Event LAUNCH_PACKET (R372). The I/O die takes a launch packet, checks it and enters it into the broadcast order. -/
  | launchPacket (q : Fin 64)
  /-- Event GRAPH_PACKET (R376). Slaxel takes a graph packet, checks its node table and starts an instance. -/
  | graphPacket (q : Fin 64)
  /-- Event TRANSLATION_INVALIDATE (R373). A translation-invalidate packet is taken and entered into the broadcast order. -/
  | translationInvalidate (q : Fin 64)
  /-- Event TRANSLATION_INVALIDATE_APPLY (R141). A die or MD drops matching TLB and walker-cache entries in SEQ order. -/
  | translationInvalidateApply (unit : Nat)
  /-- Event INVALIDATE_COMPLETE (R141). Once old translations' requests are acknowledged, the invalidation completes. -/
  | invalidateComplete (seq : Nat)
  /-- Event DIE_APPLY_LAUNCH (R110). A die acts on a broadcast launch, placing and queueing its own gangs. -/
  | dieApplyLaunch (die : Nat)
  /-- Event MAP_UPDATE (R25). A die applies a map update in broadcast order, counting MAPGEN. -/
  | mapUpdate (unit : Nat)
  /-- Event GANG_GRANT (R111). A gang whose block is free is granted and its cores perform gang start. -/
  | gangGrant (job : Nat) (g : Nat)
  /-- Event GANG_COMPLETE (R107). A gang whose cores have retired and whose requests are settled frees its block. -/
  | gangComplete (job : Nat) (g : Nat)
  /-- Event JOB_COMPLETION_RECORD (R374). A settled job's completion record enters the broadcast order and is written to its CQ. -/
  | jobCompletionRecord (job : Nat)
  /-- Event PREEMPT_START (R113). A blocked queue head causes lower-priority gangs to stop choosing tasks. -/
  | preemptStart (die : Nat)
  /-- Event PREEMPT_SAVE (R113). Once a pre-empted gang is idle and settled, a copy engine saves its state. -/
  | preemptSave (job : Nat) (g : Nat)
  /-- Event PREEMPT_SAVE_COMPLETE (R113). After the save, buffers are zeroed and the block freed. -/
  | preemptSaveComplete (job : Nat) (g : Nat)
  /-- Event GANG_RESUME (R114). A pre-empted gang is restored on its logical cores and dispatch resumes. -/
  | gangResume (job : Nat) (g : Nat)
  /-- Event CQHEAD (R369). A CQHEAD write frees room, letting held completion records be written. -/
  | cqhead (q : Fin 64) (head : BitVec 12)
  /-- Event ABORT (R373). A JOBID written to ABORT removes, drops or stops that job. -/
  | abort (jobid : BitVec 64)
  /-- Event FQDB (R375). The host answers an outstanding translation fault with retry or refuse. -/
  | fqdb (token : BitVec 16) (verdict : Bool)
  /-- Event GEVENT (R377). A GID written to GEVENT resumes a graph waiting at an event node. -/
  | gevent (gid : BitVec 64)
  /-- Event BAR0_REGISTER_WRITE (R368). A write to a BAR0 or management register that has no row of its own. -/
  | bar0RegisterWrite (offset : Nat) (value : BitVec 64)
  /-- Event GRAPH_KERNEL_COMPLETE (R377). A kernel node's completion record lets Slaxel run the following nodes. -/
  | graphKernelComplete (gid : BitVec 64)
  /-- Event JOB_STOP (R347). A job is stopped with a status, aborting tasks, cancelling commands and freeing blocks. -/
  | jobStop (job : Nat)
  /-- Event JOB_TIMEOUT (R347). The job time limit expires and the job stops with TIMEOUT. -/
  | jobTimeout (job : Nat)
  /-- Event HEARTBEAT (R358). A core emits a heartbeat as CYCLES crosses a multiple of 2^16. -/
  | heartbeat (core : Nat)
  /-- Event HEARTBEAT_INTERVAL_END (R358). A monitor interval ends, declaring a core failed after three empty intervals. -/
  | heartbeatIntervalEnd (die : Nat)
  /-- Event PARITY_LOCAL (R358). A core detects an uncorrectable local error, halts and reports it. -/
  | parityLocal (core : Nat)
  /-- Event DIE_HEARTBEAT (R358). A die sends its 100 µs heartbeat to both service processors. -/
  | dieHeartbeat (unit : Nat)
  /-- Event DIE_HEARTBEAT_TIMEOUT (R358). Three missed die heartbeats make the die suspect. -/
  | dieHeartbeatTimeout (unit : Nat)
  /-- Event PEER_VOTE (R364). A vote on a die or package loss is taken and the loss declared on a majority. -/
  | peerVote (vote : Vote)
  /-- Event SPARE_CORE_TAKEOVER (R360). A zeroed spare core takes the failed core's identity and the replay proceeds. -/
  | spareCoreTakeover (core : Nat)
  /-- Event INSTANCE_REPLAY (R354). A charged instance's members are aborted and marked messages discarded. -/
  | instanceReplay (job : Nat) (g : Nat) (dom : Nat)
  /-- Event REPLAY_ROOT_RESTORE (R354). The instance's logged roots are placed at the heads of their channels. -/
  | replayRootRestore (job : Nat) (g : Nat) (dom : Nat)
  /-- Event GANG_REPLAY (R355). Once settled, a charged gang repeats gang start on the same logical cores. -/
  | gangReplay (job : Nat) (g : Nat)
  /-- Event JOB_REPLAY (R356). A charged job is stopped and entered again at a new SEQ with its original placement. -/
  | jobReplay (job : Nat)
  /-- Event DOMAIN_INSTANCE_END (R349). A sealed instance ends once its members have popped and its requests settled. -/
  | domainInstanceEnd (job : Nat) (g : Nat) (dom : Nat)
  /-- Event STRIPE_REBUILD (R362). A lost symbol of a stripe is rebuilt from the surviving symbols. -/
  | stripeRebuild (stripe : Nat) (symbol : Fin 12)
  /-- Event PTP_MESSAGE (R31). An IEEE 1588 message adjusts the package time base, stepping forward if far behind. -/
  | ptpMessage (ptp : Ptp)
  /-- Event POWER_GOOD (R379). 48 V input good starts the bring-up sequence. -/
  | powerGood (selfTest : SelfTest)
  /-- Event PACKAGE_RESET (R379). A package reset returns registers to reset values and activates new firmware. -/
  | packageReset
  /-- Event FIRMWARE_IMAGE (R382). A service processor verifies a firmware image and writes it to the inactive bank. -/
  | firmwareImage (image : FwImage)
  /-- Event SET_PLIM (R36). A management request sets the power limit or is refused. -/
  | setPlim (milliwatts : Nat)
  /-- Event GET_VERSION (R381). SPDM GET_VERSION request to the I/O die. -/
  | getVersion
  /-- Event GET_CAPABILITIES (R381). SPDM GET_CAPABILITIES request. -/
  | getCapabilities
  /-- Event NEGOTIATE_ALGORITHMS (R381). SPDM NEGOTIATE_ALGORITHMS request. -/
  | negotiateAlgorithms
  /-- Event GET_DIGESTS (R381). SPDM GET_DIGESTS request. -/
  | getDigests (die : Nat)
  /-- Event GET_CERTIFICATE (R381). SPDM GET_CERTIFICATE request. -/
  | getCertificate (die : Nat)
  /-- Event CHALLENGE (R381). SPDM CHALLENGE request. -/
  | challenge (die : Nat) (nonce : BitVec 256)
  /-- Event GET_MEASUREMENTS (R381). SPDM GET_MEASUREMENTS returning signed firmware digests or the package report. -/
  | getMeasurements (index : Nat)
  /-- Event READING_REQUEST (R392). A reading of an event over a scope is requested and checked. -/
  | readingRequest (reading : ReadingReq)
  /-- Event READING_START (R392). At T0 each selected core arms EVSEL and clears EVCNT. -/
  | readingStart (reading : Nat) (core : Nat)
  /-- Event READING_END (R392). At T1 cores latch EVCNT and the trees combine the result. -/
  | readingEnd (reading : Nat)
  /-- Event HALT_DIE (R387). The debug path halts every logical core of one die. -/
  | haltDie (die : Nat)
  /-- Event RESUME_DIE (R387). The debug path resumes every core of a halted die. -/
  | resumeDie (die : Nat)
  /-- Event DBGCTL (R384). A debug-path write of DBGCTL enables the module, steps or requests a halt. -/
  | dbgctl (core : Nat) (value : BitVec 64)
  /-- Event DBGSTAT (R384). Writing 1 to HALTED resumes the core, delivering any held late fault. -/
  | dbgstat (core : Nat) (value : BitVec 64)
  /-- Event TRCCTL (R388). Setting EN starts tracing and clears counts; clearing it flushes queued records. -/
  | trcctl (core : Nat) (value : BitVec 64)
  /-- Event SLCTL (R393). Setting EN starts the state log with a record of the current state. -/
  | slctl (core : Nat) (value : BitVec 64)
  /-- Event DEBUG_REGISTER_WRITE (R383). A debug-path write of a debug register without a row of its own. -/
  | debugRegisterWrite (core : Nat) (num : Nat) (value : BitVec 64)
  /-- Event DEBUG_PATH_ACCESS (R386). The debug path reads or writes a halted core's registers or local bytes. -/
  | debugPathAccess (core : Nat) (access : DebugAccess)
  /-- Event TRACE_RECORD_WRITE (R390). A queued trace record is written to the trace ring. -/
  | traceRecordWrite (core : Nat)
  /-- Event STATE_LOG_RECORD_WRITE (R393). A queued state-log record is written to the log ring. -/
  | stateLogRecordWrite (core : Nat)
  /-- Event DROOP_CAPTURE (R396). A supply droop makes every core of a voltage domain capture its state. -/
  | droopCapture (die : Nat) (domain : Fin 8)
  /-- Event DROOP_HOLDOFF_EXPIRY (R396). The 10 µs hold-off after a capture ends. -/
  | droopHoldoffExpiry (die : Nat) (domain : Fin 8)
  /-- Event DIE_CACHE_TAKES_STORE (R151). The issuing die's die cache takes a .fwd core store, which becomes visible to every core of that die at one moment. -/
  | dieCacheTakesStore (core : Nat) (nth : Nat)
  /-- Event RESIDENCY_REQUEST_AT_SLICE (R144). An LLC slice takes an HPIN, HDEM or HEVT request and pins, demotes or evicts the handle's lines, then answers. -/
  | residencyRequestAtSlice (core : Nat) (nth : Nat) (md : Fin 8)
  deriving DecidableEq, Repr

end Sys2Proof
end

