-- ==== Sys2Proof/WellFormed.lean ====
section
/-! DEFINITION. Which instruction terms the encoding can carry: every field value assigned (R168 to R181) and no field
that the maps mark res0 in use. The decoder refuses a word that reads as a term failing `fieldsAssigned` as
ILLEGAL_OPCODE and one failing `fieldsReserved` as RES_FIELD (R167). -/

namespace Sys2Proof

/-- A lane-type code of R176 that is assigned. -/
def laneAny (t : Fin 16) : Bool := decide (t.val ≤ 11)
/-- An integer lane-type code, .i8 to .n64. -/
def laneInt (t : Fin 16) : Bool := decide (t.val ≤ 7)
/-- A signed integer lane-type code, .i8 to .i64. -/
def laneSigned (t : Fin 16) : Bool := decide (t.val ≤ 3)
/-- A floating lane-type code, .h .bf .f .e8m10. -/
def laneFloat (t : Fin 16) : Bool := decide (8 ≤ t.val) && decide (t.val ≤ 11)
/-- The format codes of QNT, QNT.ns and DQN: 2 to 9 and 19 to 26 (R177). -/
def fmtQuant (f : Fin 32) : Bool :=
  (decide (2 ≤ f.val) && decide (f.val ≤ 9)) || (decide (19 ≤ f.val) && decide (f.val ≤ 26))
/-- The format codes of SRND: 3 to 9 and 19 to 24 (R177). -/
def fmtSrnd (f : Fin 32) : Bool :=
  (decide (3 ≤ f.val) && decide (f.val ≤ 9)) || (decide (19 ≤ f.val) && decide (f.val ≤ 24))
/-- The number of registers in a group of HAD, n / 4 (R177). -/
def hadRegs (n32 : Bool) : Nat := if n32 then 8 else 4
/-- The first register of a HAD group is a multiple of n / 4 (R177). -/
def hadAligned (n32 : Bool) (r : Fin 32) : Bool := r.val % hadRegs n32 == 0
/-- The control-register numbers that R180, R342, R365 and R383 assign. -/
def csrAssigned (n : Nat) : Bool :=
  decide (n ≤ 0x004) || (decide (0x008 ≤ n) && decide (n ≤ 0x00A)) ||
  (decide (0x010 ≤ n) && decide (n ≤ 0x016)) || (decide (0x018 ≤ n) && decide (n ≤ 0x01A)) ||
  (decide (0x020 ≤ n) && decide (n ≤ 0x025)) || (decide (0x100 ≤ n) && decide (n ≤ 0x14F)) ||
  (decide (0x200 ≤ n) && decide (n ≤ 0x203)) || (decide (0x208 ≤ n) && decide (n ≤ 0x20B)) ||
  (decide (0x210 ≤ n) && decide (n ≤ 0x211)) || (decide (0x218 ≤ n) && decide (n ≤ 0x21A)) ||
  (decide (0x220 ≤ n) && decide (n ≤ 0x221)) || (decide (0x240 ≤ n) && decide (n ≤ 0x247))

/-- Every field holds a value the maps of R169 to R181 assign. -/
def Instr.fieldsAssigned : Instr → Bool
  | .add _ _ _ _ => true
  | .sub _ _ _ _ => true
  | .mul _ _ _ _ => true
  | .mulh _ _ _ _ => true
  | .mulhu _ _ _ _ => true
  | .div _ _ _ _ => true
  | .divu _ _ _ _ => true
  | .rem _ _ _ _ => true
  | .remu _ _ _ _ => true
  | .and _ _ _ _ => true
  | .or _ _ _ _ => true
  | .xor _ _ _ _ => true
  | .andn _ _ _ _ => true
  | .shl _ _ _ _ => true
  | .shr _ _ _ _ => true
  | .sra _ _ _ _ => true
  | .ror _ _ _ _ => true
  | .min _ _ _ _ => true
  | .max _ _ _ _ => true
  | .minu _ _ _ _ => true
  | .maxu _ _ _ _ => true
  | .addCw _ _ _ _ => true
  | .andCw _ _ _ _ => true
  | .orCw _ _ _ _ => true
  | .xorCw _ _ _ _ => true
  | .shlCw _ _ _ _ => true
  | .shrCw _ _ _ _ => true
  | .sraCw _ _ _ _ => true
  | .mulCw _ _ _ _ => true
  | .cmpeq _ _ _ _ => true
  | .cmpne _ _ _ _ => true
  | .cmplt _ _ _ _ => true
  | .cmpge _ _ _ _ => true
  | .cmpltu _ _ _ _ => true
  | .cmpgeu _ _ _ _ => true
  | .cmpeqCw _ _ _ _ => true
  | .cmpneCw _ _ _ _ => true
  | .cmpltCw _ _ _ _ => true
  | .cmpltuCw _ _ _ _ => true
  | .pand _ _ _ _ => true
  | .por _ _ _ _ => true
  | .pxor _ _ _ _ => true
  | .pandn _ _ _ _ => true
  | .pmovx _ _ _ => true
  | .extu _ _ _ _ => true
  | .exts _ _ _ _ => true
  | .ins _ _ _ _ => true
  | .clz _ _ _ => true
  | .ctz _ _ _ => true
  | .popc _ _ _ => true
  | .brev _ _ _ => true
  | .bswap _ _ _ => true
  | .extuCw _ _ _ _ => true
  | .extsCw _ _ _ _ => true
  | .insCw _ _ _ _ => true
  | .ldc _ _ _ => true
  | .lea _ _ _ _ => true
  | .adda _ _ _ _ => true
  | .pfmt _ _ _ => true
  | .sfmt _ _ _ _ => true
  | .leaCw _ _ _ _ => true
  | .addaCw _ _ _ _ => true
  | .sfmtCw _ _ _ _ => true
  | .br _ _ => true
  | .call _ _ => true
  | .jr _ _ => true
  | .ret _ => true
  | .loop _ _ _ len => decide (1 ≤ len.val)
  | .endTask _ => true
  | .lbrk _ _ => true
  | .vfromx _ _ _ _ => true
  | .vtox _ _ _ => true
  | .vtoxh _ _ _ => true
  | .vsplatx _ _ _ => true
  | .ltld _ _ => true
  | .sample _ _ _ _ => true
  | .topkm _ _ _ _ => true
  | .own _ _ _ _ => true
  | .ldN _ _ _ _ _ => true
  | .ldI _ _ _ _ _ => true
  | .ldCw _ _ _ _ _ => true
  | .st _ _ _ _ _ => true
  | .stCw _ _ _ _ _ => true
  | .vld _ _ _ _ => true
  | .vst _ _ _ _ => true
  | .vldx _ _ _ _ _ => true
  | .vstx _ _ _ _ _ => true
  | .gld _ _ _ sc _ ord => (!ord || decide (sc.val ≤ 4))
  | .gst _ _ _ sc _ _ ord => (!ord || decide (sc.val ≤ 4))
  | .gvld _ _ _ sc ord => (!ord || decide (sc.val ≤ 4))
  | .gvst _ _ _ sc _ ord => (!ord || decide (sc.val ≤ 4))
  | .gpfDc _ _ _ => true
  | .gpfLlc _ _ _ => true
  | .aadd _ _ _ _ _ _ => true
  | .aand _ _ _ _ _ _ => true
  | .aor _ _ _ _ _ _ => true
  | .axor _ _ _ _ _ _ => true
  | .amin _ _ _ _ _ _ _ => true
  | .amax _ _ _ _ _ _ _ => true
  | .aswp _ _ _ _ _ _ => true
  | .acas _ _ _ _ _ _ => true
  | .afadd _ _ _ _ _ => true
  | .vaor _ _ _ _ _ => true
  | .fenceAcq _ sc => decide (sc.val ≤ 4)
  | .fenceRel _ sc => decide (sc.val ≤ 4)
  | .fenceFull _ sc => decide (sc.val ≤ 4)
  | .tset _ _ _ => true
  | .tgen _ _ _ => true
  | .bara _ _ => true
  | .bard _ _ => true
  | .barq _ _ _ => true
  | .rdef _ _ _ => true
  | .radvHd _ _ _ => true
  | .radvTl _ _ _ => true
  | .rqry _ _ _ => true
  | .bind _ _ _ => true
  | .unbind _ _ => true
  | .hpin _ _ _ => true
  | .hdem _ _ _ => true
  | .hevt _ _ => true
  | .send _ _ _ => true
  | .sendv _ _ _ => true
  | .reply _ _ _ => true
  | .dec _ _ _ => true
  | .msgrd _ _ _ => true
  | .spawn _ _ _ _ _ => true
  | .cpy _ _ _ _ => true
  | .cpys _ _ _ _ => true
  | .efq _ _ _ _ => true
  | .coll _ _ _ _ => true
  | .gmask _ _ _ _ => true
  | .gstep _ _ _ _ => true
  | .csrr _ _ num => csrAssigned num.val
  | .csrw _ _ num => csrAssigned num.val && !(decide (0x020 ≤ num.val) && decide (num.val ≤ 0x025))
  | .trap _ _ => true
  | .hbt _ => true
  | .brk _ => true
  | .trc _ _ => true
  | .cdo _ _ => true
  | .cdc _ _ => true
  | .cdp _ _ _ => true
  | .vadd _ _ _ _ sat t => laneAny t && (!sat || decide (t.val ≤ 7))
  | .vsub _ _ _ _ sat t => laneAny t && (!sat || decide (t.val ≤ 7))
  | .vmul _ _ _ _ t => laneAny t
  | .vfma _ _ _ _ t => laneFloat t
  | .vmin _ _ _ _ t => laneAny t
  | .vmax _ _ _ _ t => laneAny t
  | .vand _ _ _ _ => true
  | .vor _ _ _ _ => true
  | .vxor _ _ _ _ => true
  | .vandn _ _ _ _ => true
  | .vshl _ _ _ _ t => laneInt t
  | .vshr _ _ _ _ t => laneInt t
  | .vceq _ _ _ _ t => laneAny t
  | .vclt _ _ _ _ t => laneAny t
  | .vcle _ _ _ _ t => laneAny t
  | .vsel _ _ _ _ => true
  | .vabs _ _ _ t => (laneSigned t || laneFloat t)
  | .vneg _ _ _ t => (laneSigned t || laneFloat t)
  | .vdot _ _ _ _ t => (t.val == 0 || t.val == 4 || t.val == 9)
  | .vperm _ _ _ _ => true
  | .vzipl _ _ _ _ _ => true
  | .vziph _ _ _ _ _ => true
  | .vuzpe _ _ _ _ _ => true
  | .vuzpo _ _ _ _ _ => true
  | .vredadd _ _ _ t => (t.val == 2 || t.val == 3 || t.val == 6 || t.val == 7 || t.val == 10)
  | .vredmax _ _ _ t => laneAny t
  | .vredmin _ _ _ t => laneAny t
  | .vaddCw _ _ _ _ _ => true
  | .vmulCw _ _ _ _ _ => true
  | .vfmaCw _ _ _ _ t => decide (2 ≤ t.val)
  | .vcvtRne _ _ _ src _ t => laneAny t && laneAny src
  | .vcvtRtz _ _ _ src _ t => laneAny t && laneAny src
  | .vcvtRmi _ _ _ src _ t => laneAny t && laneAny src
  | .vcvtRpi _ _ _ src _ t => laneAny t && laneAny src
  | .qnt _ _ _ _ fmt => fmtQuant fmt
  | .qntNs _ _ _ _ fmt => fmtQuant fmt
  | .dqn _ _ _ _ fmt => fmtQuant fmt
  | .ltd _ _ _ _ => true
  | .lte _ _ _ _ => true
  | .had _ d a _ n32 => hadAligned n32 d && hadAligned n32 a
  | .hadInv _ d a _ n32 => hadAligned n32 d && hadAligned n32 a
  | .rngCore _ _ _ => true
  | .rngIdx _ _ _ => true
  | .srnd _ _ _ _ fmt => fmtSrnd fmt
  | .exp2 _ _ _ => true
  | .log2 _ _ _ => true
  | .rcp _ _ _ => true
  | .rsq _ _ _ => true
  | .sqrt _ _ _ => true
  | .tanh _ _ _ => true
  | .msmrg _ _ _ => true
  | .mma _ _ _ _ _ => true
  | .mmas _ _ _ _ _ => true
  | .mmat _ _ _ _ _ => true
  | .czero _ _ => true
  | .cscl _ _ _ => true
  | .ccvt _ _ _ => true
  | .cadd _ _ _ => true
  | .mdrain _ => true
  | .mqry _ _ => true
  | .mxcfg _ _ => true
  | .stalledIssueResume _ => true
  | .breakpointHalt _ _ => true
  | .debugHalt _ => true
  | .messageArrival _ => true
  | .barrowRefill _ => true
  | .decArrival _ => true
  | .taskDispatch _ => true
  | .waitAging _ _ => true
  | .taskBudget _ => true
  | .taskEndRelease _ => true
  | .bufferedMessageSend _ _ => true
  | .lateFault _ => true
  | .globalRequestAtHome _ _ _ => true
  | .atomicPerform _ _ _ => true
  | .orderedAtomicSend _ _ => true
  | .globalResponse _ _ => true
  | .ackTimeout _ _ => true
  | .crierOrder _ => true
  | .replicaUpdate _ => true
  | .gackExpose _ => true
  | .fwdStoreRemoteVisible _ _ => true
  | .pageWalk _ _ => true
  | .demandServiceExpiry _ => true
  | .parityUpdate _ _ => true
  | .frameZero _ _ => true
  | .engineCommandAccept _ _ => true
  | .engineBlockSend _ _ _ => true
  | .engineBlockArrival _ _ _ _ => true
  | .blockResend _ _ _ => true
  | .engineCommandComplete _ _ => true
  | .collMatch _ _ _ => true
  | .grammarExecute _ _ => true
  | .mxuStart _ => true
  | .mmaRetire _ => true
  | .czeroRetire _ => true
  | .csclRetire _ => true
  | .caddRetire _ => true
  | .sqDoorbell _ _ => true
  | .launchPacket _ => true
  | .graphPacket _ => true
  | .translationInvalidate _ => true
  | .translationInvalidateApply _ => true
  | .invalidateComplete _ => true
  | .dieApplyLaunch _ => true
  | .mapUpdate _ => true
  | .gangGrant _ _ => true
  | .gangComplete _ _ => true
  | .jobCompletionRecord _ => true
  | .preemptStart _ => true
  | .preemptSave _ _ => true
  | .preemptSaveComplete _ _ => true
  | .gangResume _ _ => true
  | .cqhead _ _ => true
  | .abort _ => true
  | .fqdb _ _ => true
  | .gevent _ => true
  | .bar0RegisterWrite _ _ => true
  | .graphKernelComplete _ => true
  | .jobStop _ => true
  | .jobTimeout _ => true
  | .heartbeat _ => true
  | .heartbeatIntervalEnd _ => true
  | .parityLocal _ => true
  | .dieHeartbeat _ => true
  | .dieHeartbeatTimeout _ => true
  | .peerVote _ => true
  | .spareCoreTakeover _ => true
  | .instanceReplay _ _ _ => true
  | .replayRootRestore _ _ _ => true
  | .gangReplay _ _ => true
  | .jobReplay _ => true
  | .domainInstanceEnd _ _ _ => true
  | .stripeRebuild _ _ => true
  | .ptpMessage _ => true
  | .powerGood _ => true
  | .packageReset => true
  | .firmwareImage _ => true
  | .setPlim _ => true
  | .getVersion => true
  | .getCapabilities => true
  | .negotiateAlgorithms => true
  | .getDigests _ => true
  | .getCertificate _ => true
  | .challenge _ _ => true
  | .getMeasurements _ => true
  | .readingRequest _ => true
  | .readingStart _ _ => true
  | .readingEnd _ => true
  | .haltDie _ => true
  | .resumeDie _ => true
  | .dbgctl _ _ => true
  | .dbgstat _ _ => true
  | .trcctl _ _ => true
  | .slctl _ _ => true
  | .debugRegisterWrite _ _ _ => true
  | .debugPathAccess _ _ => true
  | .traceRecordWrite _ => true
  | .stateLogRecordWrite _ => true
  | .droopCapture _ _ => true
  | .droopHoldoffExpiry _ _ => true
  | .dieCacheTakesStore _ _ => true
  | .residencyRequestAtSlice _ _ _ => true

/-- No field that the maps make res0 for the instruction's own other fields holds a value: SC of a plain global access
(R171), and the sign bit of an eight-byte LD (R175). -/
def Instr.fieldsReserved : Instr → Bool
  | .add _ _ _ _ => true
  | .sub _ _ _ _ => true
  | .mul _ _ _ _ => true
  | .mulh _ _ _ _ => true
  | .mulhu _ _ _ _ => true
  | .div _ _ _ _ => true
  | .divu _ _ _ _ => true
  | .rem _ _ _ _ => true
  | .remu _ _ _ _ => true
  | .and _ _ _ _ => true
  | .or _ _ _ _ => true
  | .xor _ _ _ _ => true
  | .andn _ _ _ _ => true
  | .shl _ _ _ _ => true
  | .shr _ _ _ _ => true
  | .sra _ _ _ _ => true
  | .ror _ _ _ _ => true
  | .min _ _ _ _ => true
  | .max _ _ _ _ => true
  | .minu _ _ _ _ => true
  | .maxu _ _ _ _ => true
  | .addCw _ _ _ _ => true
  | .andCw _ _ _ _ => true
  | .orCw _ _ _ _ => true
  | .xorCw _ _ _ _ => true
  | .shlCw _ _ _ _ => true
  | .shrCw _ _ _ _ => true
  | .sraCw _ _ _ _ => true
  | .mulCw _ _ _ _ => true
  | .cmpeq _ _ _ _ => true
  | .cmpne _ _ _ _ => true
  | .cmplt _ _ _ _ => true
  | .cmpge _ _ _ _ => true
  | .cmpltu _ _ _ _ => true
  | .cmpgeu _ _ _ _ => true
  | .cmpeqCw _ _ _ _ => true
  | .cmpneCw _ _ _ _ => true
  | .cmpltCw _ _ _ _ => true
  | .cmpltuCw _ _ _ _ => true
  | .pand _ _ _ _ => true
  | .por _ _ _ _ => true
  | .pxor _ _ _ _ => true
  | .pandn _ _ _ _ => true
  | .pmovx _ _ _ => true
  | .extu _ _ _ _ => true
  | .exts _ _ _ _ => true
  | .ins _ _ _ _ => true
  | .clz _ _ _ => true
  | .ctz _ _ _ => true
  | .popc _ _ _ => true
  | .brev _ _ _ => true
  | .bswap _ _ _ => true
  | .extuCw _ _ _ _ => true
  | .extsCw _ _ _ _ => true
  | .insCw _ _ _ _ => true
  | .ldc _ _ _ => true
  | .lea _ _ _ _ => true
  | .adda _ _ _ _ => true
  | .pfmt _ _ _ => true
  | .sfmt _ _ _ _ => true
  | .leaCw _ _ _ _ => true
  | .addaCw _ _ _ _ => true
  | .sfmtCw _ _ _ _ => true
  | .br _ _ => true
  | .call _ _ => true
  | .jr _ _ => true
  | .ret _ => true
  | .loop _ _ _ _ => true
  | .endTask _ => true
  | .lbrk _ _ => true
  | .vfromx _ _ _ _ => true
  | .vtox _ _ _ => true
  | .vtoxh _ _ _ => true
  | .vsplatx _ _ _ => true
  | .ltld _ _ => true
  | .sample _ _ _ _ => true
  | .topkm _ _ _ _ => true
  | .own _ _ _ _ => true
  | .ldN _ _ _ _ _ => true
  | .ldI _ _ _ _ w => w.val != 3
  | .ldCw _ _ _ _ _ => true
  | .st _ _ _ _ _ => true
  | .stCw _ _ _ _ _ => true
  | .vld _ _ _ _ => true
  | .vst _ _ _ _ => true
  | .vldx _ _ _ _ _ => true
  | .vstx _ _ _ _ _ => true
  | .gld _ _ _ sc _ ord => (ord || sc.val == 0)
  | .gst _ _ _ sc _ _ ord => (ord || sc.val == 0)
  | .gvld _ _ _ sc ord => (ord || sc.val == 0)
  | .gvst _ _ _ sc _ ord => (ord || sc.val == 0)
  | .gpfDc _ _ _ => true
  | .gpfLlc _ _ _ => true
  | .aadd _ _ _ _ _ _ => true
  | .aand _ _ _ _ _ _ => true
  | .aor _ _ _ _ _ _ => true
  | .axor _ _ _ _ _ _ => true
  | .amin _ _ _ _ _ _ _ => true
  | .amax _ _ _ _ _ _ _ => true
  | .aswp _ _ _ _ _ _ => true
  | .acas _ _ _ _ _ _ => true
  | .afadd _ _ _ _ _ => true
  | .vaor _ _ _ _ _ => true
  | .fenceAcq _ _ => true
  | .fenceRel _ _ => true
  | .fenceFull _ _ => true
  | .tset _ _ _ => true
  | .tgen _ _ _ => true
  | .bara _ _ => true
  | .bard _ _ => true
  | .barq _ _ _ => true
  | .rdef _ _ _ => true
  | .radvHd _ _ _ => true
  | .radvTl _ _ _ => true
  | .rqry _ _ _ => true
  | .bind _ _ _ => true
  | .unbind _ _ => true
  | .hpin _ _ _ => true
  | .hdem _ _ _ => true
  | .hevt _ _ => true
  | .send _ _ _ => true
  | .sendv _ _ _ => true
  | .reply _ _ _ => true
  | .dec _ _ _ => true
  | .msgrd _ _ _ => true
  | .spawn _ _ _ _ _ => true
  | .cpy _ _ _ _ => true
  | .cpys _ _ _ _ => true
  | .efq _ _ _ _ => true
  | .coll _ _ _ _ => true
  | .gmask _ _ _ _ => true
  | .gstep _ _ _ _ => true
  | .csrr _ _ _ => true
  | .csrw _ _ _ => true
  | .trap _ _ => true
  | .hbt _ => true
  | .brk _ => true
  | .trc _ _ => true
  | .cdo _ _ => true
  | .cdc _ _ => true
  | .cdp _ _ _ => true
  | .vadd _ _ _ _ _ _ => true
  | .vsub _ _ _ _ _ _ => true
  | .vmul _ _ _ _ _ => true
  | .vfma _ _ _ _ _ => true
  | .vmin _ _ _ _ _ => true
  | .vmax _ _ _ _ _ => true
  | .vand _ _ _ _ => true
  | .vor _ _ _ _ => true
  | .vxor _ _ _ _ => true
  | .vandn _ _ _ _ => true
  | .vshl _ _ _ _ _ => true
  | .vshr _ _ _ _ _ => true
  | .vceq _ _ _ _ _ => true
  | .vclt _ _ _ _ _ => true
  | .vcle _ _ _ _ _ => true
  | .vsel _ _ _ _ => true
  | .vabs _ _ _ _ => true
  | .vneg _ _ _ _ => true
  | .vdot _ _ _ _ _ => true
  | .vperm _ _ _ _ => true
  | .vzipl _ _ _ _ _ => true
  | .vziph _ _ _ _ _ => true
  | .vuzpe _ _ _ _ _ => true
  | .vuzpo _ _ _ _ _ => true
  | .vredadd _ _ _ _ => true
  | .vredmax _ _ _ _ => true
  | .vredmin _ _ _ _ => true
  | .vaddCw _ _ _ _ _ => true
  | .vmulCw _ _ _ _ _ => true
  | .vfmaCw _ _ _ _ _ => true
  | .vcvtRne _ _ _ _ _ _ => true
  | .vcvtRtz _ _ _ _ _ _ => true
  | .vcvtRmi _ _ _ _ _ _ => true
  | .vcvtRpi _ _ _ _ _ _ => true
  | .qnt _ _ _ _ _ => true
  | .qntNs _ _ _ _ _ => true
  | .dqn _ _ _ _ _ => true
  | .ltd _ _ _ _ => true
  | .lte _ _ _ _ => true
  | .had _ _ _ _ _ => true
  | .hadInv _ _ _ _ _ => true
  | .rngCore _ _ _ => true
  | .rngIdx _ _ _ => true
  | .srnd _ _ _ _ _ => true
  | .exp2 _ _ _ => true
  | .log2 _ _ _ => true
  | .rcp _ _ _ => true
  | .rsq _ _ _ => true
  | .sqrt _ _ _ => true
  | .tanh _ _ _ => true
  | .msmrg _ _ _ => true
  | .mma _ _ _ _ _ => true
  | .mmas _ _ _ _ _ => true
  | .mmat _ _ _ _ _ => true
  | .czero _ _ => true
  | .cscl _ _ _ => true
  | .ccvt _ _ _ => true
  | .cadd _ _ _ => true
  | .mdrain _ => true
  | .mqry _ _ => true
  | .mxcfg _ _ => true
  | .stalledIssueResume _ => true
  | .breakpointHalt _ _ => true
  | .debugHalt _ => true
  | .messageArrival _ => true
  | .barrowRefill _ => true
  | .decArrival _ => true
  | .taskDispatch _ => true
  | .waitAging _ _ => true
  | .taskBudget _ => true
  | .taskEndRelease _ => true
  | .bufferedMessageSend _ _ => true
  | .lateFault _ => true
  | .globalRequestAtHome _ _ _ => true
  | .atomicPerform _ _ _ => true
  | .orderedAtomicSend _ _ => true
  | .globalResponse _ _ => true
  | .ackTimeout _ _ => true
  | .crierOrder _ => true
  | .replicaUpdate _ => true
  | .gackExpose _ => true
  | .fwdStoreRemoteVisible _ _ => true
  | .pageWalk _ _ => true
  | .demandServiceExpiry _ => true
  | .parityUpdate _ _ => true
  | .frameZero _ _ => true
  | .engineCommandAccept _ _ => true
  | .engineBlockSend _ _ _ => true
  | .engineBlockArrival _ _ _ _ => true
  | .blockResend _ _ _ => true
  | .engineCommandComplete _ _ => true
  | .collMatch _ _ _ => true
  | .grammarExecute _ _ => true
  | .mxuStart _ => true
  | .mmaRetire _ => true
  | .czeroRetire _ => true
  | .csclRetire _ => true
  | .caddRetire _ => true
  | .sqDoorbell _ _ => true
  | .launchPacket _ => true
  | .graphPacket _ => true
  | .translationInvalidate _ => true
  | .translationInvalidateApply _ => true
  | .invalidateComplete _ => true
  | .dieApplyLaunch _ => true
  | .mapUpdate _ => true
  | .gangGrant _ _ => true
  | .gangComplete _ _ => true
  | .jobCompletionRecord _ => true
  | .preemptStart _ => true
  | .preemptSave _ _ => true
  | .preemptSaveComplete _ _ => true
  | .gangResume _ _ => true
  | .cqhead _ _ => true
  | .abort _ => true
  | .fqdb _ _ => true
  | .gevent _ => true
  | .bar0RegisterWrite _ _ => true
  | .graphKernelComplete _ => true
  | .jobStop _ => true
  | .jobTimeout _ => true
  | .heartbeat _ => true
  | .heartbeatIntervalEnd _ => true
  | .parityLocal _ => true
  | .dieHeartbeat _ => true
  | .dieHeartbeatTimeout _ => true
  | .peerVote _ => true
  | .spareCoreTakeover _ => true
  | .instanceReplay _ _ _ => true
  | .replayRootRestore _ _ _ => true
  | .gangReplay _ _ => true
  | .jobReplay _ => true
  | .domainInstanceEnd _ _ _ => true
  | .stripeRebuild _ _ => true
  | .ptpMessage _ => true
  | .powerGood _ => true
  | .packageReset => true
  | .firmwareImage _ => true
  | .setPlim _ => true
  | .getVersion => true
  | .getCapabilities => true
  | .negotiateAlgorithms => true
  | .getDigests _ => true
  | .getCertificate _ => true
  | .challenge _ _ => true
  | .getMeasurements _ => true
  | .readingRequest _ => true
  | .readingStart _ _ => true
  | .readingEnd _ => true
  | .haltDie _ => true
  | .resumeDie _ => true
  | .dbgctl _ _ => true
  | .dbgstat _ _ => true
  | .trcctl _ _ => true
  | .slctl _ _ => true
  | .debugRegisterWrite _ _ _ => true
  | .debugPathAccess _ _ => true
  | .traceRecordWrite _ => true
  | .stateLogRecordWrite _ => true
  | .droopCapture _ _ => true
  | .droopHoldoffExpiry _ _ => true
  | .dieCacheTakesStore _ _ => true
  | .residencyRequestAtSlice _ _ _ => true

/-- A term the encoding can carry (an event is always one: it has no encoding). -/
def Instr.wf (i : Instr) : Bool := i.fieldsAssigned && i.fieldsReserved

/-- The slot of a bundle an instruction belongs in (R163); an event belongs in none. -/
inductive Slot
  /-- Control and memory. -/
  | c
  /-- Arithmetic. -/
  | x
  deriving DecidableEq, Repr

/-- The slot of each instruction (R175, R177). -/
def Instr.slot : Instr → Option Slot
  | .add _ _ _ _ => some .c
  | .sub _ _ _ _ => some .c
  | .mul _ _ _ _ => some .c
  | .mulh _ _ _ _ => some .c
  | .mulhu _ _ _ _ => some .c
  | .div _ _ _ _ => some .c
  | .divu _ _ _ _ => some .c
  | .rem _ _ _ _ => some .c
  | .remu _ _ _ _ => some .c
  | .and _ _ _ _ => some .c
  | .or _ _ _ _ => some .c
  | .xor _ _ _ _ => some .c
  | .andn _ _ _ _ => some .c
  | .shl _ _ _ _ => some .c
  | .shr _ _ _ _ => some .c
  | .sra _ _ _ _ => some .c
  | .ror _ _ _ _ => some .c
  | .min _ _ _ _ => some .c
  | .max _ _ _ _ => some .c
  | .minu _ _ _ _ => some .c
  | .maxu _ _ _ _ => some .c
  | .addCw _ _ _ _ => some .c
  | .andCw _ _ _ _ => some .c
  | .orCw _ _ _ _ => some .c
  | .xorCw _ _ _ _ => some .c
  | .shlCw _ _ _ _ => some .c
  | .shrCw _ _ _ _ => some .c
  | .sraCw _ _ _ _ => some .c
  | .mulCw _ _ _ _ => some .c
  | .cmpeq _ _ _ _ => some .c
  | .cmpne _ _ _ _ => some .c
  | .cmplt _ _ _ _ => some .c
  | .cmpge _ _ _ _ => some .c
  | .cmpltu _ _ _ _ => some .c
  | .cmpgeu _ _ _ _ => some .c
  | .cmpeqCw _ _ _ _ => some .c
  | .cmpneCw _ _ _ _ => some .c
  | .cmpltCw _ _ _ _ => some .c
  | .cmpltuCw _ _ _ _ => some .c
  | .pand _ _ _ _ => some .c
  | .por _ _ _ _ => some .c
  | .pxor _ _ _ _ => some .c
  | .pandn _ _ _ _ => some .c
  | .pmovx _ _ _ => some .c
  | .extu _ _ _ _ => some .c
  | .exts _ _ _ _ => some .c
  | .ins _ _ _ _ => some .c
  | .clz _ _ _ => some .c
  | .ctz _ _ _ => some .c
  | .popc _ _ _ => some .c
  | .brev _ _ _ => some .c
  | .bswap _ _ _ => some .c
  | .extuCw _ _ _ _ => some .c
  | .extsCw _ _ _ _ => some .c
  | .insCw _ _ _ _ => some .c
  | .ldc _ _ _ => some .c
  | .lea _ _ _ _ => some .c
  | .adda _ _ _ _ => some .c
  | .pfmt _ _ _ => some .c
  | .sfmt _ _ _ _ => some .c
  | .leaCw _ _ _ _ => some .c
  | .addaCw _ _ _ _ => some .c
  | .sfmtCw _ _ _ _ => some .c
  | .br _ _ => some .c
  | .call _ _ => some .c
  | .jr _ _ => some .c
  | .ret _ => some .c
  | .loop _ _ _ _ => some .c
  | .endTask _ => some .c
  | .lbrk _ _ => some .c
  | .vfromx _ _ _ _ => some .c
  | .vtox _ _ _ => some .c
  | .vtoxh _ _ _ => some .c
  | .vsplatx _ _ _ => some .c
  | .ltld _ _ => some .c
  | .sample _ _ _ _ => some .c
  | .topkm _ _ _ _ => some .c
  | .own _ _ _ _ => some .c
  | .ldN _ _ _ _ _ => some .c
  | .ldI _ _ _ _ _ => some .c
  | .ldCw _ _ _ _ _ => some .c
  | .st _ _ _ _ _ => some .c
  | .stCw _ _ _ _ _ => some .c
  | .vld _ _ _ _ => some .c
  | .vst _ _ _ _ => some .c
  | .vldx _ _ _ _ _ => some .c
  | .vstx _ _ _ _ _ => some .c
  | .gld _ _ _ _ _ _ => some .c
  | .gst _ _ _ _ _ _ _ => some .c
  | .gvld _ _ _ _ _ => some .c
  | .gvst _ _ _ _ _ _ => some .c
  | .gpfDc _ _ _ => some .c
  | .gpfLlc _ _ _ => some .c
  | .aadd _ _ _ _ _ _ => some .c
  | .aand _ _ _ _ _ _ => some .c
  | .aor _ _ _ _ _ _ => some .c
  | .axor _ _ _ _ _ _ => some .c
  | .amin _ _ _ _ _ _ _ => some .c
  | .amax _ _ _ _ _ _ _ => some .c
  | .aswp _ _ _ _ _ _ => some .c
  | .acas _ _ _ _ _ _ => some .c
  | .afadd _ _ _ _ _ => some .c
  | .vaor _ _ _ _ _ => some .c
  | .fenceAcq _ _ => some .c
  | .fenceRel _ _ => some .c
  | .fenceFull _ _ => some .c
  | .tset _ _ _ => some .c
  | .tgen _ _ _ => some .c
  | .bara _ _ => some .c
  | .bard _ _ => some .c
  | .barq _ _ _ => some .c
  | .rdef _ _ _ => some .c
  | .radvHd _ _ _ => some .c
  | .radvTl _ _ _ => some .c
  | .rqry _ _ _ => some .c
  | .bind _ _ _ => some .c
  | .unbind _ _ => some .c
  | .hpin _ _ _ => some .c
  | .hdem _ _ _ => some .c
  | .hevt _ _ => some .c
  | .send _ _ _ => some .c
  | .sendv _ _ _ => some .c
  | .reply _ _ _ => some .c
  | .dec _ _ _ => some .c
  | .msgrd _ _ _ => some .c
  | .spawn _ _ _ _ _ => some .c
  | .cpy _ _ _ _ => some .c
  | .cpys _ _ _ _ => some .c
  | .efq _ _ _ _ => some .c
  | .coll _ _ _ _ => some .c
  | .gmask _ _ _ _ => some .c
  | .gstep _ _ _ _ => some .c
  | .csrr _ _ _ => some .c
  | .csrw _ _ _ => some .c
  | .trap _ _ => some .c
  | .hbt _ => some .c
  | .brk _ => some .c
  | .trc _ _ => some .c
  | .cdo _ _ => some .c
  | .cdc _ _ => some .c
  | .cdp _ _ _ => some .c
  | .vadd _ _ _ _ _ _ => some .x
  | .vsub _ _ _ _ _ _ => some .x
  | .vmul _ _ _ _ _ => some .x
  | .vfma _ _ _ _ _ => some .x
  | .vmin _ _ _ _ _ => some .x
  | .vmax _ _ _ _ _ => some .x
  | .vand _ _ _ _ => some .x
  | .vor _ _ _ _ => some .x
  | .vxor _ _ _ _ => some .x
  | .vandn _ _ _ _ => some .x
  | .vshl _ _ _ _ _ => some .x
  | .vshr _ _ _ _ _ => some .x
  | .vceq _ _ _ _ _ => some .x
  | .vclt _ _ _ _ _ => some .x
  | .vcle _ _ _ _ _ => some .x
  | .vsel _ _ _ _ => some .x
  | .vabs _ _ _ _ => some .x
  | .vneg _ _ _ _ => some .x
  | .vdot _ _ _ _ _ => some .x
  | .vperm _ _ _ _ => some .x
  | .vzipl _ _ _ _ _ => some .x
  | .vziph _ _ _ _ _ => some .x
  | .vuzpe _ _ _ _ _ => some .x
  | .vuzpo _ _ _ _ _ => some .x
  | .vredadd _ _ _ _ => some .x
  | .vredmax _ _ _ _ => some .x
  | .vredmin _ _ _ _ => some .x
  | .vaddCw _ _ _ _ _ => some .x
  | .vmulCw _ _ _ _ _ => some .x
  | .vfmaCw _ _ _ _ _ => some .x
  | .vcvtRne _ _ _ _ _ _ => some .x
  | .vcvtRtz _ _ _ _ _ _ => some .x
  | .vcvtRmi _ _ _ _ _ _ => some .x
  | .vcvtRpi _ _ _ _ _ _ => some .x
  | .qnt _ _ _ _ _ => some .x
  | .qntNs _ _ _ _ _ => some .x
  | .dqn _ _ _ _ _ => some .x
  | .ltd _ _ _ _ => some .x
  | .lte _ _ _ _ => some .x
  | .had _ _ _ _ _ => some .x
  | .hadInv _ _ _ _ _ => some .x
  | .rngCore _ _ _ => some .x
  | .rngIdx _ _ _ => some .x
  | .srnd _ _ _ _ _ => some .x
  | .exp2 _ _ _ => some .x
  | .log2 _ _ _ => some .x
  | .rcp _ _ _ => some .x
  | .rsq _ _ _ => some .x
  | .sqrt _ _ _ => some .x
  | .tanh _ _ _ => some .x
  | .msmrg _ _ _ => some .x
  | .mma _ _ _ _ _ => some .x
  | .mmas _ _ _ _ _ => some .x
  | .mmat _ _ _ _ _ => some .x
  | .czero _ _ => some .x
  | .cscl _ _ _ => some .x
  | .ccvt _ _ _ => some .x
  | .cadd _ _ _ => some .x
  | .mdrain _ => some .x
  | .mqry _ _ => some .x
  | .mxcfg _ _ => some .x
  | .stalledIssueResume _ => none
  | .breakpointHalt _ _ => none
  | .debugHalt _ => none
  | .messageArrival _ => none
  | .barrowRefill _ => none
  | .decArrival _ => none
  | .taskDispatch _ => none
  | .waitAging _ _ => none
  | .taskBudget _ => none
  | .taskEndRelease _ => none
  | .bufferedMessageSend _ _ => none
  | .lateFault _ => none
  | .globalRequestAtHome _ _ _ => none
  | .atomicPerform _ _ _ => none
  | .orderedAtomicSend _ _ => none
  | .globalResponse _ _ => none
  | .ackTimeout _ _ => none
  | .crierOrder _ => none
  | .replicaUpdate _ => none
  | .gackExpose _ => none
  | .fwdStoreRemoteVisible _ _ => none
  | .pageWalk _ _ => none
  | .demandServiceExpiry _ => none
  | .parityUpdate _ _ => none
  | .frameZero _ _ => none
  | .engineCommandAccept _ _ => none
  | .engineBlockSend _ _ _ => none
  | .engineBlockArrival _ _ _ _ => none
  | .blockResend _ _ _ => none
  | .engineCommandComplete _ _ => none
  | .collMatch _ _ _ => none
  | .grammarExecute _ _ => none
  | .mxuStart _ => none
  | .mmaRetire _ => none
  | .czeroRetire _ => none
  | .csclRetire _ => none
  | .caddRetire _ => none
  | .sqDoorbell _ _ => none
  | .launchPacket _ => none
  | .graphPacket _ => none
  | .translationInvalidate _ => none
  | .translationInvalidateApply _ => none
  | .invalidateComplete _ => none
  | .dieApplyLaunch _ => none
  | .mapUpdate _ => none
  | .gangGrant _ _ => none
  | .gangComplete _ _ => none
  | .jobCompletionRecord _ => none
  | .preemptStart _ => none
  | .preemptSave _ _ => none
  | .preemptSaveComplete _ _ => none
  | .gangResume _ _ => none
  | .cqhead _ _ => none
  | .abort _ => none
  | .fqdb _ _ => none
  | .gevent _ => none
  | .bar0RegisterWrite _ _ => none
  | .graphKernelComplete _ => none
  | .jobStop _ => none
  | .jobTimeout _ => none
  | .heartbeat _ => none
  | .heartbeatIntervalEnd _ => none
  | .parityLocal _ => none
  | .dieHeartbeat _ => none
  | .dieHeartbeatTimeout _ => none
  | .peerVote _ => none
  | .spareCoreTakeover _ => none
  | .instanceReplay _ _ _ => none
  | .replayRootRestore _ _ _ => none
  | .gangReplay _ _ => none
  | .jobReplay _ => none
  | .domainInstanceEnd _ _ _ => none
  | .stripeRebuild _ _ => none
  | .ptpMessage _ => none
  | .powerGood _ => none
  | .packageReset => none
  | .firmwareImage _ => none
  | .setPlim _ => none
  | .getVersion => none
  | .getCapabilities => none
  | .negotiateAlgorithms => none
  | .getDigests _ => none
  | .getCertificate _ => none
  | .challenge _ _ => none
  | .getMeasurements _ => none
  | .readingRequest _ => none
  | .readingStart _ _ => none
  | .readingEnd _ => none
  | .haltDie _ => none
  | .resumeDie _ => none
  | .dbgctl _ _ => none
  | .dbgstat _ _ => none
  | .trcctl _ _ => none
  | .slctl _ _ => none
  | .debugRegisterWrite _ _ _ => none
  | .debugPathAccess _ _ => none
  | .traceRecordWrite _ => none
  | .stateLogRecordWrite _ => none
  | .droopCapture _ _ => none
  | .droopHoldoffExpiry _ _ => none
  | .dieCacheTakesStore _ _ => none
  | .residencyRequestAtSlice _ _ _ => none

end Sys2Proof
end

