-- ==== Sys2Proof/Decode.lean ====
section
/-! DEFINITION. From words to instructions and bundles (R163 to R178) and back. `decodeBundle` is total: it answers a
bundle or the first trap of R167. -/

namespace Sys2Proof

/-- Field of `n` values starting at bit `lo` of a word. -/
def field (w lo n : Nat) [NeZero n] : Fin n := Fin.ofNat n (w / 2 ^ lo)
/-- One bit of a word. -/
def flag (w lo : Nat) : Bool := w / 2 ^ lo % 2 == 1
/-- A res0 field: `width` bits starting at bit `lo` are all zero. -/
def zeros (w lo width : Nat) : Bool := w / 2 ^ lo % 2 ^ width == 0
/-- The guard field, bits [23:20] (R164). -/
def guardOf (w : Nat) : Guard := ⟨flag w 23, field w 20 8⟩
/-- The major opcode, bits [29:24] (R164). -/
def opOf (w : Nat) : Nat := w / 2 ^ 24 % 64

/-- What a word with assigned OP and fn reads as, and whether the fields its map marks res0 are zero. -/
structure Reading where
  instr : Instr
  clear : Bool
  deriving DecidableEq, Repr

/-- C slot, OP 0x00. -/
def readC00 (w : Nat) : Option Reading :=
  match w % 32 with
  | 0 => some ⟨.add (guardOf w) (field w 15 32) (field w 10 32) (field w 5 32), true⟩
  | 1 => some ⟨.sub (guardOf w) (field w 15 32) (field w 10 32) (field w 5 32), true⟩
  | 2 => some ⟨.mul (guardOf w) (field w 15 32) (field w 10 32) (field w 5 32), true⟩
  | 3 => some ⟨.mulh (guardOf w) (field w 15 32) (field w 10 32) (field w 5 32), true⟩
  | 4 => some ⟨.mulhu (guardOf w) (field w 15 32) (field w 10 32) (field w 5 32), true⟩
  | 5 => some ⟨.div (guardOf w) (field w 15 32) (field w 10 32) (field w 5 32), true⟩
  | 6 => some ⟨.divu (guardOf w) (field w 15 32) (field w 10 32) (field w 5 32), true⟩
  | 7 => some ⟨.rem (guardOf w) (field w 15 32) (field w 10 32) (field w 5 32), true⟩
  | 8 => some ⟨.remu (guardOf w) (field w 15 32) (field w 10 32) (field w 5 32), true⟩
  | 9 => some ⟨.and (guardOf w) (field w 15 32) (field w 10 32) (field w 5 32), true⟩
  | 10 => some ⟨.or (guardOf w) (field w 15 32) (field w 10 32) (field w 5 32), true⟩
  | 11 => some ⟨.xor (guardOf w) (field w 15 32) (field w 10 32) (field w 5 32), true⟩
  | 12 => some ⟨.andn (guardOf w) (field w 15 32) (field w 10 32) (field w 5 32), true⟩
  | 13 => some ⟨.shl (guardOf w) (field w 15 32) (field w 10 32) (field w 5 32), true⟩
  | 14 => some ⟨.shr (guardOf w) (field w 15 32) (field w 10 32) (field w 5 32), true⟩
  | 15 => some ⟨.sra (guardOf w) (field w 15 32) (field w 10 32) (field w 5 32), true⟩
  | 16 => some ⟨.ror (guardOf w) (field w 15 32) (field w 10 32) (field w 5 32), true⟩
  | 17 => some ⟨.min (guardOf w) (field w 15 32) (field w 10 32) (field w 5 32), true⟩
  | 18 => some ⟨.max (guardOf w) (field w 15 32) (field w 10 32) (field w 5 32), true⟩
  | 19 => some ⟨.minu (guardOf w) (field w 15 32) (field w 10 32) (field w 5 32), true⟩
  | 20 => some ⟨.maxu (guardOf w) (field w 15 32) (field w 10 32) (field w 5 32), true⟩
  | _ => none

/-- C slot, OP 0x01. -/
def readC01 (w : Nat) : Option Reading :=
  match w % 4 with
  | 0 => some ⟨.addCw (guardOf w) (field w 15 32) (field w 10 32) (field w 2 256), true⟩
  | 1 => some ⟨.andCw (guardOf w) (field w 15 32) (field w 10 32) (field w 2 256), true⟩
  | 2 => some ⟨.orCw (guardOf w) (field w 15 32) (field w 10 32) (field w 2 256), true⟩
  | 3 => some ⟨.xorCw (guardOf w) (field w 15 32) (field w 10 32) (field w 2 256), true⟩
  | _ => none

/-- C slot, OP 0x02. -/
def readC02 (w : Nat) : Option Reading :=
  match w % 4 with
  | 0 => some ⟨.shlCw (guardOf w) (field w 15 32) (field w 10 32) (field w 2 256), true⟩
  | 1 => some ⟨.shrCw (guardOf w) (field w 15 32) (field w 10 32) (field w 2 256), true⟩
  | 2 => some ⟨.sraCw (guardOf w) (field w 15 32) (field w 10 32) (field w 2 256), true⟩
  | 3 => some ⟨.mulCw (guardOf w) (field w 15 32) (field w 10 32) (field w 2 256), true⟩
  | _ => none

/-- C slot, OP 0x03. -/
def readC03 (w : Nat) : Option Reading :=
  match w % 32 with
  | 0 => some ⟨.cmpeq (guardOf w) (field w 15 8) (field w 10 32) (field w 5 32), zeros w 18 2⟩
  | 1 => some ⟨.cmpne (guardOf w) (field w 15 8) (field w 10 32) (field w 5 32), zeros w 18 2⟩
  | 2 => some ⟨.cmplt (guardOf w) (field w 15 8) (field w 10 32) (field w 5 32), zeros w 18 2⟩
  | 3 => some ⟨.cmpge (guardOf w) (field w 15 8) (field w 10 32) (field w 5 32), zeros w 18 2⟩
  | 4 => some ⟨.cmpltu (guardOf w) (field w 15 8) (field w 10 32) (field w 5 32), zeros w 18 2⟩
  | 5 => some ⟨.cmpgeu (guardOf w) (field w 15 8) (field w 10 32) (field w 5 32), zeros w 18 2⟩
  | _ => none

/-- C slot, OP 0x04. -/
def readC04 (w : Nat) : Option Reading :=
  match w % 4 with
  | 0 => some ⟨.cmpeqCw (guardOf w) (field w 15 8) (field w 10 32) (field w 2 256), zeros w 18 2⟩
  | 1 => some ⟨.cmpneCw (guardOf w) (field w 15 8) (field w 10 32) (field w 2 256), zeros w 18 2⟩
  | 2 => some ⟨.cmpltCw (guardOf w) (field w 15 8) (field w 10 32) (field w 2 256), zeros w 18 2⟩
  | 3 => some ⟨.cmpltuCw (guardOf w) (field w 15 8) (field w 10 32) (field w 2 256), zeros w 18 2⟩
  | _ => none

/-- C slot, OP 0x05. -/
def readC05 (w : Nat) : Option Reading :=
  match w % 32 with
  | 0 => some ⟨.pand (guardOf w) (field w 15 8) (field w 10 8) (field w 5 8), zeros w 8 2 && zeros w 13 2 && zeros w 18 2⟩
  | 1 => some ⟨.por (guardOf w) (field w 15 8) (field w 10 8) (field w 5 8), zeros w 8 2 && zeros w 13 2 && zeros w 18 2⟩
  | 2 => some ⟨.pxor (guardOf w) (field w 15 8) (field w 10 8) (field w 5 8), zeros w 8 2 && zeros w 13 2 && zeros w 18 2⟩
  | 3 => some ⟨.pandn (guardOf w) (field w 15 8) (field w 10 8) (field w 5 8), zeros w 8 2 && zeros w 13 2 && zeros w 18 2⟩
  | 4 => some ⟨.pmovx (guardOf w) (field w 15 32) (field w 10 8), zeros w 5 5 && zeros w 13 2⟩
  | _ => none

/-- C slot, OP 0x06. -/
def readC06 (w : Nat) : Option Reading :=
  match w % 32 with
  | 0 => some ⟨.extu (guardOf w) (field w 15 32) (field w 10 32) (field w 5 32), true⟩
  | 1 => some ⟨.exts (guardOf w) (field w 15 32) (field w 10 32) (field w 5 32), true⟩
  | 2 => some ⟨.ins (guardOf w) (field w 15 32) (field w 10 32) (field w 5 32), true⟩
  | 3 => some ⟨.clz (guardOf w) (field w 15 32) (field w 10 32), zeros w 5 5⟩
  | 4 => some ⟨.ctz (guardOf w) (field w 15 32) (field w 10 32), zeros w 5 5⟩
  | 5 => some ⟨.popc (guardOf w) (field w 15 32) (field w 10 32), zeros w 5 5⟩
  | 6 => some ⟨.brev (guardOf w) (field w 15 32) (field w 10 32), zeros w 5 5⟩
  | 7 => some ⟨.bswap (guardOf w) (field w 15 32) (field w 10 32), zeros w 5 5⟩
  | _ => none

/-- C slot, OP 0x07. -/
def readC07 (w : Nat) : Option Reading :=
  match w % 4 with
  | 0 => some ⟨.extuCw (guardOf w) (field w 15 32) (field w 10 32) (field w 2 256), true⟩
  | 1 => some ⟨.extsCw (guardOf w) (field w 15 32) (field w 10 32) (field w 2 256), true⟩
  | 2 => some ⟨.insCw (guardOf w) (field w 15 32) (field w 10 32) (field w 2 256), true⟩
  | _ => none

/-- C slot, OP 0x08. -/
def readC08 (w : Nat) : Option Reading :=
  match w % 4 with
  | 0 => some ⟨.ldc (guardOf w) (field w 15 32) (field w 2 256), zeros w 10 5⟩
  | _ => none

/-- C slot, OP 0x09. -/
def readC09 (w : Nat) : Option Reading :=
  match w % 32 with
  | 0 => some ⟨.lea (guardOf w) (field w 15 32) (field w 10 32) (field w 5 32), true⟩
  | 1 => some ⟨.adda (guardOf w) (field w 15 32) (field w 10 32) (field w 5 32), true⟩
  | 2 => some ⟨.pfmt (guardOf w) (field w 15 32) (field w 10 32), zeros w 5 5⟩
  | 3 => some ⟨.sfmt (guardOf w) (field w 15 32) (field w 10 32) (field w 5 32), true⟩
  | _ => none

/-- C slot, OP 0x0A. -/
def readC0A (w : Nat) : Option Reading :=
  match w % 4 with
  | 0 => some ⟨.leaCw (guardOf w) (field w 15 32) (field w 10 32) (field w 2 256), true⟩
  | 1 => some ⟨.addaCw (guardOf w) (field w 15 32) (field w 10 32) (field w 2 256), true⟩
  | 3 => some ⟨.sfmtCw (guardOf w) (field w 15 32) (field w 10 32) (field w 2 256), true⟩
  | _ => none

/-- C slot, OP 0x10. -/
def readC10 (w : Nat) : Option Reading :=
  some ⟨.br (guardOf w) (BitVec.ofNat 20 w), true⟩

/-- C slot, OP 0x11. -/
def readC11 (w : Nat) : Option Reading :=
  some ⟨.call (guardOf w) (BitVec.ofNat 20 w), true⟩

/-- C slot, OP 0x12. -/
def readC12 (w : Nat) : Option Reading :=
  match w % 32 with
  | 0 => some ⟨.jr (guardOf w) (field w 10 32), zeros w 5 5 && zeros w 15 5⟩
  | 1 => some ⟨.ret (guardOf w), zeros w 5 15⟩
  | _ => none

/-- C slot, OP 0x13. -/
def readC13 (w : Nat) : Option Reading :=
  some ⟨.loop (guardOf w) (field w 19 2) (field w 14 32) (field w 0 16384), true⟩

/-- C slot, OP 0x14. -/
def readC14 (w : Nat) : Option Reading :=
  match w % 32 with
  | 0 => some ⟨.endTask (guardOf w), zeros w 5 15⟩
  | 1 => some ⟨.lbrk (guardOf w) (field w 10 2), zeros w 5 5 && zeros w 11 9⟩
  | _ => none

/-- C slot, OP 0x15. -/
def readC15 (w : Nat) : Option Reading :=
  match w % 32 with
  | 0 => some ⟨.vfromx (guardOf w) (field w 15 32) (field w 10 32) (field w 5 32), true⟩
  | 1 => some ⟨.vtox (guardOf w) (field w 15 32) (field w 10 32), zeros w 5 5⟩
  | 2 => some ⟨.vtoxh (guardOf w) (field w 15 32) (field w 10 32), zeros w 5 5⟩
  | 3 => some ⟨.vsplatx (guardOf w) (field w 15 32) (field w 10 32), zeros w 5 5⟩
  | _ => none

/-- C slot, OP 0x16. -/
def readC16 (w : Nat) : Option Reading :=
  match w % 32 with
  | 0 => some ⟨.ltld (guardOf w) (field w 10 32), zeros w 5 5 && zeros w 15 5⟩
  | _ => none

/-- C slot, OP 0x17. -/
def readC17 (w : Nat) : Option Reading :=
  match w % 32 with
  | 0 => some ⟨.sample (guardOf w) (field w 15 32) (field w 10 32) (field w 5 32), true⟩
  | 1 => some ⟨.topkm (guardOf w) (field w 15 32) (field w 10 32) (field w 5 32), true⟩
  | 2 => some ⟨.own (guardOf w) (field w 15 32) (field w 10 32) (field w 5 32), true⟩
  | _ => none

/-- C slot, OP 0x18. -/
def readC18 (w : Nat) : Option Reading :=
  match w / 2 ^ 2 % 2 with
  | 0 => some ⟨.ldN (guardOf w) (field w 15 32) (field w 10 32) (field w 5 32) (field w 3 4), zeros w 0 2⟩
  | 1 => some ⟨.ldI (guardOf w) (field w 15 32) (field w 10 32) (field w 5 32) (field w 3 4), zeros w 0 2⟩
  | _ => none

/-- C slot, OP 0x19. -/
def readC19 (w : Nat) : Option Reading :=
  some ⟨.ldCw (guardOf w) (field w 15 32) (field w 10 32) (field w 2 256) (field w 0 4), true⟩

/-- C slot, OP 0x1A. -/
def readC1A (w : Nat) : Option Reading :=
  some ⟨.st (guardOf w) (field w 15 32) (field w 10 32) (field w 5 32) (field w 3 4), zeros w 0 3⟩

/-- C slot, OP 0x1B. -/
def readC1B (w : Nat) : Option Reading :=
  some ⟨.stCw (guardOf w) (field w 15 32) (field w 10 32) (field w 2 256) (field w 0 4), true⟩

/-- C slot, OP 0x1C. -/
def readC1C (w : Nat) : Option Reading :=
  some ⟨.vld (guardOf w) (field w 15 32) (field w 10 32) (field w 5 32), zeros w 0 5⟩

/-- C slot, OP 0x1D. -/
def readC1D (w : Nat) : Option Reading :=
  some ⟨.vst (guardOf w) (field w 15 32) (field w 10 32) (field w 5 32), zeros w 0 5⟩

/-- C slot, OP 0x1E. -/
def readC1E (w : Nat) : Option Reading :=
  some ⟨.vldx (guardOf w) (field w 15 32) (field w 10 32) (field w 5 32) (field w 3 4), zeros w 0 3⟩

/-- C slot, OP 0x1F. -/
def readC1F (w : Nat) : Option Reading :=
  some ⟨.vstx (guardOf w) (field w 15 32) (field w 10 32) (field w 5 32) (field w 3 4), zeros w 0 3⟩

/-- C slot, OP 0x20. -/
def readC20 (w : Nat) : Option Reading :=
  if w / 2 % 2 == 0 then some ⟨.gld (guardOf w) (field w 15 32) (field w 10 32) (field w 7 8) (field w 3 4) (flag w 0), zeros w 2 1 && zeros w 5 2⟩ else none

/-- C slot, OP 0x21. -/
def readC21 (w : Nat) : Option Reading :=
  if w / 2 % 2 == 0 then some ⟨.gst (guardOf w) (field w 15 32) (field w 10 32) (field w 7 8) (field w 3 4) (flag w 2) (flag w 0), zeros w 5 2⟩ else none

/-- C slot, OP 0x22. -/
def readC22 (w : Nat) : Option Reading :=
  if w / 2 % 2 == 0 then some ⟨.gvld (guardOf w) (field w 15 32) (field w 10 32) (field w 7 8) (flag w 0), zeros w 2 5⟩ else none

/-- C slot, OP 0x23. -/
def readC23 (w : Nat) : Option Reading :=
  if w / 2 % 2 == 0 then some ⟨.gvst (guardOf w) (field w 15 32) (field w 10 32) (field w 7 8) (flag w 2) (flag w 0), zeros w 3 4⟩ else none

/-- C slot, OP 0x24. -/
def readC24 (w : Nat) : Option Reading :=
  match w % 4 with
  | 0 => some ⟨.gpfDc (guardOf w) (field w 10 32) (field w 5 32), zeros w 2 3 && zeros w 15 5⟩
  | 1 => some ⟨.gpfLlc (guardOf w) (field w 10 32) (field w 5 32), zeros w 2 3 && zeros w 15 5⟩
  | _ => none

/-- C slot, OP 0x25. -/
def readC25 (w : Nat) : Option Reading :=
  some ⟨.aadd (guardOf w) (field w 15 32) (field w 10 32) (field w 5 32) (flag w 4) (flag w 2), zeros w 0 2 && zeros w 3 1⟩

/-- C slot, OP 0x26. -/
def readC26 (w : Nat) : Option Reading :=
  some ⟨.aand (guardOf w) (field w 15 32) (field w 10 32) (field w 5 32) (flag w 4) (flag w 2), zeros w 0 2 && zeros w 3 1⟩

/-- C slot, OP 0x27. -/
def readC27 (w : Nat) : Option Reading :=
  some ⟨.aor (guardOf w) (field w 15 32) (field w 10 32) (field w 5 32) (flag w 4) (flag w 2), zeros w 0 2 && zeros w 3 1⟩

/-- C slot, OP 0x28. -/
def readC28 (w : Nat) : Option Reading :=
  some ⟨.axor (guardOf w) (field w 15 32) (field w 10 32) (field w 5 32) (flag w 4) (flag w 2), zeros w 0 2 && zeros w 3 1⟩

/-- C slot, OP 0x29. -/
def readC29 (w : Nat) : Option Reading :=
  some ⟨.amin (guardOf w) (field w 15 32) (field w 10 32) (field w 5 32) (flag w 4) (flag w 3) (flag w 2), zeros w 0 2⟩

/-- C slot, OP 0x2A. -/
def readC2A (w : Nat) : Option Reading :=
  some ⟨.amax (guardOf w) (field w 15 32) (field w 10 32) (field w 5 32) (flag w 4) (flag w 3) (flag w 2), zeros w 0 2⟩

/-- C slot, OP 0x2B. -/
def readC2B (w : Nat) : Option Reading :=
  some ⟨.aswp (guardOf w) (field w 15 32) (field w 10 32) (field w 5 32) (flag w 4) (flag w 2), zeros w 0 2 && zeros w 3 1⟩

/-- C slot, OP 0x2C. -/
def readC2C (w : Nat) : Option Reading :=
  some ⟨.acas (guardOf w) (field w 15 32) (field w 10 32) (field w 5 32) (flag w 4) (flag w 2), zeros w 0 2 && zeros w 3 1⟩

/-- C slot, OP 0x2D. -/
def readC2D (w : Nat) : Option Reading :=
  some ⟨.afadd (guardOf w) (field w 15 32) (field w 10 32) (field w 5 32) (flag w 4), zeros w 0 4⟩

/-- C slot, OP 0x2E. -/
def readC2E (w : Nat) : Option Reading :=
  some ⟨.vaor (guardOf w) (field w 15 32) (field w 10 32) (field w 5 32) (flag w 4), zeros w 0 4⟩

/-- C slot, OP 0x30. -/
def readC30 (w : Nat) : Option Reading :=
  match w % 4 with
  | 1 => some ⟨.fenceAcq (guardOf w) (field w 2 8), zeros w 5 15⟩
  | 2 => some ⟨.fenceRel (guardOf w) (field w 2 8), zeros w 5 15⟩
  | 3 => some ⟨.fenceFull (guardOf w) (field w 2 8), zeros w 5 15⟩
  | _ => none

/-- C slot, OP 0x31. -/
def readC31 (w : Nat) : Option Reading :=
  match w % 32 with
  | 0 => some ⟨.tset (guardOf w) (field w 10 32) (field w 5 32), zeros w 15 5⟩
  | 1 => some ⟨.tgen (guardOf w) (field w 15 32) (field w 10 32), zeros w 5 5⟩
  | _ => none

/-- C slot, OP 0x32. -/
def readC32 (w : Nat) : Option Reading :=
  match w % 32 with
  | 0 => some ⟨.bara (guardOf w) (field w 10 8), zeros w 5 5 && zeros w 13 7⟩
  | 1 => some ⟨.bard (guardOf w) (field w 10 8), zeros w 5 5 && zeros w 13 7⟩
  | 2 => some ⟨.barq (guardOf w) (field w 15 32) (field w 10 8), zeros w 5 5 && zeros w 13 2⟩
  | _ => none

/-- C slot, OP 0x33. -/
def readC33 (w : Nat) : Option Reading :=
  match w % 32 with
  | 0 => some ⟨.rdef (guardOf w) (field w 15 16) (field w 10 32), zeros w 5 5 && zeros w 19 1⟩
  | 1 => some ⟨.radvHd (guardOf w) (field w 15 16) (field w 10 32), zeros w 5 5 && zeros w 19 1⟩
  | 2 => some ⟨.radvTl (guardOf w) (field w 15 16) (field w 10 32), zeros w 5 5 && zeros w 19 1⟩
  | 3 => some ⟨.rqry (guardOf w) (field w 15 32) (field w 10 16), zeros w 5 5 && zeros w 14 1⟩
  | 4 => if w / 2 ^ 17 % 8 == 7 then some ⟨.bind (guardOf w) (field w 15 4) (field w 10 16), zeros w 5 5 && zeros w 14 1⟩ else none
  | 5 => if w / 2 ^ 17 % 8 == 7 then some ⟨.unbind (guardOf w) (field w 15 4), zeros w 5 10⟩ else none
  | _ => none

/-- C slot, OP 0x34. -/
def readC34 (w : Nat) : Option Reading :=
  match w % 32 with
  | 0 => some ⟨.hpin (guardOf w) (field w 15 32) (field w 10 32), zeros w 5 5⟩
  | 1 => some ⟨.hdem (guardOf w) (field w 10 32) (field w 5 32), zeros w 15 5⟩
  | 2 => some ⟨.hevt (guardOf w) (field w 10 32), zeros w 5 5 && zeros w 15 5⟩
  | _ => none

/-- C slot, OP 0x38. -/
def readC38 (w : Nat) : Option Reading :=
  match w % 32 with
  | 0 => some ⟨.send (guardOf w) (field w 10 32) (field w 5 32), zeros w 15 5⟩
  | 1 => some ⟨.sendv (guardOf w) (field w 10 32) (field w 5 32), zeros w 15 5⟩
  | 2 => some ⟨.reply (guardOf w) (field w 10 32) (field w 5 32), zeros w 15 5⟩
  | 3 => some ⟨.dec (guardOf w) (field w 10 32) (field w 5 32), zeros w 15 5⟩
  | 4 => some ⟨.msgrd (guardOf w) (field w 15 32) (field w 5 32), zeros w 10 5⟩
  | _ => none

/-- C slot, OP 0x39. -/
def readC39 (w : Nat) : Option Reading :=
  match w % 2 with
  | 0 => some ⟨.spawn (guardOf w) (field w 15 8) (field w 10 32) (field w 5 32) (field w 1 16), zeros w 18 2⟩
  | _ => none

/-- C slot, OP 0x3A. -/
def readC3A (w : Nat) : Option Reading :=
  match w % 32 with
  | 0 => some ⟨.cpy (guardOf w) (field w 15 32) (field w 10 32) (field w 5 32), true⟩
  | 1 => some ⟨.cpys (guardOf w) (field w 15 32) (field w 10 32) (field w 5 32), true⟩
  | 2 => some ⟨.efq (guardOf w) (field w 15 32) (field w 10 32) (field w 5 32), true⟩
  | 3 => some ⟨.coll (guardOf w) (field w 15 32) (field w 10 32) (field w 5 32), true⟩
  | 4 => some ⟨.gmask (guardOf w) (field w 15 32) (field w 10 32) (field w 5 32), true⟩
  | 5 => some ⟨.gstep (guardOf w) (field w 15 32) (field w 10 32) (field w 5 32), true⟩
  | _ => none

/-- C slot, OP 0x3C. -/
def readC3C (w : Nat) : Option Reading :=
  match w % 32 with
  | 0 => some ⟨.csrr (guardOf w) (field w 15 32) (field w 5 1024), true⟩
  | 1 => some ⟨.csrw (guardOf w) (field w 15 32) (field w 5 1024), true⟩
  | _ => none

/-- C slot, OP 0x3D. -/
def readC3D (w : Nat) : Option Reading :=
  match w % 32 with
  | 0 => some ⟨.trap (guardOf w) (field w 10 32), zeros w 5 5 && zeros w 15 5⟩
  | 1 => some ⟨.hbt (guardOf w), zeros w 5 15⟩
  | 2 => some ⟨.brk (guardOf w), zeros w 5 15⟩
  | 3 => some ⟨.trc (guardOf w) (field w 10 32), zeros w 5 5 && zeros w 15 5⟩
  | _ => none

/-- C slot, OP 0x3E. -/
def readC3E (w : Nat) : Option Reading :=
  match w % 32 with
  | 0 => some ⟨.cdo (guardOf w) (field w 10 32), zeros w 5 5 && zeros w 15 5⟩
  | 1 => some ⟨.cdc (guardOf w) (field w 10 32), zeros w 5 5 && zeros w 15 5⟩
  | 2 => some ⟨.cdp (guardOf w) (field w 10 32) (field w 5 32), zeros w 15 5⟩
  | _ => none

/-- The C slot's opcode map (R175). -/
def readC (w : Nat) : Option Reading :=
  match opOf w with
  | 0x00 => readC00 w
  | 0x01 => readC01 w
  | 0x02 => readC02 w
  | 0x03 => readC03 w
  | 0x04 => readC04 w
  | 0x05 => readC05 w
  | 0x06 => readC06 w
  | 0x07 => readC07 w
  | 0x08 => readC08 w
  | 0x09 => readC09 w
  | 0x0A => readC0A w
  | 0x10 => readC10 w
  | 0x11 => readC11 w
  | 0x12 => readC12 w
  | 0x13 => readC13 w
  | 0x14 => readC14 w
  | 0x15 => readC15 w
  | 0x16 => readC16 w
  | 0x17 => readC17 w
  | 0x18 => readC18 w
  | 0x19 => readC19 w
  | 0x1A => readC1A w
  | 0x1B => readC1B w
  | 0x1C => readC1C w
  | 0x1D => readC1D w
  | 0x1E => readC1E w
  | 0x1F => readC1F w
  | 0x20 => readC20 w
  | 0x21 => readC21 w
  | 0x22 => readC22 w
  | 0x23 => readC23 w
  | 0x24 => readC24 w
  | 0x25 => readC25 w
  | 0x26 => readC26 w
  | 0x27 => readC27 w
  | 0x28 => readC28 w
  | 0x29 => readC29 w
  | 0x2A => readC2A w
  | 0x2B => readC2B w
  | 0x2C => readC2C w
  | 0x2D => readC2D w
  | 0x2E => readC2E w
  | 0x30 => readC30 w
  | 0x31 => readC31 w
  | 0x32 => readC32 w
  | 0x33 => readC33 w
  | 0x34 => readC34 w
  | 0x38 => readC38 w
  | 0x39 => readC39 w
  | 0x3A => readC3A w
  | 0x3C => readC3C w
  | 0x3D => readC3D w
  | 0x3E => readC3E w
  | _ => none

/-- X slot, OP 0x00. -/
def readX00 (w : Nat) : Option Reading :=
  some ⟨.vadd (guardOf w) (field w 15 32) (field w 10 32) (field w 5 32) (flag w 4) (field w 0 16), true⟩

/-- X slot, OP 0x01. -/
def readX01 (w : Nat) : Option Reading :=
  some ⟨.vsub (guardOf w) (field w 15 32) (field w 10 32) (field w 5 32) (flag w 4) (field w 0 16), true⟩

/-- X slot, OP 0x02. -/
def readX02 (w : Nat) : Option Reading :=
  match w / 2 ^ 4 % 2 with
  | 0 => some ⟨.vmul (guardOf w) (field w 15 32) (field w 10 32) (field w 5 32) (field w 0 16), true⟩
  | _ => none

/-- X slot, OP 0x03. -/
def readX03 (w : Nat) : Option Reading :=
  match w / 2 ^ 4 % 2 with
  | 0 => some ⟨.vfma (guardOf w) (field w 15 32) (field w 10 32) (field w 5 32) (field w 0 16), true⟩
  | _ => none

/-- X slot, OP 0x04. -/
def readX04 (w : Nat) : Option Reading :=
  match w / 2 ^ 4 % 2 with
  | 0 => some ⟨.vmin (guardOf w) (field w 15 32) (field w 10 32) (field w 5 32) (field w 0 16), true⟩
  | _ => none

/-- X slot, OP 0x05. -/
def readX05 (w : Nat) : Option Reading :=
  match w / 2 ^ 4 % 2 with
  | 0 => some ⟨.vmax (guardOf w) (field w 15 32) (field w 10 32) (field w 5 32) (field w 0 16), true⟩
  | _ => none

/-- X slot, OP 0x06. -/
def readX06 (w : Nat) : Option Reading :=
  match w % 32 with
  | 0 => some ⟨.vand (guardOf w) (field w 15 32) (field w 10 32) (field w 5 32), true⟩
  | 1 => some ⟨.vor (guardOf w) (field w 15 32) (field w 10 32) (field w 5 32), true⟩
  | 2 => some ⟨.vxor (guardOf w) (field w 15 32) (field w 10 32) (field w 5 32), true⟩
  | 3 => some ⟨.vandn (guardOf w) (field w 15 32) (field w 10 32) (field w 5 32), true⟩
  | _ => none

/-- X slot, OP 0x07. -/
def readX07 (w : Nat) : Option Reading :=
  match w / 2 ^ 4 % 2 with
  | 0 => some ⟨.vshl (guardOf w) (field w 15 32) (field w 10 32) (field w 5 32) (field w 0 16), true⟩
  | _ => none

/-- X slot, OP 0x08. -/
def readX08 (w : Nat) : Option Reading :=
  match w / 2 ^ 4 % 2 with
  | 0 => some ⟨.vshr (guardOf w) (field w 15 32) (field w 10 32) (field w 5 32) (field w 0 16), true⟩
  | _ => none

/-- X slot, OP 0x09. -/
def readX09 (w : Nat) : Option Reading :=
  match w / 2 ^ 4 % 2 with
  | 0 => some ⟨.vceq (guardOf w) (field w 15 32) (field w 10 32) (field w 5 32) (field w 0 16), true⟩
  | _ => none

/-- X slot, OP 0x0A. -/
def readX0A (w : Nat) : Option Reading :=
  match w / 2 ^ 4 % 2 with
  | 0 => some ⟨.vclt (guardOf w) (field w 15 32) (field w 10 32) (field w 5 32) (field w 0 16), true⟩
  | _ => none

/-- X slot, OP 0x0B. -/
def readX0B (w : Nat) : Option Reading :=
  match w / 2 ^ 4 % 2 with
  | 0 => some ⟨.vcle (guardOf w) (field w 15 32) (field w 10 32) (field w 5 32) (field w 0 16), true⟩
  | _ => none

/-- X slot, OP 0x0C. -/
def readX0C (w : Nat) : Option Reading :=
  match w % 32 with
  | 0 => some ⟨.vsel (guardOf w) (field w 15 32) (field w 10 32) (field w 5 32), true⟩
  | _ => none

/-- X slot, OP 0x0D. -/
def readX0D (w : Nat) : Option Reading :=
  match w / 2 ^ 4 % 2 with
  | 0 => some ⟨.vabs (guardOf w) (field w 15 32) (field w 10 32) (field w 0 16), zeros w 5 5⟩
  | 1 => some ⟨.vneg (guardOf w) (field w 15 32) (field w 10 32) (field w 0 16), zeros w 5 5⟩
  | _ => none

/-- X slot, OP 0x0E. -/
def readX0E (w : Nat) : Option Reading :=
  match w / 2 ^ 4 % 2 with
  | 0 => some ⟨.vdot (guardOf w) (field w 15 32) (field w 10 32) (field w 5 32) (field w 0 16), true⟩
  | _ => none

/-- X slot, OP 0x10. -/
def readX10 (w : Nat) : Option Reading :=
  match w % 32 with
  | 0 => some ⟨.vperm (guardOf w) (field w 15 32) (field w 10 32) (field w 5 32), true⟩
  | _ => none

/-- X slot, OP 0x11. -/
def readX11 (w : Nat) : Option Reading :=
  if flag w 4 then none else
  match w % 4 with
  | 0 => some ⟨.vzipl (guardOf w) (field w 15 32) (field w 10 32) (field w 5 32) (field w 2 4), true⟩
  | 1 => some ⟨.vziph (guardOf w) (field w 15 32) (field w 10 32) (field w 5 32) (field w 2 4), true⟩
  | 2 => some ⟨.vuzpe (guardOf w) (field w 15 32) (field w 10 32) (field w 5 32) (field w 2 4), true⟩
  | 3 => some ⟨.vuzpo (guardOf w) (field w 15 32) (field w 10 32) (field w 5 32) (field w 2 4), true⟩
  | _ => none

/-- X slot, OP 0x12. -/
def readX12 (w : Nat) : Option Reading :=
  match w / 2 ^ 4 % 2 with
  | 0 => some ⟨.vredadd (guardOf w) (field w 15 32) (field w 10 32) (field w 0 16), zeros w 5 5⟩
  | _ => none

/-- X slot, OP 0x13. -/
def readX13 (w : Nat) : Option Reading :=
  match w / 2 ^ 4 % 2 with
  | 0 => some ⟨.vredmax (guardOf w) (field w 15 32) (field w 10 32) (field w 0 16), zeros w 5 5⟩
  | _ => none

/-- X slot, OP 0x14. -/
def readX14 (w : Nat) : Option Reading :=
  match w / 2 ^ 4 % 2 with
  | 0 => some ⟨.vredmin (guardOf w) (field w 15 32) (field w 10 32) (field w 0 16), zeros w 5 5⟩
  | _ => none

/-- X slot, OP 0x15. -/
def readX15 (w : Nat) : Option Reading :=
  some ⟨.vaddCw (guardOf w) (field w 15 32) (field w 10 32) (field w 2 256) (field w 0 4), true⟩

/-- X slot, OP 0x16. -/
def readX16 (w : Nat) : Option Reading :=
  some ⟨.vmulCw (guardOf w) (field w 15 32) (field w 10 32) (field w 2 256) (field w 0 4), true⟩

/-- X slot, OP 0x17. -/
def readX17 (w : Nat) : Option Reading :=
  some ⟨.vfmaCw (guardOf w) (field w 15 32) (field w 10 32) (field w 2 256) (field w 0 4), true⟩

/-- X slot, OP 0x18. -/
def readX18 (w : Nat) : Option Reading :=
  some ⟨.vcvtRne (guardOf w) (field w 15 32) (field w 10 32) (field w 5 16) (flag w 4) (field w 0 16), zeros w 9 1⟩

/-- X slot, OP 0x19. -/
def readX19 (w : Nat) : Option Reading :=
  some ⟨.vcvtRtz (guardOf w) (field w 15 32) (field w 10 32) (field w 5 16) (flag w 4) (field w 0 16), zeros w 9 1⟩

/-- X slot, OP 0x1A. -/
def readX1A (w : Nat) : Option Reading :=
  some ⟨.vcvtRmi (guardOf w) (field w 15 32) (field w 10 32) (field w 5 16) (flag w 4) (field w 0 16), zeros w 9 1⟩

/-- X slot, OP 0x1B. -/
def readX1B (w : Nat) : Option Reading :=
  some ⟨.vcvtRpi (guardOf w) (field w 15 32) (field w 10 32) (field w 5 16) (flag w 4) (field w 0 16), zeros w 9 1⟩

/-- X slot, OP 0x1C. -/
def readX1C (w : Nat) : Option Reading :=
  some ⟨.qnt (guardOf w) (field w 15 32) (field w 10 32) (field w 5 32) (field w 0 32), true⟩

/-- X slot, OP 0x1D. -/
def readX1D (w : Nat) : Option Reading :=
  some ⟨.qntNs (guardOf w) (field w 15 32) (field w 10 32) (field w 5 32) (field w 0 32), true⟩

/-- X slot, OP 0x1E. -/
def readX1E (w : Nat) : Option Reading :=
  some ⟨.dqn (guardOf w) (field w 15 32) (field w 10 32) (field w 5 32) (field w 0 32), true⟩

/-- X slot, OP 0x1F. -/
def readX1F (w : Nat) : Option Reading :=
  match w / 2 ^ 1 % 16 with
  | 0 => some ⟨.ltd (guardOf w) (field w 15 32) (field w 10 32) (flag w 0), zeros w 5 5⟩
  | _ => none

/-- X slot, OP 0x20. -/
def readX20 (w : Nat) : Option Reading :=
  match w / 2 ^ 1 % 16 with
  | 0 => some ⟨.lte (guardOf w) (field w 15 32) (field w 10 32) (flag w 0), zeros w 5 5⟩
  | _ => none

/-- X slot, OP 0x22. -/
def readX22 (w : Nat) : Option Reading :=
  match w / 2 ^ 1 % 2 with
  | 0 => some ⟨.had (guardOf w) (field w 15 32) (field w 10 32) (field w 5 32) (flag w 0), zeros w 2 3⟩
  | 1 => some ⟨.hadInv (guardOf w) (field w 15 32) (field w 10 32) (field w 5 32) (flag w 0), zeros w 2 3⟩
  | _ => none

/-- X slot, OP 0x23. -/
def readX23 (w : Nat) : Option Reading :=
  match w % 32 with
  | 0 => some ⟨.rngCore (guardOf w) (field w 15 32) (field w 10 32), zeros w 5 5⟩
  | 1 => some ⟨.rngIdx (guardOf w) (field w 15 32) (field w 10 32), zeros w 5 5⟩
  | _ => none

/-- X slot, OP 0x24. -/
def readX24 (w : Nat) : Option Reading :=
  some ⟨.srnd (guardOf w) (field w 15 32) (field w 10 32) (field w 5 32) (field w 0 32), true⟩

/-- X slot, OP 0x28. -/
def readX28 (w : Nat) : Option Reading :=
  match w % 32 with
  | 10 => some ⟨.exp2 (guardOf w) (field w 15 32) (field w 10 32), zeros w 5 5⟩
  | _ => none

/-- X slot, OP 0x29. -/
def readX29 (w : Nat) : Option Reading :=
  match w % 32 with
  | 10 => some ⟨.log2 (guardOf w) (field w 15 32) (field w 10 32), zeros w 5 5⟩
  | _ => none

/-- X slot, OP 0x2A. -/
def readX2A (w : Nat) : Option Reading :=
  match w % 32 with
  | 10 => some ⟨.rcp (guardOf w) (field w 15 32) (field w 10 32), zeros w 5 5⟩
  | _ => none

/-- X slot, OP 0x2B. -/
def readX2B (w : Nat) : Option Reading :=
  match w % 32 with
  | 10 => some ⟨.rsq (guardOf w) (field w 15 32) (field w 10 32), zeros w 5 5⟩
  | _ => none

/-- X slot, OP 0x2C. -/
def readX2C (w : Nat) : Option Reading :=
  match w % 32 with
  | 10 => some ⟨.sqrt (guardOf w) (field w 15 32) (field w 10 32), zeros w 5 5⟩
  | _ => none

/-- X slot, OP 0x2D. -/
def readX2D (w : Nat) : Option Reading :=
  match w % 32 with
  | 10 => some ⟨.tanh (guardOf w) (field w 15 32) (field w 10 32), zeros w 5 5⟩
  | _ => none

/-- X slot, OP 0x30. -/
def readX30 (w : Nat) : Option Reading :=
  match w % 32 with
  | 10 => some ⟨.msmrg (guardOf w) (field w 15 32) (field w 10 32), zeros w 5 5⟩
  | _ => none

/-- X slot, OP 0x38. -/
def readX38 (w : Nat) : Option Reading :=
  some ⟨.mma (guardOf w) (field w 16 16) (field w 12 16) (field w 6 64) (flag w 0), zeros w 1 5⟩

/-- X slot, OP 0x39. -/
def readX39 (w : Nat) : Option Reading :=
  some ⟨.mmas (guardOf w) (field w 16 16) (field w 12 16) (field w 6 64) (flag w 0), zeros w 1 5⟩

/-- X slot, OP 0x3A. -/
def readX3A (w : Nat) : Option Reading :=
  some ⟨.mmat (guardOf w) (field w 16 16) (field w 12 16) (field w 6 64) (flag w 0), zeros w 1 5⟩

/-- X slot, OP 0x3C. -/
def readX3C (w : Nat) : Option Reading :=
  match w % 16 with
  | 0 => some ⟨.czero (guardOf w) (field w 14 64), zeros w 4 10⟩
  | 1 => some ⟨.cscl (guardOf w) (field w 14 64) (field w 8 32), zeros w 4 4 && zeros w 13 1⟩
  | 2 => some ⟨.ccvt (guardOf w) (field w 14 64) (field w 4 16), zeros w 8 6⟩
  | 3 => some ⟨.cadd (guardOf w) (field w 14 64) (field w 8 64), zeros w 4 4⟩
  | _ => none

/-- X slot, OP 0x3D. -/
def readX3D (w : Nat) : Option Reading :=
  match w % 32 with
  | 0 => some ⟨.mdrain (guardOf w), zeros w 5 15⟩
  | 1 => some ⟨.mqry (guardOf w) (field w 15 32), zeros w 5 10⟩
  | 2 => some ⟨.mxcfg (guardOf w) (field w 10 32), zeros w 5 5 && zeros w 15 5⟩
  | _ => none

/-- The X slot's opcode map (R177). -/
def readX (w : Nat) : Option Reading :=
  match opOf w with
  | 0x00 => readX00 w
  | 0x01 => readX01 w
  | 0x02 => readX02 w
  | 0x03 => readX03 w
  | 0x04 => readX04 w
  | 0x05 => readX05 w
  | 0x06 => readX06 w
  | 0x07 => readX07 w
  | 0x08 => readX08 w
  | 0x09 => readX09 w
  | 0x0A => readX0A w
  | 0x0B => readX0B w
  | 0x0C => readX0C w
  | 0x0D => readX0D w
  | 0x0E => readX0E w
  | 0x10 => readX10 w
  | 0x11 => readX11 w
  | 0x12 => readX12 w
  | 0x13 => readX13 w
  | 0x14 => readX14 w
  | 0x15 => readX15 w
  | 0x16 => readX16 w
  | 0x17 => readX17 w
  | 0x18 => readX18 w
  | 0x19 => readX19 w
  | 0x1A => readX1A w
  | 0x1B => readX1B w
  | 0x1C => readX1C w
  | 0x1D => readX1D w
  | 0x1E => readX1E w
  | 0x1F => readX1F w
  | 0x20 => readX20 w
  | 0x22 => readX22 w
  | 0x23 => readX23 w
  | 0x24 => readX24 w
  | 0x28 => readX28 w
  | 0x29 => readX29 w
  | 0x2A => readX2A w
  | 0x2B => readX2B w
  | 0x2C => readX2C w
  | 0x2D => readX2D w
  | 0x30 => readX30 w
  | 0x38 => readX38 w
  | 0x39 => readX39 w
  | 0x3A => readX3A w
  | 0x3C => readX3C w
  | 0x3D => readX3D w
  | _ => none

/-- The word of a slot, read under that slot's map. -/
def readSlot (sl : Slot) (w : Nat) : Option Reading :=
  match sl with
  | .c => readC w
  | .x => readX w

/-- The reading of a word whose OP, fn and every other field are assigned (R165, R167); none for any other word. -/
def readAssigned (sl : Slot) (w : Nat) : Option Reading :=
  match readSlot sl w with
  | some r => if r.instr.fieldsAssigned then some r else none
  | none => none

/-- Why a word or bundle is refused (R167). -/
inductive DecodeError
  /-- ILLEGAL_BUNDLE of R163 or R165. -/
  | illegalBundle
  /-- ILLEGAL_OPCODE of R175 and R177. -/
  | illegalOpcode
  /-- RES_FIELD of R5. -/
  | resField
  deriving DecidableEq, Repr

/-- Decode one instruction word, its SL bits aside (R167, checks 3 and 4 of one slot). -/
def decodeSlot (sl : Slot) (w : Nat) : Except DecodeError Instr :=
  match readAssigned sl w with
  | none => .error .illegalOpcode
  | some r => if r.clear && r.instr.fieldsReserved then .ok r.instr else .error .resField

/-- A register a bundle can name (R165, R225). -/
inductive RegName
  | x (n : Fin 32)
  | v (n : Fin 32)
  | k (n : Fin 8)
  | loops (set : Fin 2)
  deriving DecidableEq, Repr

/-- The registers of a HAD group that starts at `r` (R177). -/
def hadGroup (n32 : Bool) (r : Fin 32) : List RegName :=
  (List.range (hadRegs n32)).map fun j => .v (r + Fin.ofNat 32 j)

/-- The registers an instruction's fields name as destinations (R165). -/
def Instr.dests : Instr → List RegName
  | .add _ d _ _ => [.x d]
  | .sub _ d _ _ => [.x d]
  | .mul _ d _ _ => [.x d]
  | .mulh _ d _ _ => [.x d]
  | .mulhu _ d _ _ => [.x d]
  | .div _ d _ _ => [.x d]
  | .divu _ d _ _ => [.x d]
  | .rem _ d _ _ => [.x d]
  | .remu _ d _ _ => [.x d]
  | .and _ d _ _ => [.x d]
  | .or _ d _ _ => [.x d]
  | .xor _ d _ _ => [.x d]
  | .andn _ d _ _ => [.x d]
  | .shl _ d _ _ => [.x d]
  | .shr _ d _ _ => [.x d]
  | .sra _ d _ _ => [.x d]
  | .ror _ d _ _ => [.x d]
  | .min _ d _ _ => [.x d]
  | .max _ d _ _ => [.x d]
  | .minu _ d _ _ => [.x d]
  | .maxu _ d _ _ => [.x d]
  | .addCw _ d _ _ => [.x d]
  | .andCw _ d _ _ => [.x d]
  | .orCw _ d _ _ => [.x d]
  | .xorCw _ d _ _ => [.x d]
  | .shlCw _ d _ _ => [.x d]
  | .shrCw _ d _ _ => [.x d]
  | .sraCw _ d _ _ => [.x d]
  | .mulCw _ d _ _ => [.x d]
  | .cmpeq _ d _ _ => [.k d]
  | .cmpne _ d _ _ => [.k d]
  | .cmplt _ d _ _ => [.k d]
  | .cmpge _ d _ _ => [.k d]
  | .cmpltu _ d _ _ => [.k d]
  | .cmpgeu _ d _ _ => [.k d]
  | .cmpeqCw _ d _ _ => [.k d]
  | .cmpneCw _ d _ _ => [.k d]
  | .cmpltCw _ d _ _ => [.k d]
  | .cmpltuCw _ d _ _ => [.k d]
  | .pand _ d _ _ => [.k d]
  | .por _ d _ _ => [.k d]
  | .pxor _ d _ _ => [.k d]
  | .pandn _ d _ _ => [.k d]
  | .pmovx _ d _ => [.x d]
  | .extu _ d _ _ => [.x d]
  | .exts _ d _ _ => [.x d]
  | .ins _ d _ _ => [.x d]
  | .clz _ d _ => [.x d]
  | .ctz _ d _ => [.x d]
  | .popc _ d _ => [.x d]
  | .brev _ d _ => [.x d]
  | .bswap _ d _ => [.x d]
  | .extuCw _ d _ _ => [.x d]
  | .extsCw _ d _ _ => [.x d]
  | .insCw _ d _ _ => [.x d]
  | .ldc _ d _ => [.x d]
  | .lea _ d _ _ => [.x d]
  | .adda _ d _ _ => [.x d]
  | .pfmt _ d _ => [.x d]
  | .sfmt _ d _ _ => [.x d]
  | .leaCw _ d _ _ => [.x d]
  | .addaCw _ d _ _ => [.x d]
  | .sfmtCw _ d _ _ => [.x d]
  | .br _ _ => []
  | .call _ _ => [.x 31]
  | .jr _ _ => []
  | .ret _ => []
  | .loop _ set _ _ => [.loops set]
  | .endTask _ => []
  | .lbrk _ _ => []
  | .vfromx _ d _ _ => [.v d]
  | .vtox _ d _ => [.x d]
  | .vtoxh _ d _ => [.x d]
  | .vsplatx _ d _ => [.v d]
  | .ltld _ _ => []
  | .sample _ d _ _ => [.x d]
  | .topkm _ d _ _ => [.x d]
  | .own _ d _ _ => [.x d]
  | .ldN _ d _ _ _ => [.x d]
  | .ldI _ d _ _ _ => [.x d]
  | .ldCw _ d _ _ _ => [.x d]
  | .st _ _ _ _ _ => []
  | .stCw _ _ _ _ _ => []
  | .vld _ d _ _ => [.v d]
  | .vst _ _ _ _ => []
  | .vldx _ d _ _ _ => [.v d]
  | .vstx _ _ _ _ _ => []
  | .gld _ d _ _ _ _ => [.x d]
  | .gst _ _ _ _ _ _ _ => []
  | .gvld _ d _ _ _ => [.v d]
  | .gvst _ _ _ _ _ _ => []
  | .gpfDc _ _ _ => []
  | .gpfLlc _ _ _ => []
  | .aadd _ d _ _ _ _ => [.x d]
  | .aand _ d _ _ _ _ => [.x d]
  | .aor _ d _ _ _ _ => [.x d]
  | .axor _ d _ _ _ _ => [.x d]
  | .amin _ d _ _ _ _ _ => [.x d]
  | .amax _ d _ _ _ _ _ => [.x d]
  | .aswp _ d _ _ _ _ => [.x d]
  | .acas _ d _ _ _ _ => [.x d]
  | .afadd _ d _ _ _ => [.x d]
  | .vaor _ d _ _ _ => [.v d]
  | .fenceAcq _ _ => []
  | .fenceRel _ _ => []
  | .fenceFull _ _ => []
  | .tset _ _ _ => []
  | .tgen _ d _ => [.x d]
  | .bara _ _ => []
  | .bard _ _ => []
  | .barq _ d _ => [.x d]
  | .rdef _ _ _ => []
  | .radvHd _ _ _ => []
  | .radvTl _ _ _ => []
  | .rqry _ d _ => [.x d]
  | .bind _ w _ => [.v (Word.windowReg w)]
  | .unbind _ w => [.v (Word.windowReg w)]
  | .hpin _ d _ => [.x d]
  | .hdem _ _ _ => []
  | .hevt _ _ => []
  | .send _ _ _ => []
  | .sendv _ _ _ => []
  | .reply _ _ _ => []
  | .dec _ _ _ => []
  | .msgrd _ d _ => [.x d]
  | .spawn _ k _ _ _ => [.k k]
  | .cpy _ d _ _ => [.x d]
  | .cpys _ d _ _ => [.x d]
  | .efq _ d _ _ => [.x d]
  | .coll _ d _ _ => [.x d]
  | .gmask _ d _ _ => [.x d]
  | .gstep _ d _ _ => [.x d]
  | .csrr _ d _ => [.x d]
  | .csrw _ _ _ => []
  | .trap _ _ => []
  | .hbt _ => []
  | .brk _ => []
  | .trc _ _ => []
  | .cdo _ _ => []
  | .cdc _ _ => []
  | .cdp _ _ _ => []
  | .vadd _ d _ _ _ _ => [.v d]
  | .vsub _ d _ _ _ _ => [.v d]
  | .vmul _ d _ _ _ => [.v d]
  | .vfma _ d _ _ _ => [.v d]
  | .vmin _ d _ _ _ => [.v d]
  | .vmax _ d _ _ _ => [.v d]
  | .vand _ d _ _ => [.v d]
  | .vor _ d _ _ => [.v d]
  | .vxor _ d _ _ => [.v d]
  | .vandn _ d _ _ => [.v d]
  | .vshl _ d _ _ _ => [.v d]
  | .vshr _ d _ _ _ => [.v d]
  | .vceq _ d _ _ _ => [.v d]
  | .vclt _ d _ _ _ => [.v d]
  | .vcle _ d _ _ _ => [.v d]
  | .vsel _ d _ _ => [.v d]
  | .vabs _ d _ _ => [.v d]
  | .vneg _ d _ _ => [.v d]
  | .vdot _ d _ _ _ => [.v d]
  | .vperm _ d _ _ => [.v d]
  | .vzipl _ d _ _ _ => [.v d]
  | .vziph _ d _ _ _ => [.v d]
  | .vuzpe _ d _ _ _ => [.v d]
  | .vuzpo _ d _ _ _ => [.v d]
  | .vredadd _ d _ _ => [.v d]
  | .vredmax _ d _ _ => [.v d]
  | .vredmin _ d _ _ => [.v d]
  | .vaddCw _ d _ _ _ => [.v d]
  | .vmulCw _ d _ _ _ => [.v d]
  | .vfmaCw _ d _ _ _ => [.v d]
  | .vcvtRne _ d _ _ _ _ => [.v d]
  | .vcvtRtz _ d _ _ _ _ => [.v d]
  | .vcvtRmi _ d _ _ _ _ => [.v d]
  | .vcvtRpi _ d _ _ _ _ => [.v d]
  | .qnt _ d _ _ _ => [.v d]
  | .qntNs _ d _ _ _ => [.v d]
  | .dqn _ d _ _ _ => [.v d]
  | .ltd _ d _ _ => [.v d]
  | .lte _ d _ _ => [.v d]
  | .had _ d _ _ n32 => hadGroup n32 d
  | .hadInv _ d _ _ n32 => hadGroup n32 d
  | .rngCore _ d _ => [.v d]
  | .rngIdx _ d _ => [.v d]
  | .srnd _ d _ _ _ => [.v d]
  | .exp2 _ d _ => [.v d]
  | .log2 _ d _ => [.v d]
  | .rcp _ d _ => [.v d]
  | .rsq _ d _ => [.v d]
  | .sqrt _ d _ => [.v d]
  | .tanh _ d _ => [.v d]
  | .msmrg _ d _ => [.v d]
  | .mma _ _ _ _ _ => []
  | .mmas _ _ _ _ _ => []
  | .mmat _ _ _ _ _ => []
  | .czero _ _ => []
  | .cscl _ _ _ => []
  | .ccvt _ _ _ => []
  | .cadd _ _ _ => []
  | .mdrain _ => []
  | .mqry _ d => [.v d]
  | .mxcfg _ _ => []
  | .stalledIssueResume _ => []
  | .breakpointHalt _ _ => []
  | .debugHalt _ => []
  | .messageArrival _ => []
  | .barrowRefill _ => []
  | .decArrival _ => []
  | .taskDispatch _ => []
  | .waitAging _ _ => []
  | .taskBudget _ => []
  | .taskEndRelease _ => []
  | .bufferedMessageSend _ _ => []
  | .lateFault _ => []
  | .globalRequestAtHome _ _ _ => []
  | .atomicPerform _ _ _ => []
  | .orderedAtomicSend _ _ => []
  | .globalResponse _ _ => []
  | .ackTimeout _ _ => []
  | .crierOrder _ => []
  | .replicaUpdate _ => []
  | .gackExpose _ => []
  | .fwdStoreRemoteVisible _ _ => []
  | .pageWalk _ _ => []
  | .demandServiceExpiry _ => []
  | .parityUpdate _ _ => []
  | .frameZero _ _ => []
  | .engineCommandAccept _ _ => []
  | .engineBlockSend _ _ _ => []
  | .engineBlockArrival _ _ _ _ => []
  | .blockResend _ _ _ => []
  | .engineCommandComplete _ _ => []
  | .collMatch _ _ _ => []
  | .grammarExecute _ _ => []
  | .mxuStart _ => []
  | .mmaRetire _ => []
  | .czeroRetire _ => []
  | .csclRetire _ => []
  | .caddRetire _ => []
  | .sqDoorbell _ _ => []
  | .launchPacket _ => []
  | .graphPacket _ => []
  | .translationInvalidate _ => []
  | .translationInvalidateApply _ => []
  | .invalidateComplete _ => []
  | .dieApplyLaunch _ => []
  | .mapUpdate _ => []
  | .gangGrant _ _ => []
  | .gangComplete _ _ => []
  | .jobCompletionRecord _ => []
  | .preemptStart _ => []
  | .preemptSave _ _ => []
  | .preemptSaveComplete _ _ => []
  | .gangResume _ _ => []
  | .cqhead _ _ => []
  | .abort _ => []
  | .fqdb _ _ => []
  | .gevent _ => []
  | .bar0RegisterWrite _ _ => []
  | .graphKernelComplete _ => []
  | .jobStop _ => []
  | .jobTimeout _ => []
  | .heartbeat _ => []
  | .heartbeatIntervalEnd _ => []
  | .parityLocal _ => []
  | .dieHeartbeat _ => []
  | .dieHeartbeatTimeout _ => []
  | .peerVote _ => []
  | .spareCoreTakeover _ => []
  | .instanceReplay _ _ _ => []
  | .replayRootRestore _ _ _ => []
  | .gangReplay _ _ => []
  | .jobReplay _ => []
  | .domainInstanceEnd _ _ _ => []
  | .stripeRebuild _ _ => []
  | .ptpMessage _ => []
  | .powerGood _ => []
  | .packageReset => []
  | .firmwareImage _ => []
  | .setPlim _ => []
  | .getVersion => []
  | .getCapabilities => []
  | .negotiateAlgorithms => []
  | .getDigests _ => []
  | .getCertificate _ => []
  | .challenge _ _ => []
  | .getMeasurements _ => []
  | .readingRequest _ => []
  | .readingStart _ _ => []
  | .readingEnd _ => []
  | .haltDie _ => []
  | .resumeDie _ => []
  | .dbgctl _ _ => []
  | .dbgstat _ _ => []
  | .trcctl _ _ => []
  | .slctl _ _ => []
  | .debugRegisterWrite _ _ _ => []
  | .debugPathAccess _ _ => []
  | .traceRecordWrite _ => []
  | .stateLogRecordWrite _ => []
  | .droopCapture _ _ => []
  | .droopHoldoffExpiry _ _ => []
  | .dieCacheTakesStore _ _ => []
  | .residencyRequestAtSlice _ _ _ => []

/-- The registers an instruction's fields name as sources, its guard's predicate aside (R225). -/
def Instr.sources : Instr → List RegName
  | .add _ _ a b => [.x a, .x b]
  | .sub _ _ a b => [.x a, .x b]
  | .mul _ _ a b => [.x a, .x b]
  | .mulh _ _ a b => [.x a, .x b]
  | .mulhu _ _ a b => [.x a, .x b]
  | .div _ _ a b => [.x a, .x b]
  | .divu _ _ a b => [.x a, .x b]
  | .rem _ _ a b => [.x a, .x b]
  | .remu _ _ a b => [.x a, .x b]
  | .and _ _ a b => [.x a, .x b]
  | .or _ _ a b => [.x a, .x b]
  | .xor _ _ a b => [.x a, .x b]
  | .andn _ _ a b => [.x a, .x b]
  | .shl _ _ a b => [.x a, .x b]
  | .shr _ _ a b => [.x a, .x b]
  | .sra _ _ a b => [.x a, .x b]
  | .ror _ _ a b => [.x a, .x b]
  | .min _ _ a b => [.x a, .x b]
  | .max _ _ a b => [.x a, .x b]
  | .minu _ _ a b => [.x a, .x b]
  | .maxu _ _ a b => [.x a, .x b]
  | .addCw _ _ a _ => [.x a]
  | .andCw _ _ a _ => [.x a]
  | .orCw _ _ a _ => [.x a]
  | .xorCw _ _ a _ => [.x a]
  | .shlCw _ _ a _ => [.x a]
  | .shrCw _ _ a _ => [.x a]
  | .sraCw _ _ a _ => [.x a]
  | .mulCw _ _ a _ => [.x a]
  | .cmpeq _ _ a b => [.x a, .x b]
  | .cmpne _ _ a b => [.x a, .x b]
  | .cmplt _ _ a b => [.x a, .x b]
  | .cmpge _ _ a b => [.x a, .x b]
  | .cmpltu _ _ a b => [.x a, .x b]
  | .cmpgeu _ _ a b => [.x a, .x b]
  | .cmpeqCw _ _ a _ => [.x a]
  | .cmpneCw _ _ a _ => [.x a]
  | .cmpltCw _ _ a _ => [.x a]
  | .cmpltuCw _ _ a _ => [.x a]
  | .pand _ _ a b => [.k a, .k b]
  | .por _ _ a b => [.k a, .k b]
  | .pxor _ _ a b => [.k a, .k b]
  | .pandn _ _ a b => [.k a, .k b]
  | .pmovx _ _ a => [.k a]
  | .extu _ _ a b => [.x a, .x b]
  | .exts _ _ a b => [.x a, .x b]
  | .ins _ _ a b => [.x a, .x b]
  | .clz _ _ a => [.x a]
  | .ctz _ _ a => [.x a]
  | .popc _ _ a => [.x a]
  | .brev _ _ a => [.x a]
  | .bswap _ _ a => [.x a]
  | .extuCw _ _ a _ => [.x a]
  | .extsCw _ _ a _ => [.x a]
  | .insCw _ _ a _ => [.x a]
  | .ldc _ _ _ => []
  | .lea _ _ a b => [.x a, .x b]
  | .adda _ _ a b => [.x a, .x b]
  | .pfmt _ _ a => [.x a]
  | .sfmt _ _ a b => [.x a, .x b]
  | .leaCw _ _ a _ => [.x a]
  | .addaCw _ _ a _ => [.x a]
  | .sfmtCw _ _ a _ => [.x a]
  | .br _ _ => []
  | .call _ _ => []
  | .jr _ a => [.x a]
  | .ret _ => [.x 31]
  | .loop _ _ n _ => [.x n]
  | .endTask _ => []
  | .lbrk _ _ => []
  | .vfromx _ _ a b => [.x a, .x b]
  | .vtox _ _ a => [.v a]
  | .vtoxh _ _ a => [.v a]
  | .vsplatx _ _ a => [.x a]
  | .ltld _ a => [.x a]
  | .sample _ _ a b => [.x a, .x b]
  | .topkm _ _ a b => [.x a, .x b]
  | .own _ _ a b => [.x a, .x b]
  | .ldN _ _ a b _ => [.x a, .x b]
  | .ldI _ _ a b _ => [.x a, .x b]
  | .ldCw _ _ a _ _ => [.x a]
  | .st _ d a b _ => [.x d, .x a, .x b]
  | .stCw _ d a _ _ => [.x d, .x a]
  | .vld _ _ a b => [.x a, .x b]
  | .vst _ d a b => [.v d, .x a, .x b]
  | .vldx _ _ a b _ => [.x a, .v b]
  | .vstx _ d a b _ => [.v d, .x a, .v b]
  | .gld _ _ a _ _ _ => [.x a]
  | .gst _ d a _ _ _ _ => [.x d, .x a]
  | .gvld _ _ a _ _ => [.x a]
  | .gvst _ d a _ _ _ => [.v d, .x a]
  | .gpfDc _ a b => [.x a, .x b]
  | .gpfLlc _ a b => [.x a, .x b]
  | .aadd _ _ a b _ _ => [.x a, .x b]
  | .aand _ _ a b _ _ => [.x a, .x b]
  | .aor _ _ a b _ _ => [.x a, .x b]
  | .axor _ _ a b _ _ => [.x a, .x b]
  | .amin _ _ a b _ _ _ => [.x a, .x b]
  | .amax _ _ a b _ _ _ => [.x a, .x b]
  | .aswp _ _ a b _ _ => [.x a, .x b]
  | .acas _ d a b _ _ => [.x d, .x a, .x b]
  | .afadd _ _ a b _ => [.x a, .x b]
  | .vaor _ _ a b _ => [.x a, .v b]
  | .fenceAcq _ _ => []
  | .fenceRel _ _ => []
  | .fenceFull _ _ => []
  | .tset _ a b => [.x a, .x b]
  | .tgen _ _ a => [.x a]
  | .bara _ _ => []
  | .bard _ _ => []
  | .barq _ _ _ => []
  | .rdef _ _ a => [.x a]
  | .radvHd _ _ a => [.x a]
  | .radvTl _ _ a => [.x a]
  | .rqry _ _ _ => []
  | .bind _ _ _ => []
  | .unbind _ _ => []
  | .hpin _ _ a => [.x a]
  | .hdem _ a b => [.x a, .x b]
  | .hevt _ a => [.x a]
  | .send _ a b => [.x a, .x b]
  | .sendv _ a b => [.x a, .v b]
  | .reply _ a b => [.x a, .x b]
  | .dec _ a b => [.x a, .x b]
  | .msgrd _ _ b => [.x b]
  | .spawn _ _ a b v => [.x a, .x b, .v (Word.pairLow v), .v (Word.pairHigh v)]
  | .cpy _ _ a b => [.x a, .x b]
  | .cpys _ _ a b => [.x a, .x b]
  | .efq _ _ a b => [.x a, .x b]
  | .coll _ _ a b => [.x a, .x b]
  | .gmask _ _ a b => [.x a, .x b]
  | .gstep _ _ a b => [.x a, .x b]
  | .csrr _ _ _ => []
  | .csrw _ d _ => [.x d]
  | .trap _ a => [.x a]
  | .hbt _ => []
  | .brk _ => []
  | .trc _ a => [.x a]
  | .cdo _ a => [.x a]
  | .cdc _ a => [.x a]
  | .cdp _ a b => [.x a, .x b]
  | .vadd _ _ a b _ _ => [.v a, .v b]
  | .vsub _ _ a b _ _ => [.v a, .v b]
  | .vmul _ _ a b _ => [.v a, .v b]
  | .vfma _ d a b _ => [.v d, .v a, .v b]
  | .vmin _ _ a b _ => [.v a, .v b]
  | .vmax _ _ a b _ => [.v a, .v b]
  | .vand _ _ a b => [.v a, .v b]
  | .vor _ _ a b => [.v a, .v b]
  | .vxor _ _ a b => [.v a, .v b]
  | .vandn _ _ a b => [.v a, .v b]
  | .vshl _ _ a b _ => [.v a, .v b]
  | .vshr _ _ a b _ => [.v a, .v b]
  | .vceq _ _ a b _ => [.v a, .v b]
  | .vclt _ _ a b _ => [.v a, .v b]
  | .vcle _ _ a b _ => [.v a, .v b]
  | .vsel _ d a b => [.v d, .v a, .v b]
  | .vabs _ _ a _ => [.v a]
  | .vneg _ _ a _ => [.v a]
  | .vdot _ d a b _ => [.v d, .v a, .v b]
  | .vperm _ _ a b => [.v a, .v b]
  | .vzipl _ _ a b _ => [.v a, .v b]
  | .vziph _ _ a b _ => [.v a, .v b]
  | .vuzpe _ _ a b _ => [.v a, .v b]
  | .vuzpo _ _ a b _ => [.v a, .v b]
  | .vredadd _ _ a _ => [.v a]
  | .vredmax _ _ a _ => [.v a]
  | .vredmin _ _ a _ => [.v a]
  | .vaddCw _ _ a _ _ => [.v a]
  | .vmulCw _ _ a _ _ => [.v a]
  | .vfmaCw _ d a _ _ => [.v d, .v a]
  | .vcvtRne _ _ a _ _ _ => [.v a]
  | .vcvtRtz _ _ a _ _ _ => [.v a]
  | .vcvtRmi _ _ a _ _ _ => [.v a]
  | .vcvtRpi _ _ a _ _ _ => [.v a]
  | .qnt _ _ a b _ => [.v a, .v b]
  | .qntNs _ _ a b _ => [.v a, .v b]
  | .dqn _ _ a b _ => [.v a, .v b]
  | .ltd _ _ a _ => [.v a]
  | .lte _ _ a _ => [.v a]
  | .had _ _ a b n32 => [.v b] ++ hadGroup n32 a
  | .hadInv _ _ a b n32 => [.v b] ++ hadGroup n32 a
  | .rngCore _ _ a => [.v a]
  | .rngIdx _ _ a => [.v a]
  | .srnd _ _ a b _ => [.v a, .v b]
  | .exp2 _ _ a => [.v a]
  | .log2 _ _ a => [.v a]
  | .rcp _ _ a => [.v a]
  | .rsq _ _ a => [.v a]
  | .sqrt _ _ a => [.v a]
  | .tanh _ _ a => [.v a]
  | .msmrg _ d a => [.v d, .v a]
  | .mma _ _ _ _ _ => []
  | .mmas _ _ _ _ _ => []
  | .mmat _ _ _ _ _ => []
  | .czero _ _ => []
  | .cscl _ _ q => [.v q]
  | .ccvt _ _ _ => []
  | .cadd _ _ _ => []
  | .mdrain _ => []
  | .mqry _ _ => []
  | .mxcfg _ a => [.v a]
  | .stalledIssueResume _ => []
  | .breakpointHalt _ _ => []
  | .debugHalt _ => []
  | .messageArrival _ => []
  | .barrowRefill _ => []
  | .decArrival _ => []
  | .taskDispatch _ => []
  | .waitAging _ _ => []
  | .taskBudget _ => []
  | .taskEndRelease _ => []
  | .bufferedMessageSend _ _ => []
  | .lateFault _ => []
  | .globalRequestAtHome _ _ _ => []
  | .atomicPerform _ _ _ => []
  | .orderedAtomicSend _ _ => []
  | .globalResponse _ _ => []
  | .ackTimeout _ _ => []
  | .crierOrder _ => []
  | .replicaUpdate _ => []
  | .gackExpose _ => []
  | .fwdStoreRemoteVisible _ _ => []
  | .pageWalk _ _ => []
  | .demandServiceExpiry _ => []
  | .parityUpdate _ _ => []
  | .frameZero _ _ => []
  | .engineCommandAccept _ _ => []
  | .engineBlockSend _ _ _ => []
  | .engineBlockArrival _ _ _ _ => []
  | .blockResend _ _ _ => []
  | .engineCommandComplete _ _ => []
  | .collMatch _ _ _ => []
  | .grammarExecute _ _ => []
  | .mxuStart _ => []
  | .mmaRetire _ => []
  | .czeroRetire _ => []
  | .csclRetire _ => []
  | .caddRetire _ => []
  | .sqDoorbell _ _ => []
  | .launchPacket _ => []
  | .graphPacket _ => []
  | .translationInvalidate _ => []
  | .translationInvalidateApply _ => []
  | .invalidateComplete _ => []
  | .dieApplyLaunch _ => []
  | .mapUpdate _ => []
  | .gangGrant _ _ => []
  | .gangComplete _ _ => []
  | .jobCompletionRecord _ => []
  | .preemptStart _ => []
  | .preemptSave _ _ => []
  | .preemptSaveComplete _ _ => []
  | .gangResume _ _ => []
  | .cqhead _ _ => []
  | .abort _ => []
  | .fqdb _ _ => []
  | .gevent _ => []
  | .bar0RegisterWrite _ _ => []
  | .graphKernelComplete _ => []
  | .jobStop _ => []
  | .jobTimeout _ => []
  | .heartbeat _ => []
  | .heartbeatIntervalEnd _ => []
  | .parityLocal _ => []
  | .dieHeartbeat _ => []
  | .dieHeartbeatTimeout _ => []
  | .peerVote _ => []
  | .spareCoreTakeover _ => []
  | .instanceReplay _ _ _ => []
  | .replayRootRestore _ _ _ => []
  | .gangReplay _ _ => []
  | .jobReplay _ => []
  | .domainInstanceEnd _ _ _ => []
  | .stripeRebuild _ _ => []
  | .ptpMessage _ => []
  | .powerGood _ => []
  | .packageReset => []
  | .firmwareImage _ => []
  | .setPlim _ => []
  | .getVersion => []
  | .getCapabilities => []
  | .negotiateAlgorithms => []
  | .getDigests _ => []
  | .getCertificate _ => []
  | .challenge _ _ => []
  | .getMeasurements _ => []
  | .readingRequest _ => []
  | .readingStart _ _ => []
  | .readingEnd _ => []
  | .haltDie _ => []
  | .resumeDie _ => []
  | .dbgctl _ _ => []
  | .dbgstat _ _ => []
  | .trcctl _ _ => []
  | .slctl _ _ => []
  | .debugRegisterWrite _ _ _ => []
  | .debugPathAccess _ _ => []
  | .traceRecordWrite _ => []
  | .stateLogRecordWrite _ => []
  | .droopCapture _ _ => []
  | .droopHoldoffExpiry _ _ => []
  | .dieCacheTakesStore _ _ => []
  | .residencyRequestAtSlice _ _ _ => []

/-- The guard of an encoded instruction (R164); events have none and run. -/
def Instr.guard : Instr → Guard
  | .add g _ _ _ => g
  | .sub g _ _ _ => g
  | .mul g _ _ _ => g
  | .mulh g _ _ _ => g
  | .mulhu g _ _ _ => g
  | .div g _ _ _ => g
  | .divu g _ _ _ => g
  | .rem g _ _ _ => g
  | .remu g _ _ _ => g
  | .and g _ _ _ => g
  | .or g _ _ _ => g
  | .xor g _ _ _ => g
  | .andn g _ _ _ => g
  | .shl g _ _ _ => g
  | .shr g _ _ _ => g
  | .sra g _ _ _ => g
  | .ror g _ _ _ => g
  | .min g _ _ _ => g
  | .max g _ _ _ => g
  | .minu g _ _ _ => g
  | .maxu g _ _ _ => g
  | .addCw g _ _ _ => g
  | .andCw g _ _ _ => g
  | .orCw g _ _ _ => g
  | .xorCw g _ _ _ => g
  | .shlCw g _ _ _ => g
  | .shrCw g _ _ _ => g
  | .sraCw g _ _ _ => g
  | .mulCw g _ _ _ => g
  | .cmpeq g _ _ _ => g
  | .cmpne g _ _ _ => g
  | .cmplt g _ _ _ => g
  | .cmpge g _ _ _ => g
  | .cmpltu g _ _ _ => g
  | .cmpgeu g _ _ _ => g
  | .cmpeqCw g _ _ _ => g
  | .cmpneCw g _ _ _ => g
  | .cmpltCw g _ _ _ => g
  | .cmpltuCw g _ _ _ => g
  | .pand g _ _ _ => g
  | .por g _ _ _ => g
  | .pxor g _ _ _ => g
  | .pandn g _ _ _ => g
  | .pmovx g _ _ => g
  | .extu g _ _ _ => g
  | .exts g _ _ _ => g
  | .ins g _ _ _ => g
  | .clz g _ _ => g
  | .ctz g _ _ => g
  | .popc g _ _ => g
  | .brev g _ _ => g
  | .bswap g _ _ => g
  | .extuCw g _ _ _ => g
  | .extsCw g _ _ _ => g
  | .insCw g _ _ _ => g
  | .ldc g _ _ => g
  | .lea g _ _ _ => g
  | .adda g _ _ _ => g
  | .pfmt g _ _ => g
  | .sfmt g _ _ _ => g
  | .leaCw g _ _ _ => g
  | .addaCw g _ _ _ => g
  | .sfmtCw g _ _ _ => g
  | .br g _ => g
  | .call g _ => g
  | .jr g _ => g
  | .ret g => g
  | .loop g _ _ _ => g
  | .endTask g => g
  | .lbrk g _ => g
  | .vfromx g _ _ _ => g
  | .vtox g _ _ => g
  | .vtoxh g _ _ => g
  | .vsplatx g _ _ => g
  | .ltld g _ => g
  | .sample g _ _ _ => g
  | .topkm g _ _ _ => g
  | .own g _ _ _ => g
  | .ldN g _ _ _ _ => g
  | .ldI g _ _ _ _ => g
  | .ldCw g _ _ _ _ => g
  | .st g _ _ _ _ => g
  | .stCw g _ _ _ _ => g
  | .vld g _ _ _ => g
  | .vst g _ _ _ => g
  | .vldx g _ _ _ _ => g
  | .vstx g _ _ _ _ => g
  | .gld g _ _ _ _ _ => g
  | .gst g _ _ _ _ _ _ => g
  | .gvld g _ _ _ _ => g
  | .gvst g _ _ _ _ _ => g
  | .gpfDc g _ _ => g
  | .gpfLlc g _ _ => g
  | .aadd g _ _ _ _ _ => g
  | .aand g _ _ _ _ _ => g
  | .aor g _ _ _ _ _ => g
  | .axor g _ _ _ _ _ => g
  | .amin g _ _ _ _ _ _ => g
  | .amax g _ _ _ _ _ _ => g
  | .aswp g _ _ _ _ _ => g
  | .acas g _ _ _ _ _ => g
  | .afadd g _ _ _ _ => g
  | .vaor g _ _ _ _ => g
  | .fenceAcq g _ => g
  | .fenceRel g _ => g
  | .fenceFull g _ => g
  | .tset g _ _ => g
  | .tgen g _ _ => g
  | .bara g _ => g
  | .bard g _ => g
  | .barq g _ _ => g
  | .rdef g _ _ => g
  | .radvHd g _ _ => g
  | .radvTl g _ _ => g
  | .rqry g _ _ => g
  | .bind g _ _ => g
  | .unbind g _ => g
  | .hpin g _ _ => g
  | .hdem g _ _ => g
  | .hevt g _ => g
  | .send g _ _ => g
  | .sendv g _ _ => g
  | .reply g _ _ => g
  | .dec g _ _ => g
  | .msgrd g _ _ => g
  | .spawn g _ _ _ _ => g
  | .cpy g _ _ _ => g
  | .cpys g _ _ _ => g
  | .efq g _ _ _ => g
  | .coll g _ _ _ => g
  | .gmask g _ _ _ => g
  | .gstep g _ _ _ => g
  | .csrr g _ _ => g
  | .csrw g _ _ => g
  | .trap g _ => g
  | .hbt g => g
  | .brk g => g
  | .trc g _ => g
  | .cdo g _ => g
  | .cdc g _ => g
  | .cdp g _ _ => g
  | .vadd g _ _ _ _ _ => g
  | .vsub g _ _ _ _ _ => g
  | .vmul g _ _ _ _ => g
  | .vfma g _ _ _ _ => g
  | .vmin g _ _ _ _ => g
  | .vmax g _ _ _ _ => g
  | .vand g _ _ _ => g
  | .vor g _ _ _ => g
  | .vxor g _ _ _ => g
  | .vandn g _ _ _ => g
  | .vshl g _ _ _ _ => g
  | .vshr g _ _ _ _ => g
  | .vceq g _ _ _ _ => g
  | .vclt g _ _ _ _ => g
  | .vcle g _ _ _ _ => g
  | .vsel g _ _ _ => g
  | .vabs g _ _ _ => g
  | .vneg g _ _ _ => g
  | .vdot g _ _ _ _ => g
  | .vperm g _ _ _ => g
  | .vzipl g _ _ _ _ => g
  | .vziph g _ _ _ _ => g
  | .vuzpe g _ _ _ _ => g
  | .vuzpo g _ _ _ _ => g
  | .vredadd g _ _ _ => g
  | .vredmax g _ _ _ => g
  | .vredmin g _ _ _ => g
  | .vaddCw g _ _ _ _ => g
  | .vmulCw g _ _ _ _ => g
  | .vfmaCw g _ _ _ _ => g
  | .vcvtRne g _ _ _ _ _ => g
  | .vcvtRtz g _ _ _ _ _ => g
  | .vcvtRmi g _ _ _ _ _ => g
  | .vcvtRpi g _ _ _ _ _ => g
  | .qnt g _ _ _ _ => g
  | .qntNs g _ _ _ _ => g
  | .dqn g _ _ _ _ => g
  | .ltd g _ _ _ => g
  | .lte g _ _ _ => g
  | .had g _ _ _ _ => g
  | .hadInv g _ _ _ _ => g
  | .rngCore g _ _ => g
  | .rngIdx g _ _ => g
  | .srnd g _ _ _ _ => g
  | .exp2 g _ _ => g
  | .log2 g _ _ => g
  | .rcp g _ _ => g
  | .rsq g _ _ => g
  | .sqrt g _ _ => g
  | .tanh g _ _ => g
  | .msmrg g _ _ => g
  | .mma g _ _ _ _ => g
  | .mmas g _ _ _ _ => g
  | .mmat g _ _ _ _ => g
  | .czero g _ => g
  | .cscl g _ _ => g
  | .ccvt g _ _ => g
  | .cadd g _ _ => g
  | .mdrain g => g
  | .mqry g _ => g
  | .mxcfg g _ => g
  | .stalledIssueResume _ => Guard.always
  | .breakpointHalt _ _ => Guard.always
  | .debugHalt _ => Guard.always
  | .messageArrival _ => Guard.always
  | .barrowRefill _ => Guard.always
  | .decArrival _ => Guard.always
  | .taskDispatch _ => Guard.always
  | .waitAging _ _ => Guard.always
  | .taskBudget _ => Guard.always
  | .taskEndRelease _ => Guard.always
  | .bufferedMessageSend _ _ => Guard.always
  | .lateFault _ => Guard.always
  | .globalRequestAtHome _ _ _ => Guard.always
  | .atomicPerform _ _ _ => Guard.always
  | .orderedAtomicSend _ _ => Guard.always
  | .globalResponse _ _ => Guard.always
  | .ackTimeout _ _ => Guard.always
  | .crierOrder _ => Guard.always
  | .replicaUpdate _ => Guard.always
  | .gackExpose _ => Guard.always
  | .fwdStoreRemoteVisible _ _ => Guard.always
  | .pageWalk _ _ => Guard.always
  | .demandServiceExpiry _ => Guard.always
  | .parityUpdate _ _ => Guard.always
  | .frameZero _ _ => Guard.always
  | .engineCommandAccept _ _ => Guard.always
  | .engineBlockSend _ _ _ => Guard.always
  | .engineBlockArrival _ _ _ _ => Guard.always
  | .blockResend _ _ _ => Guard.always
  | .engineCommandComplete _ _ => Guard.always
  | .collMatch _ _ _ => Guard.always
  | .grammarExecute _ _ => Guard.always
  | .mxuStart _ => Guard.always
  | .mmaRetire _ => Guard.always
  | .czeroRetire _ => Guard.always
  | .csclRetire _ => Guard.always
  | .caddRetire _ => Guard.always
  | .sqDoorbell _ _ => Guard.always
  | .launchPacket _ => Guard.always
  | .graphPacket _ => Guard.always
  | .translationInvalidate _ => Guard.always
  | .translationInvalidateApply _ => Guard.always
  | .invalidateComplete _ => Guard.always
  | .dieApplyLaunch _ => Guard.always
  | .mapUpdate _ => Guard.always
  | .gangGrant _ _ => Guard.always
  | .gangComplete _ _ => Guard.always
  | .jobCompletionRecord _ => Guard.always
  | .preemptStart _ => Guard.always
  | .preemptSave _ _ => Guard.always
  | .preemptSaveComplete _ _ => Guard.always
  | .gangResume _ _ => Guard.always
  | .cqhead _ _ => Guard.always
  | .abort _ => Guard.always
  | .fqdb _ _ => Guard.always
  | .gevent _ => Guard.always
  | .bar0RegisterWrite _ _ => Guard.always
  | .graphKernelComplete _ => Guard.always
  | .jobStop _ => Guard.always
  | .jobTimeout _ => Guard.always
  | .heartbeat _ => Guard.always
  | .heartbeatIntervalEnd _ => Guard.always
  | .parityLocal _ => Guard.always
  | .dieHeartbeat _ => Guard.always
  | .dieHeartbeatTimeout _ => Guard.always
  | .peerVote _ => Guard.always
  | .spareCoreTakeover _ => Guard.always
  | .instanceReplay _ _ _ => Guard.always
  | .replayRootRestore _ _ _ => Guard.always
  | .gangReplay _ _ => Guard.always
  | .jobReplay _ => Guard.always
  | .domainInstanceEnd _ _ _ => Guard.always
  | .stripeRebuild _ _ => Guard.always
  | .ptpMessage _ => Guard.always
  | .powerGood _ => Guard.always
  | .packageReset => Guard.always
  | .firmwareImage _ => Guard.always
  | .setPlim _ => Guard.always
  | .getVersion => Guard.always
  | .getCapabilities => Guard.always
  | .negotiateAlgorithms => Guard.always
  | .getDigests _ => Guard.always
  | .getCertificate _ => Guard.always
  | .challenge _ _ => Guard.always
  | .getMeasurements _ => Guard.always
  | .readingRequest _ => Guard.always
  | .readingStart _ _ => Guard.always
  | .readingEnd _ => Guard.always
  | .haltDie _ => Guard.always
  | .resumeDie _ => Guard.always
  | .dbgctl _ _ => Guard.always
  | .dbgstat _ _ => Guard.always
  | .trcctl _ _ => Guard.always
  | .slctl _ _ => Guard.always
  | .debugRegisterWrite _ _ _ => Guard.always
  | .debugPathAccess _ _ => Guard.always
  | .traceRecordWrite _ => Guard.always
  | .stateLogRecordWrite _ => Guard.always
  | .droopCapture _ _ => Guard.always
  | .droopHoldoffExpiry _ _ => Guard.always
  | .dieCacheTakesStore _ _ => Guard.always
  | .residencyRequestAtSlice _ _ _ => Guard.always

/-- The destinations R165 counts against a second writer: not x0 and k0, and none under a guard that never runs. -/
def Instr.countedDests (i : Instr) : List RegName :=
  if i.guard = Guard.never then [] else i.dests.filter fun r => decide (r ≠ .x 0) && decide (r ≠ .k 0)

/-- The destinations a word counts: those of its reading where every field is assigned, else none (R165). -/
def countedOf (sl : Slot) (w : Nat) : List RegName :=
  match readAssigned sl w with
  | some r => r.instr.countedDests
  | none => []

/-- A bundle (R163): one instruction alone, or a C instruction with an X instruction. -/
inductive Bundle
  | lone (i : Instr)
  | pair (c x : Instr)
  deriving DecidableEq, Repr

/-- Decode a bundle from its low and high words (R163, R165, R167, checks 2 to 4). -/
def decodeBundle (lo hi : Nat) : Except DecodeError Bundle :=
  match lo / 2 ^ 30 % 4 with
  | 0 =>
    if hi / 2 ^ 30 % 4 != 0 then .error .illegalBundle
    else if (countedOf .c lo).any (fun r => (countedOf .x hi).contains r) then .error .illegalBundle
    else
      match decodeSlot .c lo, decodeSlot .x hi with
      | .error .illegalOpcode, _ => .error .illegalOpcode
      | _, .error .illegalOpcode => .error .illegalOpcode
      | .error e, _ => .error e
      | _, .error e => .error e
      | .ok c, .ok x => .ok (.pair c x)
  | 1 => if hi != 0 then .error .illegalBundle else (decodeSlot .c lo).map .lone
  | 2 => if hi != 0 then .error .illegalBundle else (decodeSlot .x lo).map .lone
  | _ => .error .illegalBundle

/-- The slot an instruction word of the opcode table stands in, and the word itself. The SL bits say the slot: 0b01 the C
slot, 0b10 the X slot. With SL 0b00 the word stands in a paired bundle (R163): as its low word where it is a C
instruction, else as its high word. -/
def tableSlot (w : Nat) : Option Slot :=
  match w / 2 ^ 30 with
  | 0 => match decodeSlot .c w with
    | .ok _ => some .c
    | .error _ => some .x
  | 1 => some .c
  | 2 => some .x
  | _ => none

/-- The instruction the decoder reads from one 32-bit instruction word of the opcode table; only 32-bit words are
instruction words. -/
def decodeTableWord (nbits w : Nat) : Option Instr :=
  if nbits != 32 || decide (2 ^ 32 ≤ w) then none
  else
    match tableSlot w with
    | some sl => (decodeSlot sl w).toOption
    | none => none

/-- A value placed at bit `lo` of a word. -/
def place (v lo : Nat) : Nat := v * 2 ^ lo
/-- A Bool placed at bit `lo` of a word. -/
def placeB (b : Bool) (lo : Nat) : Nat := b.toNat * 2 ^ lo
/-- OP and guard of a word (R164). -/
def head (op : Nat) (g : Guard) : Nat := place op 24 + placeB g.gn 23 + place g.gp.val 20

/-- The instruction word of each encoded instruction with SL zero (R168 to R177); an event has none. -/
def Instr.encode : Instr → Option Nat
  | .add g d a b => some (head 0x00 g + place d.val 15 + place a.val 10 + place b.val 5)
  | .sub g d a b => some (head 0x00 g + place d.val 15 + place a.val 10 + place b.val 5 + 0x1)
  | .mul g d a b => some (head 0x00 g + place d.val 15 + place a.val 10 + place b.val 5 + 0x2)
  | .mulh g d a b => some (head 0x00 g + place d.val 15 + place a.val 10 + place b.val 5 + 0x3)
  | .mulhu g d a b => some (head 0x00 g + place d.val 15 + place a.val 10 + place b.val 5 + 0x4)
  | .div g d a b => some (head 0x00 g + place d.val 15 + place a.val 10 + place b.val 5 + 0x5)
  | .divu g d a b => some (head 0x00 g + place d.val 15 + place a.val 10 + place b.val 5 + 0x6)
  | .rem g d a b => some (head 0x00 g + place d.val 15 + place a.val 10 + place b.val 5 + 0x7)
  | .remu g d a b => some (head 0x00 g + place d.val 15 + place a.val 10 + place b.val 5 + 0x8)
  | .and g d a b => some (head 0x00 g + place d.val 15 + place a.val 10 + place b.val 5 + 0x9)
  | .or g d a b => some (head 0x00 g + place d.val 15 + place a.val 10 + place b.val 5 + 0xA)
  | .xor g d a b => some (head 0x00 g + place d.val 15 + place a.val 10 + place b.val 5 + 0xB)
  | .andn g d a b => some (head 0x00 g + place d.val 15 + place a.val 10 + place b.val 5 + 0xC)
  | .shl g d a b => some (head 0x00 g + place d.val 15 + place a.val 10 + place b.val 5 + 0xD)
  | .shr g d a b => some (head 0x00 g + place d.val 15 + place a.val 10 + place b.val 5 + 0xE)
  | .sra g d a b => some (head 0x00 g + place d.val 15 + place a.val 10 + place b.val 5 + 0xF)
  | .ror g d a b => some (head 0x00 g + place d.val 15 + place a.val 10 + place b.val 5 + 0x10)
  | .min g d a b => some (head 0x00 g + place d.val 15 + place a.val 10 + place b.val 5 + 0x11)
  | .max g d a b => some (head 0x00 g + place d.val 15 + place a.val 10 + place b.val 5 + 0x12)
  | .minu g d a b => some (head 0x00 g + place d.val 15 + place a.val 10 + place b.val 5 + 0x13)
  | .maxu g d a b => some (head 0x00 g + place d.val 15 + place a.val 10 + place b.val 5 + 0x14)
  | .addCw g d a cw => some (head 0x01 g + place d.val 15 + place a.val 10 + place cw.val 2)
  | .andCw g d a cw => some (head 0x01 g + place d.val 15 + place a.val 10 + place cw.val 2 + 0x1)
  | .orCw g d a cw => some (head 0x01 g + place d.val 15 + place a.val 10 + place cw.val 2 + 0x2)
  | .xorCw g d a cw => some (head 0x01 g + place d.val 15 + place a.val 10 + place cw.val 2 + 0x3)
  | .shlCw g d a cw => some (head 0x02 g + place d.val 15 + place a.val 10 + place cw.val 2)
  | .shrCw g d a cw => some (head 0x02 g + place d.val 15 + place a.val 10 + place cw.val 2 + 0x1)
  | .sraCw g d a cw => some (head 0x02 g + place d.val 15 + place a.val 10 + place cw.val 2 + 0x2)
  | .mulCw g d a cw => some (head 0x02 g + place d.val 15 + place a.val 10 + place cw.val 2 + 0x3)
  | .cmpeq g d a b => some (head 0x03 g + place d.val 15 + place a.val 10 + place b.val 5)
  | .cmpne g d a b => some (head 0x03 g + place d.val 15 + place a.val 10 + place b.val 5 + 0x1)
  | .cmplt g d a b => some (head 0x03 g + place d.val 15 + place a.val 10 + place b.val 5 + 0x2)
  | .cmpge g d a b => some (head 0x03 g + place d.val 15 + place a.val 10 + place b.val 5 + 0x3)
  | .cmpltu g d a b => some (head 0x03 g + place d.val 15 + place a.val 10 + place b.val 5 + 0x4)
  | .cmpgeu g d a b => some (head 0x03 g + place d.val 15 + place a.val 10 + place b.val 5 + 0x5)
  | .cmpeqCw g d a cw => some (head 0x04 g + place d.val 15 + place a.val 10 + place cw.val 2)
  | .cmpneCw g d a cw => some (head 0x04 g + place d.val 15 + place a.val 10 + place cw.val 2 + 0x1)
  | .cmpltCw g d a cw => some (head 0x04 g + place d.val 15 + place a.val 10 + place cw.val 2 + 0x2)
  | .cmpltuCw g d a cw => some (head 0x04 g + place d.val 15 + place a.val 10 + place cw.val 2 + 0x3)
  | .pand g d a b => some (head 0x05 g + place d.val 15 + place a.val 10 + place b.val 5)
  | .por g d a b => some (head 0x05 g + place d.val 15 + place a.val 10 + place b.val 5 + 0x1)
  | .pxor g d a b => some (head 0x05 g + place d.val 15 + place a.val 10 + place b.val 5 + 0x2)
  | .pandn g d a b => some (head 0x05 g + place d.val 15 + place a.val 10 + place b.val 5 + 0x3)
  | .pmovx g d a => some (head 0x05 g + place d.val 15 + place a.val 10 + 0x4)
  | .extu g d a b => some (head 0x06 g + place d.val 15 + place a.val 10 + place b.val 5)
  | .exts g d a b => some (head 0x06 g + place d.val 15 + place a.val 10 + place b.val 5 + 0x1)
  | .ins g d a b => some (head 0x06 g + place d.val 15 + place a.val 10 + place b.val 5 + 0x2)
  | .clz g d a => some (head 0x06 g + place d.val 15 + place a.val 10 + 0x3)
  | .ctz g d a => some (head 0x06 g + place d.val 15 + place a.val 10 + 0x4)
  | .popc g d a => some (head 0x06 g + place d.val 15 + place a.val 10 + 0x5)
  | .brev g d a => some (head 0x06 g + place d.val 15 + place a.val 10 + 0x6)
  | .bswap g d a => some (head 0x06 g + place d.val 15 + place a.val 10 + 0x7)
  | .extuCw g d a cw => some (head 0x07 g + place d.val 15 + place a.val 10 + place cw.val 2)
  | .extsCw g d a cw => some (head 0x07 g + place d.val 15 + place a.val 10 + place cw.val 2 + 0x1)
  | .insCw g d a cw => some (head 0x07 g + place d.val 15 + place a.val 10 + place cw.val 2 + 0x2)
  | .ldc g d cw => some (head 0x08 g + place d.val 15 + place cw.val 2)
  | .lea g d a b => some (head 0x09 g + place d.val 15 + place a.val 10 + place b.val 5)
  | .adda g d a b => some (head 0x09 g + place d.val 15 + place a.val 10 + place b.val 5 + 0x1)
  | .pfmt g d a => some (head 0x09 g + place d.val 15 + place a.val 10 + 0x2)
  | .sfmt g d a b => some (head 0x09 g + place d.val 15 + place a.val 10 + place b.val 5 + 0x3)
  | .leaCw g d a cw => some (head 0x0A g + place d.val 15 + place a.val 10 + place cw.val 2)
  | .addaCw g d a cw => some (head 0x0A g + place d.val 15 + place a.val 10 + place cw.val 2 + 0x1)
  | .sfmtCw g d a cw => some (head 0x0A g + place d.val 15 + place a.val 10 + place cw.val 2 + 0x3)
  | .br g off => some (head 0x10 g + place off.toNat 0)
  | .call g off => some (head 0x11 g + place off.toNat 0)
  | .jr g a => some (head 0x12 g + place a.val 10)
  | .ret g => some (head 0x12 g + 0x1)
  | .loop g set n len => some (head 0x13 g + place set.val 19 + place n.val 14 + place len.val 0)
  | .endTask g => some (head 0x14 g)
  | .lbrk g set => some (head 0x14 g + place set.val 10 + 0x1)
  | .vfromx g d a b => some (head 0x15 g + place d.val 15 + place a.val 10 + place b.val 5)
  | .vtox g d a => some (head 0x15 g + place d.val 15 + place a.val 10 + 0x1)
  | .vtoxh g d a => some (head 0x15 g + place d.val 15 + place a.val 10 + 0x2)
  | .vsplatx g d a => some (head 0x15 g + place d.val 15 + place a.val 10 + 0x3)
  | .ltld g a => some (head 0x16 g + place a.val 10)
  | .sample g d a b => some (head 0x17 g + place d.val 15 + place a.val 10 + place b.val 5)
  | .topkm g d a b => some (head 0x17 g + place d.val 15 + place a.val 10 + place b.val 5 + 0x1)
  | .own g d a b => some (head 0x17 g + place d.val 15 + place a.val 10 + place b.val 5 + 0x2)
  | .ldN g d a b w => some (head 0x18 g + place d.val 15 + place a.val 10 + place b.val 5 + place w.val 3)
  | .ldI g d a b w => some (head 0x18 g + place d.val 15 + place a.val 10 + place b.val 5 + place w.val 3 + 0x4)
  | .ldCw g d a cw w => some (head 0x19 g + place d.val 15 + place a.val 10 + place cw.val 2 + place w.val 0)
  | .st g d a b w => some (head 0x1A g + place d.val 15 + place a.val 10 + place b.val 5 + place w.val 3)
  | .stCw g d a cw w => some (head 0x1B g + place d.val 15 + place a.val 10 + place cw.val 2 + place w.val 0)
  | .vld g d a b => some (head 0x1C g + place d.val 15 + place a.val 10 + place b.val 5)
  | .vst g d a b => some (head 0x1D g + place d.val 15 + place a.val 10 + place b.val 5)
  | .vldx g d a b e => some (head 0x1E g + place d.val 15 + place a.val 10 + place b.val 5 + place e.val 3)
  | .vstx g d a b e => some (head 0x1F g + place d.val 15 + place a.val 10 + place b.val 5 + place e.val 3)
  | .gld g d a sc w ord => some (head 0x20 g + place d.val 15 + place a.val 10 + place sc.val 7 + place w.val 3 + placeB ord 0)
  | .gst g d a sc w gack ord => some (head 0x21 g + place d.val 15 + place a.val 10 + place sc.val 7 + place w.val 3 + placeB gack 2 + placeB ord 0)
  | .gvld g d a sc ord => some (head 0x22 g + place d.val 15 + place a.val 10 + place sc.val 7 + placeB ord 0)
  | .gvst g d a sc gack ord => some (head 0x23 g + place d.val 15 + place a.val 10 + place sc.val 7 + placeB gack 2 + placeB ord 0)
  | .gpfDc g a b => some (head 0x24 g + place a.val 10 + place b.val 5)
  | .gpfLlc g a b => some (head 0x24 g + place a.val 10 + place b.val 5 + 0x1)
  | .aadd g d a b o wd => some (head 0x25 g + place d.val 15 + place a.val 10 + place b.val 5 + placeB o 4 + placeB wd 2)
  | .aand g d a b o wd => some (head 0x26 g + place d.val 15 + place a.val 10 + place b.val 5 + placeB o 4 + placeB wd 2)
  | .aor g d a b o wd => some (head 0x27 g + place d.val 15 + place a.val 10 + place b.val 5 + placeB o 4 + placeB wd 2)
  | .axor g d a b o wd => some (head 0x28 g + place d.val 15 + place a.val 10 + place b.val 5 + placeB o 4 + placeB wd 2)
  | .amin g d a b o un wd => some (head 0x29 g + place d.val 15 + place a.val 10 + place b.val 5 + placeB o 4 + placeB un 3 + placeB wd 2)
  | .amax g d a b o un wd => some (head 0x2A g + place d.val 15 + place a.val 10 + place b.val 5 + placeB o 4 + placeB un 3 + placeB wd 2)
  | .aswp g d a b o wd => some (head 0x2B g + place d.val 15 + place a.val 10 + place b.val 5 + placeB o 4 + placeB wd 2)
  | .acas g d a b o wd => some (head 0x2C g + place d.val 15 + place a.val 10 + place b.val 5 + placeB o 4 + placeB wd 2)
  | .afadd g d a b o => some (head 0x2D g + place d.val 15 + place a.val 10 + place b.val 5 + placeB o 4)
  | .vaor g d a b o => some (head 0x2E g + place d.val 15 + place a.val 10 + place b.val 5 + placeB o 4)
  | .fenceAcq g sc => some (head 0x30 g + place sc.val 2 + 0x1)
  | .fenceRel g sc => some (head 0x30 g + place sc.val 2 + 0x2)
  | .fenceFull g sc => some (head 0x30 g + place sc.val 2 + 0x3)
  | .tset g a b => some (head 0x31 g + place a.val 10 + place b.val 5)
  | .tgen g d a => some (head 0x31 g + place d.val 15 + place a.val 10 + 0x1)
  | .bara g b => some (head 0x32 g + place b.val 10)
  | .bard g b => some (head 0x32 g + place b.val 10 + 0x1)
  | .barq g d b => some (head 0x32 g + place d.val 15 + place b.val 10 + 0x2)
  | .rdef g h a => some (head 0x33 g + place h.val 15 + place a.val 10)
  | .radvHd g h a => some (head 0x33 g + place h.val 15 + place a.val 10 + 0x1)
  | .radvTl g h a => some (head 0x33 g + place h.val 15 + place a.val 10 + 0x2)
  | .rqry g d h => some (head 0x33 g + place d.val 15 + place h.val 10 + 0x3)
  | .bind g w h => some (head 0x33 g + place w.val 15 + place h.val 10 + 0xE0004)
  | .unbind g w => some (head 0x33 g + place w.val 15 + 0xE0005)
  | .hpin g d a => some (head 0x34 g + place d.val 15 + place a.val 10)
  | .hdem g a b => some (head 0x34 g + place a.val 10 + place b.val 5 + 0x1)
  | .hevt g a => some (head 0x34 g + place a.val 10 + 0x2)
  | .send g a b => some (head 0x38 g + place a.val 10 + place b.val 5)
  | .sendv g a b => some (head 0x38 g + place a.val 10 + place b.val 5 + 0x1)
  | .reply g a b => some (head 0x38 g + place a.val 10 + place b.val 5 + 0x2)
  | .dec g a b => some (head 0x38 g + place a.val 10 + place b.val 5 + 0x3)
  | .msgrd g d b => some (head 0x38 g + place d.val 15 + place b.val 5 + 0x4)
  | .spawn g k a b v => some (head 0x39 g + place k.val 15 + place a.val 10 + place b.val 5 + place v.val 1)
  | .cpy g d a b => some (head 0x3A g + place d.val 15 + place a.val 10 + place b.val 5)
  | .cpys g d a b => some (head 0x3A g + place d.val 15 + place a.val 10 + place b.val 5 + 0x1)
  | .efq g d a b => some (head 0x3A g + place d.val 15 + place a.val 10 + place b.val 5 + 0x2)
  | .coll g d a b => some (head 0x3A g + place d.val 15 + place a.val 10 + place b.val 5 + 0x3)
  | .gmask g d a b => some (head 0x3A g + place d.val 15 + place a.val 10 + place b.val 5 + 0x4)
  | .gstep g d a b => some (head 0x3A g + place d.val 15 + place a.val 10 + place b.val 5 + 0x5)
  | .csrr g d num => some (head 0x3C g + place d.val 15 + place num.val 5)
  | .csrw g d num => some (head 0x3C g + place d.val 15 + place num.val 5 + 0x1)
  | .trap g a => some (head 0x3D g + place a.val 10)
  | .hbt g => some (head 0x3D g + 0x1)
  | .brk g => some (head 0x3D g + 0x2)
  | .trc g a => some (head 0x3D g + place a.val 10 + 0x3)
  | .cdo g a => some (head 0x3E g + place a.val 10)
  | .cdc g a => some (head 0x3E g + place a.val 10 + 0x1)
  | .cdp g a b => some (head 0x3E g + place a.val 10 + place b.val 5 + 0x2)
  | .vadd g d a b sat t => some (head 0x00 g + place d.val 15 + place a.val 10 + place b.val 5 + placeB sat 4 + place t.val 0)
  | .vsub g d a b sat t => some (head 0x01 g + place d.val 15 + place a.val 10 + place b.val 5 + placeB sat 4 + place t.val 0)
  | .vmul g d a b t => some (head 0x02 g + place d.val 15 + place a.val 10 + place b.val 5 + place t.val 0)
  | .vfma g d a b t => some (head 0x03 g + place d.val 15 + place a.val 10 + place b.val 5 + place t.val 0)
  | .vmin g d a b t => some (head 0x04 g + place d.val 15 + place a.val 10 + place b.val 5 + place t.val 0)
  | .vmax g d a b t => some (head 0x05 g + place d.val 15 + place a.val 10 + place b.val 5 + place t.val 0)
  | .vand g d a b => some (head 0x06 g + place d.val 15 + place a.val 10 + place b.val 5)
  | .vor g d a b => some (head 0x06 g + place d.val 15 + place a.val 10 + place b.val 5 + 0x1)
  | .vxor g d a b => some (head 0x06 g + place d.val 15 + place a.val 10 + place b.val 5 + 0x2)
  | .vandn g d a b => some (head 0x06 g + place d.val 15 + place a.val 10 + place b.val 5 + 0x3)
  | .vshl g d a b t => some (head 0x07 g + place d.val 15 + place a.val 10 + place b.val 5 + place t.val 0)
  | .vshr g d a b t => some (head 0x08 g + place d.val 15 + place a.val 10 + place b.val 5 + place t.val 0)
  | .vceq g d a b t => some (head 0x09 g + place d.val 15 + place a.val 10 + place b.val 5 + place t.val 0)
  | .vclt g d a b t => some (head 0x0A g + place d.val 15 + place a.val 10 + place b.val 5 + place t.val 0)
  | .vcle g d a b t => some (head 0x0B g + place d.val 15 + place a.val 10 + place b.val 5 + place t.val 0)
  | .vsel g d a b => some (head 0x0C g + place d.val 15 + place a.val 10 + place b.val 5)
  | .vabs g d a t => some (head 0x0D g + place d.val 15 + place a.val 10 + place t.val 0)
  | .vneg g d a t => some (head 0x0D g + place d.val 15 + place a.val 10 + place t.val 0 + 0x10)
  | .vdot g d a b t => some (head 0x0E g + place d.val 15 + place a.val 10 + place b.val 5 + place t.val 0)
  | .vperm g d a b => some (head 0x10 g + place d.val 15 + place a.val 10 + place b.val 5)
  | .vzipl g d a b e => some (head 0x11 g + place d.val 15 + place a.val 10 + place b.val 5 + place e.val 2)
  | .vziph g d a b e => some (head 0x11 g + place d.val 15 + place a.val 10 + place b.val 5 + place e.val 2 + 0x1)
  | .vuzpe g d a b e => some (head 0x11 g + place d.val 15 + place a.val 10 + place b.val 5 + place e.val 2 + 0x2)
  | .vuzpo g d a b e => some (head 0x11 g + place d.val 15 + place a.val 10 + place b.val 5 + place e.val 2 + 0x3)
  | .vredadd g d a t => some (head 0x12 g + place d.val 15 + place a.val 10 + place t.val 0)
  | .vredmax g d a t => some (head 0x13 g + place d.val 15 + place a.val 10 + place t.val 0)
  | .vredmin g d a t => some (head 0x14 g + place d.val 15 + place a.val 10 + place t.val 0)
  | .vaddCw g d a cw t => some (head 0x15 g + place d.val 15 + place a.val 10 + place cw.val 2 + place t.val 0)
  | .vmulCw g d a cw t => some (head 0x16 g + place d.val 15 + place a.val 10 + place cw.val 2 + place t.val 0)
  | .vfmaCw g d a cw t => some (head 0x17 g + place d.val 15 + place a.val 10 + place cw.val 2 + place t.val 0)
  | .vcvtRne g d a src sat t => some (head 0x18 g + place d.val 15 + place a.val 10 + place src.val 5 + placeB sat 4 + place t.val 0)
  | .vcvtRtz g d a src sat t => some (head 0x19 g + place d.val 15 + place a.val 10 + place src.val 5 + placeB sat 4 + place t.val 0)
  | .vcvtRmi g d a src sat t => some (head 0x1A g + place d.val 15 + place a.val 10 + place src.val 5 + placeB sat 4 + place t.val 0)
  | .vcvtRpi g d a src sat t => some (head 0x1B g + place d.val 15 + place a.val 10 + place src.val 5 + placeB sat 4 + place t.val 0)
  | .qnt g d a b fmt => some (head 0x1C g + place d.val 15 + place a.val 10 + place b.val 5 + place fmt.val 0)
  | .qntNs g d a b fmt => some (head 0x1D g + place d.val 15 + place a.val 10 + place b.val 5 + place fmt.val 0)
  | .dqn g d a b fmt => some (head 0x1E g + place d.val 15 + place a.val 10 + place b.val 5 + place fmt.val 0)
  | .ltd g d a lt4 => some (head 0x1F g + place d.val 15 + place a.val 10 + placeB lt4 0)
  | .lte g d a lt4 => some (head 0x20 g + place d.val 15 + place a.val 10 + placeB lt4 0)
  | .had g d a b n32 => some (head 0x22 g + place d.val 15 + place a.val 10 + place b.val 5 + placeB n32 0)
  | .hadInv g d a b n32 => some (head 0x22 g + place d.val 15 + place a.val 10 + place b.val 5 + placeB n32 0 + 0x2)
  | .rngCore g d a => some (head 0x23 g + place d.val 15 + place a.val 10)
  | .rngIdx g d a => some (head 0x23 g + place d.val 15 + place a.val 10 + 0x1)
  | .srnd g d a b fmt => some (head 0x24 g + place d.val 15 + place a.val 10 + place b.val 5 + place fmt.val 0)
  | .exp2 g d a => some (head 0x28 g + place d.val 15 + place a.val 10 + 0xA)
  | .log2 g d a => some (head 0x29 g + place d.val 15 + place a.val 10 + 0xA)
  | .rcp g d a => some (head 0x2A g + place d.val 15 + place a.val 10 + 0xA)
  | .rsq g d a => some (head 0x2B g + place d.val 15 + place a.val 10 + 0xA)
  | .sqrt g d a => some (head 0x2C g + place d.val 15 + place a.val 10 + 0xA)
  | .tanh g d a => some (head 0x2D g + place d.val 15 + place a.val 10 + 0xA)
  | .msmrg g d a => some (head 0x30 g + place d.val 15 + place a.val 10 + 0xA)
  | .mma g a b t zc => some (head 0x38 g + place a.val 16 + place b.val 12 + place t.val 6 + placeB zc 0)
  | .mmas g a b t zc => some (head 0x39 g + place a.val 16 + place b.val 12 + place t.val 6 + placeB zc 0)
  | .mmat g a b t zc => some (head 0x3A g + place a.val 16 + place b.val 12 + place t.val 6 + placeB zc 0)
  | .czero g t => some (head 0x3C g + place t.val 14)
  | .cscl g t q => some (head 0x3C g + place t.val 14 + place q.val 8 + 0x1)
  | .ccvt g t h => some (head 0x3C g + place t.val 14 + place h.val 4 + 0x2)
  | .cadd g t q => some (head 0x3C g + place t.val 14 + place q.val 8 + 0x3)
  | .mdrain g => some (head 0x3D g)
  | .mqry g d => some (head 0x3D g + place d.val 15 + 0x1)
  | .mxcfg g a => some (head 0x3D g + place a.val 10 + 0x2)
  | .stalledIssueResume _ => none
  | .breakpointHalt _ _ => none
  | .debugHalt _ => none
  | .messageArrival _ => none
  | .barrowRefill _ => none
  | .decArrival _ => none
  | .taskDispatch _ => none
  | .waitAging _ _ => none
  | .taskBudget _ => none
  | .taskEndRelease _ => none
  | .bufferedMessageSend _ _ => none
  | .lateFault _ => none
  | .globalRequestAtHome _ _ _ => none
  | .atomicPerform _ _ _ => none
  | .orderedAtomicSend _ _ => none
  | .globalResponse _ _ => none
  | .ackTimeout _ _ => none
  | .crierOrder _ => none
  | .replicaUpdate _ => none
  | .gackExpose _ => none
  | .fwdStoreRemoteVisible _ _ => none
  | .pageWalk _ _ => none
  | .demandServiceExpiry _ => none
  | .parityUpdate _ _ => none
  | .frameZero _ _ => none
  | .engineCommandAccept _ _ => none
  | .engineBlockSend _ _ _ => none
  | .engineBlockArrival _ _ _ _ => none
  | .blockResend _ _ _ => none
  | .engineCommandComplete _ _ => none
  | .collMatch _ _ _ => none
  | .grammarExecute _ _ => none
  | .mxuStart _ => none
  | .mmaRetire _ => none
  | .czeroRetire _ => none
  | .csclRetire _ => none
  | .caddRetire _ => none
  | .sqDoorbell _ _ => none
  | .launchPacket _ => none
  | .graphPacket _ => none
  | .translationInvalidate _ => none
  | .translationInvalidateApply _ => none
  | .invalidateComplete _ => none
  | .dieApplyLaunch _ => none
  | .mapUpdate _ => none
  | .gangGrant _ _ => none
  | .gangComplete _ _ => none
  | .jobCompletionRecord _ => none
  | .preemptStart _ => none
  | .preemptSave _ _ => none
  | .preemptSaveComplete _ _ => none
  | .gangResume _ _ => none
  | .cqhead _ _ => none
  | .abort _ => none
  | .fqdb _ _ => none
  | .gevent _ => none
  | .bar0RegisterWrite _ _ => none
  | .graphKernelComplete _ => none
  | .jobStop _ => none
  | .jobTimeout _ => none
  | .heartbeat _ => none
  | .heartbeatIntervalEnd _ => none
  | .parityLocal _ => none
  | .dieHeartbeat _ => none
  | .dieHeartbeatTimeout _ => none
  | .peerVote _ => none
  | .spareCoreTakeover _ => none
  | .instanceReplay _ _ _ => none
  | .replayRootRestore _ _ _ => none
  | .gangReplay _ _ => none
  | .jobReplay _ => none
  | .domainInstanceEnd _ _ _ => none
  | .stripeRebuild _ _ => none
  | .ptpMessage _ => none
  | .powerGood _ => none
  | .packageReset => none
  | .firmwareImage _ => none
  | .setPlim _ => none
  | .getVersion => none
  | .getCapabilities => none
  | .negotiateAlgorithms => none
  | .getDigests _ => none
  | .getCertificate _ => none
  | .challenge _ _ => none
  | .getMeasurements _ => none
  | .readingRequest _ => none
  | .readingStart _ _ => none
  | .readingEnd _ => none
  | .haltDie _ => none
  | .resumeDie _ => none
  | .dbgctl _ _ => none
  | .dbgstat _ _ => none
  | .trcctl _ _ => none
  | .slctl _ _ => none
  | .debugRegisterWrite _ _ _ => none
  | .debugPathAccess _ _ => none
  | .traceRecordWrite _ => none
  | .stateLogRecordWrite _ => none
  | .droopCapture _ _ => none
  | .droopHoldoffExpiry _ _ => none
  | .dieCacheTakesStore _ _ => none
  | .residencyRequestAtSlice _ _ _ => none

end Sys2Proof
end

