-- ==== Sys2Proof/Machine/Num.lean ====
section
/-! DEFINITION. Number formats, rounding, scaling and reductions (R37 to R69), as exact arithmetic on natural numbers. -/

namespace Sys2Proof.Machine

/-! ### Status flags (R51) -/

/-- The six flag bits of FSTAT. -/
abbrev Flags := BitVec 6
/-- A rounding changed a value. -/
def flInx : Flags := 1#6
/-- A nonzero exact result below the smallest normal magnitude was rounded inexactly. -/
def flUnf : Flags := 2#6
/-- An overflow rule applied. -/
def flOvf : Flags := 4#6
/-- A NaN was produced from non-NaN operands, or a value was placed in a format that cannot hold it. -/
def flInv : Flags := 8#6
/-- An exact infinite result was produced from a finite zero operand. -/
def flDz : Flags := 16#6
/-- A SAMPLE found no legal token. -/
def flNoLegal : Flags := 32#6
/-- The flag if the condition holds. -/
def flagIf (c : Bool) (f : Flags) : Flags := if c then f else 0#6

/-! ### Exact values (R8) -/

/-- An exact value: NaN, a signed infinity, or a signed magnitude `num / den`, zero included. -/
inductive Val
  | nan
  | inf (neg : Bool)
  | fin (neg : Bool) (num den : Nat)
  deriving DecidableEq, Repr

namespace Val

/-- Plus zero. -/
def zero : Val := .fin false 0 1
/-- An integer. -/
def ofInt (i : Int) : Val := .fin (decide (i < 0)) i.natAbs 1
/-- `m * 2^e` with a sign. -/
def dyadic (neg : Bool) (m : Nat) (e : Int) : Val :=
  if 0 ≤ e then .fin neg (m * 2 ^ e.toNat) 1 else .fin neg m (2 ^ (-e).toNat)
/-- Neither NaN nor an infinity. -/
def isFinite : Val → Bool
  | .fin _ _ _ => true
  | _ => false
/-- NaN. -/
def isNan : Val → Bool
  | .nan => true
  | _ => false
/-- A zero of either sign. -/
def isZero : Val → Bool
  | .fin _ n _ => n == 0
  | _ => false
/-- The sign bit; NaN counts as positive. -/
def sign : Val → Bool
  | .nan => false
  | .inf s => s
  | .fin s _ _ => s
/-- Change of sign. -/
def neg : Val → Val
  | .nan => .nan
  | .inf s => .inf (!s)
  | .fin s n d => .fin (!s) n d
/-- Magnitude. -/
def abs : Val → Val
  | .nan => .nan
  | .inf _ => .inf false
  | .fin _ n d => .fin false n d
/-- Give a value the sign `s`. -/
def withSign (s : Bool) : Val → Val
  | .nan => .nan
  | .inf _ => .inf s
  | .fin _ n d => .fin s n d

/-- Exact product; 0 times an infinity is NaN (R62, R244). -/
def mul : Val → Val → Val
  | .nan, _ => .nan
  | _, .nan => .nan
  | .inf s, .inf t => .inf (s ^^ t)
  | .inf s, .fin t n _ => if n == 0 then .nan else .inf (s ^^ t)
  | .fin s n _, .inf t => if n == 0 then .nan else .inf (s ^^ t)
  | .fin s n d, .fin t m e => .fin (s ^^ t) (n * m) (d * e)

/-- Exact sum of two terms (R62): NaN for NaN or opposite infinities; a zero sum is minus zero only when both are. -/
def add : Val → Val → Val
  | .nan, _ => .nan
  | _, .nan => .nan
  | .inf s, .inf t => if s == t then .inf s else .nan
  | .inf s, .fin _ _ _ => .inf s
  | .fin _ _ _, .inf t => .inf t
  | .fin s n d, .fin t m e =>
    let l := Nat.lcm d e
    let a := n * (l / d)
    let b := m * (l / e)
    if s == t then .fin s (a + b) l
    else if a == b then .fin false 0 1
    else if b < a then .fin s (a - b) l
    else .fin t (b - a) l

/-- Exact sum of a list of terms, at least one (R62). -/
def sum : List Val → Val
  | [] => zero
  | v :: vs => vs.foldl add v

/-- `a < b` for values that are not NaN; any relation with NaN is false. -/
def lt : Val → Val → Bool
  | .nan, _ => false
  | _, .nan => false
  | .inf s, .inf t => s && !t
  | .inf s, .fin _ _ _ => s
  | .fin _ _ _, .inf t => !t
  | .fin s n d, .fin t m e =>
    let a : Int := (if s then -1 else 1) * (n * e)
    let b : Int := (if t then -1 else 1) * (m * d)
    decide (a < b)

/-- Equality of values, +0 and −0 equal; false with NaN. -/
def eq (a b : Val) : Bool := !a.isNan && !b.isNan && !lt a b && !lt b a

/-- Halve a value exactly. -/
def half : Val → Val
  | .fin s n d => .fin s n (2 * d)
  | v => v

/-- Floor of log2 of a positive rational. -/
def floorLog2 (num den : Nat) : Int :=
  let k : Int := (Nat.log2 num : Int) - (Nat.log2 den : Int)
  let ge : Bool := if 0 ≤ k then decide (den * 2 ^ k.toNat ≤ num) else decide (den ≤ num * 2 ^ (-k).toNat)
  if ge then k else k - 1

end Val

/-! ### Floating formats (R41 to R43) -/

/-- A floating format: exponent and mantissa bits, bias, whether it has infinities, and its canonical NaN. -/
structure FloatFmt where
  ebits : Nat
  mbits : Nat
  bias : Nat
  hasInf : Bool
  nan : Option Nat
  deriving DecidableEq, Repr

/-- FP64, IEEE binary64 (R38, R43). -/
def fp64 : FloatFmt := ⟨11, 52, 1023, true, some 0x7FF8000000000000⟩
/-- FP32. -/
def fp32 : FloatFmt := ⟨8, 23, 127, true, some 0x7FC00000⟩
/-- E8M10. -/
def e8m10 : FloatFmt := ⟨8, 10, 127, true, some 0x3FE00⟩
/-- BF16. -/
def bf16 : FloatFmt := ⟨8, 7, 127, true, some 0x7FC0⟩
/-- FP16. -/
def fp16 : FloatFmt := ⟨5, 10, 15, true, some 0x7E00⟩
/-- E5M2. -/
def e5m2 : FloatFmt := ⟨5, 2, 15, true, some 0x7E⟩
/-- E4M3. -/
def e4m3 : FloatFmt := ⟨4, 3, 7, false, some 0x7F⟩
/-- E3M2. -/
def e3m2 : FloatFmt := ⟨3, 2, 3, false, none⟩
/-- E2M3. -/
def e2m3 : FloatFmt := ⟨2, 3, 1, false, none⟩
/-- E2M1. -/
def e2m1 : FloatFmt := ⟨2, 1, 1, false, none⟩

namespace FloatFmt

/-- Bits of a code. -/
def bits (F : FloatFmt) : Nat := 1 + F.ebits + F.mbits
/-- The sign bit of a code as a number. -/
def signBit (F : FloatFmt) : Nat := 2 ^ (F.ebits + F.mbits)
/-- The code of the largest finite magnitude, M of R41. -/
def maxCode (F : FloatFmt) : Nat :=
  if F.hasInf then (2 ^ F.ebits - 1) * 2 ^ F.mbits - 1
  else if F.nan.isSome then F.signBit - 2
  else F.signBit - 1
/-- The code of +∞, in a format that has it. -/
def infCode (F : FloatFmt) : Nat := (2 ^ F.ebits - 1) * 2 ^ F.mbits
/-- A code with its sign. -/
def withSign (F : FloatFmt) (neg : Bool) (mag : Nat) : Nat := if neg then mag + F.signBit else mag
/-- The exact value of a finite magnitude code (R42). -/
def magVal (F : FloatFmt) (neg : Bool) (mag : Nat) : Val :=
  let e := mag / 2 ^ F.mbits
  let f := mag % 2 ^ F.mbits
  if e == 0 then .dyadic neg f (1 - (F.bias : Int) - F.mbits)
  else .dyadic neg (2 ^ F.mbits + f) ((e : Int) - F.bias - F.mbits)

/-- The exact value of a code (R42). -/
def decode (F : FloatFmt) (code : Nat) : Val :=
  let neg := code / F.signBit % 2 == 1
  let mag := code % F.signBit
  if mag ≤ F.maxCode then F.magVal neg mag
  else if F.hasInf && mag == F.infCode then .inf neg
  else .nan

/-- The smallest exponent of a normal value. -/
def emin (F : FloatFmt) : Int := 1 - (F.bias : Int)

end FloatFmt

/-! ### Rounding (R9, R53 to R56) -/

/-- The rounding functions of R9; `sto` carries its 16 random bits. -/
inductive Rounding
  | rne
  | rtz
  | rmi
  | rpi
  | sto (b : Nat)
  deriving DecidableEq, Repr

/-- Whether a magnitude `q + rem/den` on a grid goes up to `q + 1`. -/
def roundsUp (r : Rounding) (neg : Bool) (q rem den : Nat) : Bool :=
  match r with
  | .rne => decide (den < 2 * rem) || (2 * rem == den && q % 2 == 1)
  | .rtz => false
  | .rmi => neg && rem != 0
  | .rpi => !neg && rem != 0
  | .sto b => rem != 0 && decide (65536 ≤ rem * 65536 / den + b)

/-- A magnitude on the grid of a format with its exponent unbounded above: the magnitude code below it and the rest
`rem / den` of one spacing (R53, R56). -/
def gridOf (F : FloatFmt) (num den : Nat) : Nat × Nat × Nat :=
  if num == 0 then (0, 0, 1)
  else
    let e := max (Val.floorLog2 num den) F.emin
    -- spacing 2^(e - mbits)
    let s : Int := e - F.mbits
    let n' := if 0 ≤ s then num else num * 2 ^ (-s).toNat
    let d' := if 0 ≤ s then den * 2 ^ s.toNat else den
    let q := n' / d'
    ((e - F.emin).toNat * 2 ^ F.mbits + q, n' % d', d')

/-- The overflow result of R54: ±∞, the NaN 0x7F, or ±M by mode and format. -/
def overflowCode (F : FloatFmt) (sat neg : Bool) : Nat :=
  if sat then F.withSign neg F.maxCode
  else if F.hasInf then F.withSign neg F.infCode
  else match F.nan with
    | some c => c
    | none => F.withSign neg F.maxCode

/-- Round an exact value into a floating format with its flags (R53, R54, R56). -/
def roundTo (F : FloatFmt) (r : Rounding) (sat : Bool) (v : Val) : Nat × Flags :=
  match v with
  | .nan => match F.nan with
    | some c => (c, 0#6)
    | none => (0, flInv)
  | .inf neg =>
    if F.hasInf && !sat then (F.withSign neg F.infCode, 0#6) else (overflowCode F sat neg, flOvf)
  | .fin neg num den =>
    let (q, rem, d) := gridOf F num den
    let mag := if roundsUp r neg q rem d then q + 1 else q
    let beyond := decide (F.maxCode < q) || (q == F.maxCode && rem != 0)
    let tooBig : Bool := match r with
      | .rne => decide (F.maxCode < q) || (q == F.maxCode && decide (d ≤ 2 * rem))
      | .sto _ => decide (F.maxCode < mag)
      | _ => beyond
    if tooBig then
      let code : Nat := match r with
        | .rtz => F.withSign neg F.maxCode
        | .rpi => if neg then F.withSign true F.maxCode else overflowCode F sat false
        | .rmi => if neg then overflowCode F sat true else F.withSign false F.maxCode
        | _ => overflowCode F sat neg
      (code, flOvf ||| flInx)
    else
      (F.withSign neg mag,
        flagIf (rem != 0) flInx ||| flagIf (rem != 0 && decide (q < 2 ^ F.mbits)) flUnf)

/-- `round_rne(v, FP32)` in non-saturating mode, with flags. -/
def rneF32 (v : Val) : Nat × Flags := roundTo fp32 .rne false v

/-- Round to an integer (R55, before the clamp): the integer and whether the value changed. -/
def roundInt (r : Rounding) (neg : Bool) (num den : Nat) : Int × Bool :=
  let q := num / den
  let rem := num % den
  let mag := if roundsUp r neg q rem den then q + 1 else q
  (if neg then -(mag : Int) else mag, rem != 0)

/-- Conversion to an integer range (R55): NaN to 0 with INV, an infinity to the bound with OVF, a value outside after
rounding to the bound with OVF and INX. -/
def toIntRange (lo hi : Int) (r : Rounding) (v : Val) : Int × Flags :=
  match v with
  | .nan => (0, flInv)
  | .inf neg => (if neg then lo else hi, flOvf)
  | .fin neg num den =>
    let (i, ch) := roundInt r neg num den
    if i < lo then (lo, flOvf ||| flInx)
    else if hi < i then (hi, flOvf ||| flInx)
    else (i, flagIf ch flInx)

/-- The low `w` bits of an integer as a code. -/
def intCode (w : Nat) (i : Int) : Nat := (i % (2 ^ w : Int)).toNat
/-- Two's-complement reading of the low `w` bits. -/
def sintN (w c : Nat) : Int :=
  let m := c % 2 ^ w
  if 2 * m < 2 ^ w then (m : Int) else (m : Int) - 2 ^ w

/-! ### Format codes (R37 to R40) -/

/-- A code of R37 that is not reserved. -/
def fmtAssigned (f : Nat) : Bool := decide (f ≤ 28) || (decide (32 ≤ f) && decide (f ≤ 37))
/-- An operand format, codes 1 to 28. -/
def fmtOperand (f : Nat) : Bool := decide (1 ≤ f) && decide (f ≤ 28)
/-- Element bits of a format code (R37). -/
def fmtBits (f : Nat) : Nat :=
  if f == 0 then 8
  else if f ≤ 2 then 32
  else if f ≤ 4 then 16
  else if f ≤ 6 then 8
  else if f ≤ 8 then 6
  else if f == 9 then 4
  else if f ≤ 11 then 8
  else if f ≤ 13 then 6
  else if f == 14 then 4
  else if f == 15 then 8
  else if f == 16 then 4
  else if f == 17 then 6
  else if f == 18 then 4
  else if f ≤ 20 then 8
  else if f ≤ 22 then 4
  else if f ≤ 24 then 2
  else if f == 25 then 8
  else if f == 26 then 4
  else if f == 27 then 8
  else if f == 28 then 4
  else if f == 32 then 64
  else if f ≤ 34 then 16
  else if f ≤ 36 then 32
  else 8
/-- MX-scaled, the MX-scaled table formats included (R37). -/
def fmtMx (f : Nat) : Bool := (decide (10 ≤ f) && decide (f ≤ 15)) || f == 27 || f == 28
/-- B16-scaled (R37). -/
def fmtB16 (f : Nat) : Bool := decide (16 ≤ f) && decide (f ≤ 18)
/-- Scaled formats. -/
def fmtScaled (f : Nat) : Bool := fmtMx f || fmtB16 f
/-- Elements per block: 32, 16, or 0 for an unscaled format (R37). -/
def fmtBlock (f : Nat) : Nat := if fmtMx f then 32 else if fmtB16 f then 16 else 0
/-- The table formats LT8, LT4, MXLT8, MXLT4. -/
def fmtTable (f : Nat) : Bool := decide (25 ≤ f) && decide (f ≤ 28)
/-- The integer group of R60: INT8, NAT8, INT4, NAT4, INT2, TRN2. -/
def fmtIntGroup (f : Nat) : Bool := decide (19 ≤ f) && decide (f ≤ 24)
/-- The BLG value R38 requires of a pointer in the format. -/
def fmtBlg (f : Nat) : Nat := if fmtMx f then 5 else if fmtB16 f then 4 else 0
/-- The floating format of the elements of a code, where they are floating (R41). -/
def fmtFloat (f : Nat) : Option FloatFmt :=
  match f with
  | 1 => some fp32
  | 2 => some e8m10
  | 3 => some bf16
  | 4 => some fp16
  | 5 => some e5m2
  | 6 => some e4m3
  | 7 => some e3m2
  | 8 => some e2m3
  | 9 => some e2m1
  | 10 => some e5m2
  | 11 => some e4m3
  | 12 => some e3m2
  | 13 => some e2m3
  | 14 => some e2m1
  | 16 => some e2m1
  | 17 => some e2m3
  | 32 => some fp64
  | _ => none
/-- The range of an integer format's codes (R46); MXINT8 and B16INT4 by their element codes. -/
def fmtIntRange (f : Nat) : Option (Int × Int) :=
  match f with
  | 15 => some (-128, 127)
  | 18 => some (-8, 7)
  | 19 => some (-128, 127)
  | 20 => some (0, 255)
  | 21 => some (-8, 7)
  | 22 => some (0, 15)
  | 23 => some (-2, 1)
  | 24 => some (-1, 1)
  | 33 => some (-32768, 32767)
  | 34 => some (0, 65535)
  | 35 => some (-2147483648, 2147483647)
  | 36 => some (0, 4294967295)
  | _ => none
/-- Number of scaled-group bytes per block of elements (R40). -/
def fmtBlockBytes (f : Nat) : Nat := fmtBits f * fmtBlock f / 8
/-- Bytes of a scaled group: sixteen scales and sixteen blocks (R40). -/
def fmtGroupBytes (f : Nat) : Nat := 16 + 16 * fmtBlockBytes f

/-- The decode table T: 256 E8M10 codes (R48). -/
abbrev DecodeTable := List (BitVec 19)

/-- The E8M10 code of a small integer, by rounding, which is exact up to 2047. -/
def e8m10OfNat (n : Nat) : BitVec 19 := BitVec.ofNat 19 (roundTo e8m10 .rne false (Val.ofInt n)).1
/-- T at task dispatch: entry c holds the value c (R48). -/
def identityTable : DecodeTable := (List.range 256).map e8m10OfNat
/-- The value of a table entry. -/
def tableVal (T : DecodeTable) (c : Nat) : Val := e8m10.decode (T.getD c 0#19).toNat

/-- The exact value of an element code before any block scale (R42, R46, R48). -/
def decodeElem (T : DecodeTable) (f code : Nat) : Val :=
  match fmtFloat f with
  | some F => F.decode (code % 2 ^ F.bits)
  | none =>
    if fmtTable f then tableVal T (code % 2 ^ fmtBits f)
    else if f == 15 then
      let i := sintN 8 code
      .fin (decide (i < 0)) i.natAbs 64
    else if f == 24 then
      match code % 4 with
      | 1 => .ofInt 1
      | 3 => .ofInt (-1)
      | _ => .zero
    else if f == 37 then
      if code % 256 == 255 then .nan else .dyadic false 1 ((code % 256 : Nat) - 127 : Int)
    else match fmtIntRange f with
      | some (lo, _) => if lo < 0 then .ofInt (sintN (fmtBits f) code) else .ofInt (code % 2 ^ fmtBits f : Nat)
      | none => .ofInt (code % 2 ^ fmtBits f : Nat)

/-- The value of a block's scale code: E8M0 for the MX formats, E4M3 for B16 (R45). -/
def decodeScale (f code : Nat) : Val :=
  if fmtMx f then (if code % 256 == 255 then .nan else .dyadic false 1 ((code % 256 : Nat) - 127 : Int))
  else e4m3.decode (code % 256)

/-- The value of a scaled element (R47): NaN under a NaN scale, else scale times element; an infinite element under a
zero scale of R45 cannot arise, since an MX scale is never zero. -/
def decodeScaled (T : DecodeTable) (f scale code : Nat) : Val :=
  (decodeScale f scale).mul (decodeElem T f code)

/-! ### Table encoding (R50) -/

/-- The pair of neighbours of `x` among codes in increasing order. -/
def tableNeighbours (T : DecodeTable) (x : Val) : List Nat → Option (Nat × Nat)
  | [] => none
  | [_] => none
  | a :: b :: rest =>
    if (tableVal T a).lt x && x.lt (tableVal T b) then some (a, b) else tableNeighbours T x (b :: rest)

/-- `table_encode(x, T, cmax)` of R50: the code and its flags. -/
def tableEncode (T : DecodeTable) (cmax : Nat) (x : Val) : Nat × Flags :=
  let codes := List.range (cmax + 1)
  let L := codes.filter fun c => !(tableVal T c).isNan
  if x.isNan then
    match codes.find? fun c => (tableVal T c).isNan with
    | some c => (c, 0#6)
    | none => (0, flInv)
  else match L with
    | [] => (0, flInv)
    | first :: _ =>
      match L.find? fun c => (tableVal T c).eq x with
      | some c => (c, 0#6)
      | none =>
        let last := L.getLastD first
        if x.lt (tableVal T first) then (first, flOvf ||| flInx)
        else if (tableVal T last).lt x then (last, flOvf ||| flInx)
        else match tableNeighbours T x L with
          | none => (first, flOvf ||| flInx)
          | some (lo, hi) =>
            let vlo := tableVal T lo
            let vhi := tableVal T hi
            let mid := if !vlo.isFinite && !vhi.isFinite then Val.zero else (vlo.add vhi).half
            if x.lt mid then (lo, flInx)
            else if mid.lt x then (hi, flInx)
            else if lo % 2 == 0 then (lo, flInx) else (hi, flInx)

/-- The highest code of a table format (R50). -/
def tableMax (f : Nat) : Nat := if fmtBits f == 8 then 255 else 15

/-- A table is monotone (R49): its non-NaN entries never decrease. -/
def tableMonotone (T : DecodeTable) : Bool :=
  let L := (List.range 256).filter fun c => !(tableVal T c).isNan
  (L.zip (L.drop 1)).all fun (a, b) => !(tableVal T b).lt (tableVal T a)

/-! ### Narrowing to any format (R53 to R57) -/

/-- Narrow an exact value into the element codes of a format (R54, R55, R50). -/
def encodeElem (T : DecodeTable) (f : Nat) (r : Rounding) (sat : Bool) (v : Val) : Nat × Flags :=
  match fmtFloat f with
  | some F => roundTo F r sat v
  | none =>
    if fmtTable f then tableEncode T (tableMax f) v
    else
      match fmtIntRange f with
      | some (lo, hi) =>
        let v' := if f == 15 then v.mul (.ofInt 64) else v
        let (i, fl) := toIntRange lo hi r v'
        (intCode (fmtBits f) i, fl)
      | none => (0, 0#6)

/-- The exact quotient of R57 with the flags its special rows name. -/
def quotient (x s : Val) : Val × Flags :=
  match x, s with
  | .nan, _ => (.nan, 0#6)
  | _, .nan => (.nan, 0#6)
  | .inf _, .inf _ => (.nan, flInv)
  | .fin a _ _, .inf b => (.fin (a ^^ b) 0 1, 0#6)
  | .inf a, .fin b m _ => (.inf (a ^^ b), flagIf (m == 0) flOvf)
  | .fin a n d, .fin b m e =>
    if m == 0 then (if n == 0 then (.nan, flInv) else (.inf (a ^^ b), flOvf))
    else (.fin (a ^^ b) (n * e) (d * m), 0#6)

/-- Quantise `x` by the scale `s` into a format (R57). -/
def quantise (T : DecodeTable) (f : Nat) (r : Rounding) (sat : Bool) (x s : Val) : Nat × Flags :=
  let (q, fl) := quotient x s
  let (c, fl') := encodeElem T f r sat q
  (c, fl ||| fl')

/-- Floor of log2 of a finite nonzero value's magnitude. -/
def Val.log2Floor : Val → Int
  | .fin _ n d => if n == 0 then 0 else Val.floorLog2 n d
  | _ => 0

/-- The largest magnitude of a list of finite values. -/
def maxAbs (vs : List Val) : Val := vs.foldl (fun m v => if m.lt v.abs then v.abs else m) .zero

/-- `emax(F)` of R58. -/
def emaxOf (T : DecodeTable) (f : Nat) : Int :=
  match f with
  | 10 => 15
  | 11 => 8
  | 12 => 4
  | 13 => 2
  | 14 => 2
  | 15 => 0
  | _ =>
    let g := maxAbs (((List.range (tableMax f + 1)).map (tableVal T)).filter fun v => v.isFinite)
    g.log2Floor

/-- The scale code and element codes of a block (R58, R59), with flags; `rs` gives the rounding of each element. -/
def scaleBlock (T : DecodeTable) (f : Nat) (rs : Nat → Rounding) (vs : List Val) : Nat × List Nat × Flags :=
  let quantAll (s : Val) (fl0 : Flags) : List Nat × Flags :=
    let qs := vs.mapIdx fun i v => quantise T f (rs i) true v s
    (qs.map (·.1), qs.foldl (fun a q => a ||| q.2) fl0)
  if vs.any (fun v => !v.isFinite) then
    (if fmtMx f then 0xFF else 0x7F, vs.map (fun _ => 0), flInv)
  else
    let amax := maxAbs vs
    if fmtMx f then
      if amax.isZero then
        let es := vs.mapIdx fun i v => encodeElem T f (rs i) true v
        (0, es.map (·.1), es.foldl (fun a q => a ||| q.2) 0#6)
      else
        let e := max (-127) (min 127 (amax.log2Floor - emaxOf T f))
        let (cs, fl) := quantAll (.dyadic false 1 e) 0#6
        ((e + 127).toNat, cs, fl)
    else
      if amax.isZero then (0, vs.map (fun _ => 0), 0#6)
      else
        let q := match f, amax with
          | 16, .fin _ n d => Val.fin false n (6 * d)
          | 17, .fin _ n d => Val.fin false (2 * n) (15 * d)
          | _, .fin _ n d => Val.fin false n (7 * d)
          | _, v => v
        let (s, fl) := roundTo e4m3 .rpi true q
        let (cs, fl') := quantAll (e4m3.decode s) fl
        (s, cs, fl')

/-! ### Fixed-tree reductions (R63, R64) -/

/-- One level of the tree: neighbours combine, an odd last one passes through. -/
def pairUp {α : Type} (f : α → α → α) : List α → List α
  | a :: b :: rest => f a b :: pairUp f rest
  | l => l

/-- The tree of R63, level by level; `fuel` bounds the levels. -/
def treeReduce {α : Type} (f : α → α → α) : Nat → List α → Option α
  | _, [] => none
  | _, [a] => some a
  | 0, a :: _ => some a
  | k + 1, l => treeReduce f k (pairUp f l)

/-- Maximum or minimum under R64 of two codes of a floating format: the canonical NaN with a NaN, +0 above −0. -/
def floatPick (F : FloatFmt) (wantMax : Bool) (a b : Nat) : Nat :=
  let va := F.decode a
  let vb := F.decode b
  if va.isNan || vb.isNan then F.nan.getD 0
  else
    let aLess := va.lt vb || (va.eq vb && va.sign && !vb.sign)
    if wantMax then (if aLess then b else a) else (if aLess then a else b)

/-! ### The counter generator (R66, R67) and the Hadamard transform (R69) -/

/-- The 64-bit wrap of a natural number. -/
def wrap64 (n : Nat) : Nat := n % 2 ^ 64

/-- The rounds of `mix` (R66), on 64-bit halves. -/
def mixRounds : Nat → Nat → Nat → Nat → Nat → Nat
  | 0, a, b, _, _ => b * 2 ^ 64 + a
  | k + 1, a, b, ka, kb =>
    let m := a * 0xC4A37E9D2B61F0A5
    let a' := Nat.xor (Nat.xor (m / 2 ^ 64) b) ka
    let b' := Nat.xor (wrap64 m) kb
    mixRounds k a' b' (wrap64 (ka + 0x8F3CA1D56E27B049)) (wrap64 (kb + 0x5D1B93E70C4FA86B))

/-- `mix(key, ctr)` (R66). -/
def mix (key ctr : Nat) : Nat :=
  mixRounds 8 (wrap64 ctr) (ctr / 2 ^ 64 % 2 ^ 64) (wrap64 key) (key / 2 ^ 64 % 2 ^ 64)

/-- The key of R67 from a purpose code, an identity and a seed. -/
def mixKey (purpose ident seed : Nat) : Nat := purpose * 2 ^ 120 + ident % 2 ^ 56 * 2 ^ 64 + wrap64 seed

/-- Parity of the set bits of a number below 2^6. -/
def parity6 (n : Nat) : Bool :=
  (List.range 6).foldl (fun p i => p ^^ (n / 2 ^ i % 2 == 1)) false

/-- HAD and its inverse on a block of FP32 codes (R69), with flags. -/
def hadamard (inverse : Bool) (hseed blk : Nat) (xs : List Nat) : List Nat × Flags :=
  let n := xs.length
  let bits := mix (mixKey 0x04 0 hseed) (wrap64 blk)
  let d (j : Nat) : Bool := bits / 2 ^ j % 2 == 1
  let c : Val := if n == 16 then .fin false 1 4 else fp32.decode 0x3E3504F3
  let vals := xs.map fp32.decode
  let out := (List.range n).map fun i =>
    let terms := vals.mapIdx fun j v =>
      if parity6 (Nat.land i j) ^^ (!inverse && d j) then v.neg else v
    rneF32 ((if inverse && d i then c.neg else c).mul (Val.sum terms))
  (out.map (·.1), out.foldl (fun a q => a ||| q.2) 0#6)

end Sys2Proof.Machine
end

