-- ==== Sys2Proof/Machine/State.lean ====
section
/-! DEFINITION. The state of the package as plain data (INVENTORY.md, State), and the state after reset. -/

namespace Sys2Proof.Machine

/-- Bytes by address: addresses strictly rising, no entry equal to 0, which is what an unlisted address reads as. Used
for the HBM contents (log 4) and for the local buffers of a core (R106, R160). -/
abbrev Memory := List Host.Cell

/-- A sparse map by number, keys strictly rising. -/
abbrev Assoc (α : Type) := List (Nat × α)

/-! ### Registers of a core (R179) -/

/-- The register files a dispatch zeroes (R78): scalar, vector, predicate and loop registers. -/
structure Regs where
  x : Vector Word 32
  v : Vector Vec 32
  k : Vector Bool 8
  lb : Vector Word 2
  le : Vector Word 2
  lc : Vector Word 2
  deriving DecidableEq, Repr

/-- The binding of a window register: its ring and its read and write cursors (R133). -/
structure Binding where
  ring : Nat
  rcur : Nat
  wcur : Nat
  deriving DecidableEq, Repr

/-- What a bundle reads as it stood before the bundle (R165, R181): registers, rights and window bindings. -/
structure Before where
  regs : Regs
  bufacl : BitVec 24
  binds : Assoc Binding
  deriving DecidableEq, Repr

/-! ### Traps and stalls -/

/-- A trap with what its record holds (R339, R342, R343). -/
structure Trap where
  code : Nat
  kind : Nat
  level : Nat
  svc : Nat
  cause : Nat
  addr : Word
  deriving DecidableEq, Repr

/-- Why a bundle stalls at issue. -/
inductive Stall
  /-- A named register is pending on a global request (R225). -/
  | pending
  /-- An acquire load has not returned its value (R226). -/
  | acquire
  /-- A FENCE.acq or FENCE.full waits (R232). -/
  | fence
  /-- The egress queue holds 256 requests (R156). -/
  | egress
  /-- The next sequence block may not be used yet (R267). -/
  | sequence
  /-- The fetch waits for the host's answer to a translation fault (R140). -/
  | fetch
  /-- The MXU queue is full (R295). -/
  | mxuFull
  /-- Bytes held by a queued MXU operation (R303), or a drain or retirement is awaited (R308, R309). -/
  | mxuHeld
  /-- Throttling to hold the power limit keeps back an MXU operation (R36). -/
  | throttle
  deriving DecidableEq, Repr

/-- How the last instruction or bundle of a core ended. -/
inductive Ending
  | done
  | stalled (w : Stall)
  | trapped (t : Trap)
  deriving DecidableEq, Repr

/-- How the meaning of an instruction ends other than by completing. -/
inductive Exit
  | trap (t : Trap)
  | stall (w : Stall)
  deriving DecidableEq, Repr

/-! ### Messages (R266) -/

/-- The domain instance a message or task belongs to for replay (R349, R354): gang, domain number and instance. -/
structure InstanceId where
  job : Nat
  gang : Nat
  dom : Nat
  inst : Nat
  deriving DecidableEq, Repr

/-- A message: its header fields (R266), its payload, and what travels with it unseen by programs: the fork path of a
SPAWN's child (R99), the domain instances whose replay would discard it (R354), how often its trigger was charged
(R353), the job of its sender (R272), whether it is a completion
record (R281), whether a spawn credit is out for it (R98), and the run-queue slot it stands in, of which 30 and 31 are the
two reserved ones (R85). -/
structure Msg where
  dpkg : Nat
  dest : Nat
  chan : Nat
  eop : Nat
  scope : Nat
  ford : Nat
  kind : Nat
  remote : Bool
  xform : Nat
  rcen : Bool
  rch : Nat
  till : Nat
  src : Nat
  seq : Nat
  payload : List Byte
  path : Word
  marks : List InstanceId
  charges : Nat
  job : Nat
  record : Bool
  credit : Bool
  slot : Nat
  deriving DecidableEq, Repr

/-! ### Channels and rings -/

/-- One channel: CHHND, CHCTL, CHCOND, CHTILL, WAIT, JNEXT and its messages in the run queue, oldest first (R79 to R85). -/
structure Channel where
  hnd : Word
  ctl : Word
  cond : Word
  till : Word
  wait : Nat
  jnext : Nat
  queue : List Msg
  deriving DecidableEq, Repr

/-- A ring descriptor (R129) with its count of slots reserved by accepted engine commands (R130). -/
structure Ring where
  head : Nat
  tail : Nat
  buf : Nat
  base : Nat
  slog : Nat
  clog : Nat
  fmt : Nat
  role : Nat
  valid : Bool
  reserved : Nat
  deriving DecidableEq, Repr

/-! ### The task (R77, R90, R91) -/

/-- A buffered operation (R271). -/
inductive Buffered
  | msg (m : Msg)
  | bara (b : Nat)
  | bard (b : Nat)
  deriving DecidableEq, Repr

/-- A preserved local range (R294): buffer, offset and length, and the domain-stack depth it belongs to (0: the task). -/
structure Preserved where
  buf : Nat
  off : Nat
  len : Nat
  depth : Nat
  deriving DecidableEq, Repr

/-- The task a core runs. `serial` tells it apart from every other task of the core. Per ring it holds allowances, pops
and pushes made, and the moves of HEAD and TAIL that no other agent sees yet (R132). `dead` holds the destinations of its requests that failed: no value comes (R225,
R351). -/
structure Task where
  serial : Nat
  chan : Nat
  msg : Msg
  budget : Nat
  left : Nat
  retire : Bool
  spawned : Bool
  path : Word
  spawns : Nat
  popAllow : Assoc Nat
  pushAllow : Assoc Nat
  pops : Vector Nat 16
  pushes : Vector Nat 16
  heads : Vector Nat 16
  tails : Vector Nat 16
  buffered : List Buffered
  domains : List (Nat × Nat)
  enrolled : List (Nat × Nat)
  preserved : List Preserved
  binds : Assoc Binding
  ended : Bool
  dead : List RegName
  deriving DecidableEq, Repr

/-! ### Global requests (R156, R224 to R231, R240, R294) -/

/-- The operation of an atomic (R229, R230). -/
inductive AtomicOp
  | add
  | and
  | or
  | xor
  | min (unsigned : Bool)
  | max (unsigned : Bool)
  | swap
  | cas (cmp : Nat)
  | fadd
  | vor
  deriving DecidableEq, Repr

/-- A residency instruction (R240). -/
inductive Residency
  | pin
  | demote (prio : Nat)
  | evict
  deriving DecidableEq, Repr

/-- What a global request asks. -/
inductive ReqOp
  | load (n : Nat)
  | store (data : List Byte) (gack : Bool)
  | atomic (op : AtomicOp) (n : Nat) (operand : Nat) (ordered : Bool)
  | residency (r : Residency)
  | preserve (len : Nat)
  deriving DecidableEq, Repr

/-- Where a global request is on its way. -/
inductive ReqPhase
  /-- Issued, not yet translated (R139). -/
  | issued
  /-- Waiting for the host's answer to a translation fault under demand service (R140). -/
  | serviced (token : Nat)
  /-- Translated to a physical address, on its way home. -/
  | translated (pa : Nat)
  /-- Applied at the home; a `.gack` store or replicated update may still await exposure (R145, R151). -/
  | applied (pa : Nat) (value : List Byte)
  /-- Ended with a status value to return, for HPIN. -/
  | answered (value : Nat)
  /-- Ended by a late fault that the response carries (R227, R348). -/
  | refused (t : Trap)
  deriving DecidableEq, Repr

/-- A global request of a core, in program order among its list. `pos` is its place in the core's program order,
`marks` the issuing task's domain stack at issue (R351), `exact` holds while its bundle is the last one its task executed
(R342), `sent` once an ordered atomic has left for its home (R231), and `epoch` is how many entries of the broadcast order
the die had applied at its translation (R141). -/
structure Req where
  pos : Nat
  seq : Nat
  serial : Nat
  chan : Nat
  msgId : Nat
  fpc : Word
  job : Nat
  ptr : Word
  op : ReqOp
  dest : Option RegName
  acquire : Bool
  scope : Nat
  release : Bool
  reads : List Nat
  phase : ReqPhase
  leaf : Word
  retries : Nat
  elapsed : Nat
  slices : List Nat
  cached : Bool
  marks : List InstanceId
  exact : Bool
  sent : Bool
  epoch : Nat
  deriving DecidableEq, Repr

/-- A late fault on its way to its core (R348); `ordered` is the program position of its request where that was an ordered
atomic (R231). -/
structure Late where
  trap : Trap
  seq : Nat
  serial : Nat
  chan : Nat
  msgId : Nat
  fpc : Word
  marks : List InstanceId
  exact : Bool
  ordered : Option Nat
  deriving DecidableEq, Repr

/-- A FENCE still holding the core's later stores (R232, R149): its program position, its scope, the stores the core
had read from before it, by stamp, and whether it is a FENCE.full, which holds later loads too (R148). -/
structure Hold where
  pos : Nat
  scope : Nat
  reads : List Nat
  full : Bool
  deriving DecidableEq, Repr

/-! ### The MXU (R295 to R307) -/

/-- A queued operation's work (R304, R307). -/
inductive MxWork
  /-- MMA, MMAS and MMAT: the slots it takes on its data rings (bytes and offsets) and partner rings
  (ring, offset, bytes), and its format pair. -/
  | product (transposed : Bool) (t : Nat) (zc : Bool) (fmtA fmtB : Nat) (slotA slotB : Nat) (offA offB : Nat)
      (ringA ringB : Nat) (partA partB : Option (Nat × Nat × Nat)) (table : DecodeTable)
  | czero (t : Nat)
  | cscl (t : Nat) (alpha beta : Nat) (isrc relu : Bool)
  | cadd (t q : Nat)
  deriving DecidableEq, Repr

/-- An entry of a core's MXU queue (R295): its work and whether the MXU has started it. -/
structure MxOp where
  work : MxWork
  started : Bool
  deriving DecidableEq, Repr

/-! ### Engine commands (R277 to R287, R312 to R338) -/

/-- One write request of an engine (R153, R281): its address in one granule, its bytes, the bits of each byte that it does not
write, and the leaf of its page. -/
structure GranuleWrite where
  pa : Nat
  bytes : List Byte
  keep : List Byte
  leaf : Word
  deriving DecidableEq, Repr

/-- A block of a command (R312 to R314): its bytes as they travel, the copies sent, whether it is verified, whether it is
held in the Barrow of a pre-empted gang (R115), and, once the home has judged it good, its requests still to be applied
(R153). -/
structure Block where
  num : Nat
  bytes : List Byte
  failed : Nat
  waiting : Bool
  verified : Bool
  held : Bool
  requests : List GranuleWrite
  deriving DecidableEq, Repr

/-- The slots a command has reserved on a ring (R131, R315): ring owner, handle, counter value of the first, their number,
how many are pushed or released. -/
structure Reservation where
  core : Nat
  ring : Nat
  first : Nat
  count : Nat
  settled : Nat
  deriving DecidableEq, Repr

/-- The stage of a command (R278). -/
inductive CmdStage
  /-- Issued, held by its release or on its way. -/
  | issued
  /-- Accepted by its engine. -/
  | accepted
  /-- Stopped or finished with a status, its completion still to be posted. -/
  | ended (status : Nat)
  /-- Cancelled with the replay of its task (R341, R354), its slots still to be released. -/
  | cancelled
  deriving DecidableEq, Repr

/-- A cached translation (R139): job, virtual page, its size log2, and the leaf entry. -/
structure TlbEntry where
  job : Nat
  page : Nat
  log : Nat
  leaf : Word
  deriving DecidableEq, Repr

/-- A source byte of a memmove as it stood at acceptance (R282): not read yet, read, or in a granule with an uncorrectable
error (R363). -/
inductive Snap
  | unread
  | byte (b : Byte)
  | bad
  deriving DecidableEq, Repr

/-- An engine command of a core (R278): what it carried at issue, with the gang that issued it (R351), and its progress. `accepted` is its place in the order of
acceptance (R287); `snapshot` the source bytes of a memmove (R282); `fetched` the source granules that have been read for what is sent next (R153); `coded` the scale and codes of the
scale blocks already converted, where a ring's blocks share them (R316); `pages` and `translated` the pages and the steps of its
translation (R313); `stream` the mask a GMASK writes; `contrib` the chunks of its contribution a collective has read (R328);
`stop` the status it stopped with; `outcome` GSTEP's; `globals` its global writes by stamp; `stale` the
invalidations, by SEQ, that its translations precede (R141). -/
structure Cmd where
  pos : Nat
  seq : Nat
  serial : Nat
  chan : Nat
  msgId : Nat
  fpc : Word
  job : Nat
  gang : Nat
  eop : Nat
  scope : Nat
  rcen : Bool
  rch : Nat
  engine : Nat
  payload : List Byte
  table : DecodeTable
  marks : List InstanceId
  reads : List Nat
  use : Nat
  stage : CmdStage
  accepted : Nat
  snapshot : List Snap
  fetched : Assoc (List Byte)
  pages : List TlbEntry
  translated : Nat
  token : Option Nat
  blocks : List Block
  stream : List Byte
  coded : Assoc (Nat × List Nat)
  executed : Bool
  contrib : Assoc (List (Nat × Nat))
  stop : Option Nat
  bytesDone : Nat
  resv : List Reservation
  nans : Nat
  firstNan : Nat
  outcome : Nat
  globals : List Nat
  stale : List Nat
  deriving DecidableEq, Repr

/-- A released message still held in the core (R271): every access with a program position below `pos` comes before it. -/
structure Outgoing where
  msg : Msg
  pos : Nat
  reads : List Nat
  deriving DecidableEq, Repr


/-! ### Faults, debug (R342, R383) -/

/-- The fault registers (R342, R343). -/
structure FaultRegs where
  fcause : Word
  fmsg : Word
  fpc : Word
  fstop : Word
  faddr : Word
  fseq : Word
  fcount : Nat
  deriving DecidableEq, Repr

/-- A trace record in a core's queue (R389). -/
structure TraceRec where
  cycles : Word
  type : Nat
  addr : Word
  value : Word
  count : Nat
  deriving DecidableEq, Repr

/-- The debug block of a core (R383 to R396), with the trace and state-log queues and what the log last recorded. -/
structure Debug where
  dbgctl : Word
  halted : Bool
  cause : Nat
  next : Word
  skipBp : Bool
  dieHalt : Bool
  bp0 : Word
  bp1 : Word
  trcctl : Word
  trcbase : Word
  trcwr : Word
  trcdrop : Nat
  trcQ : List TraceRec
  trcIssued : Nat
  trcLost : Nat
  evsel : Word
  evcnt : Word
  slctl : Word
  slbase : Word
  slwr : Word
  slQ : List Word
  slState : Nat
  slSince : Word
  slLost : Bool
  drptime : Word
  drpaddr : Word
  deriving DecidableEq, Repr

/-- Whether a physical core is working under its logical identity (R358, R360). -/
inductive Life
  | alive
  | failed
  | quarantined
  deriving DecidableEq, Repr

/-- The last use of a block of sequence numbers (R267): whether it was ever used, the counted time since its last number
issued, and the time it must wait. -/
structure SeqBlock where
  age : Nat
  need : Nat
  deriving DecidableEq, Repr

/-- A logical core (INVENTORY.md, core registers). `written` holds the values a task has written to channel registers, by
control-register number, until the next choice of task puts them in force (R84); `posts` the messages of the core's own that
wait for a sequence number, each with whether it enters the core's own queue at once (R267); `throttled` whether the power limit holds back its MXU operations (R36). -/
structure Core where
  regs : Regs
  before : Option Before
  pc : Word
  target : Option Word
  endSeen : Bool
  brkSeen : Bool
  fstat : Flags
  table : DecodeTable
  task : Option Task
  serials : Nat
  positions : Nat
  bundlePos : Nat
  taskCount : BitVec 32
  spcred : Nat
  ackcfg : BitVec 20
  bufacl : BitVec 24
  jobattr : Bool
  jobBudget : Nat
  mapgen : Word
  cycles : Word
  seqctr : Nat
  seqBlocks : Assoc SeqBlock
  chans : Vector Channel 16
  written : Assoc Word
  posts : List (Bool × Msg)
  lastChan : Nat
  rings : Vector Ring 16
  loc : Memory
  reqs : List Req
  cmds : List Cmd
  holds : List Hold
  outbox : List Outgoing
  readFrom : List Nat
  mxq : List MxOp
  mxRetired : Nat
  weight : Nat
  fault : FaultRegs
  dbg : Debug
  late : List Late
  stalled : Option Stall
  collUses : Assoc Nat
  tlb : List TlbEntry
  gang : Option (Nat × Nat)
  rank : Nat
  life : Life
  throttled : Bool
  deriving DecidableEq, Repr

/-! ### Dies, memory and the package -/

/-- A cluster's MXU arbiter (R296): the holder and the operations started in its grant; whether an operation runs. -/
structure Arbiter where
  g : Nat
  u : Nat
  deriving DecidableEq, Repr

/-- A voltage domain of a die (R396): whether it is within 10 µs of a capture, the package time of that capture, and the
triggers since. -/
structure Domain where
  held : Bool
  since : Nat
  missed : Nat
  deriving DecidableEq, Repr

/-- A logical compute die (INVENTORY.md, die state). `mapgen` counts its map updates that concern the die or an MD (R26);
`beats` holds, per core, 0 where a heartbeat came in the interval in progress and else 1 more than the empty intervals
counted, plus 16 where the core was stopped for debug in the interval (R358); `heard` is what each core's last heartbeat
carried: TASKID and the bundle address (R290). `halting` stands from a halt of the die until every core runs again, and
`stopped` from when its last core has halted (R387). -/
structure Die where
  applied : Nat
  mapgen : Word
  coreMap : Assoc (BitVec 8)
  mxus : Assoc Arbiter
  beats : Assoc Nat
  tlb : List TlbEntry
  domains : Assoc Domain
  csUsed : List Nat
  heard : Assoc (Word × Word)
  halting : Bool
  stopped : Bool
  deriving DecidableEq, Repr

/-- A `.fwd` store its own die's cache has taken before its home (R151). -/
structure Early where
  stamp : Nat
  die : Nat
  core : Nat
  pos : Nat
  pa : Nat
  bytes : List Byte
  deriving DecidableEq, Repr

/-- A store applied at its home that some dies do not see yet (R151): what the bytes were before, and those dies.
`crier` is its place in the Crier order, on a replicated page (R145), `job` the job that made it (R374). -/
structure Lag where
  stamp : Nat
  job : Nat
  core : Nat
  pos : Nat
  pa : Nat
  old : List Byte
  unseen : List Nat
  crier : Option Nat
  deriving DecidableEq, Repr

/-- Who made a store that the home holds for the Crier: a request of a core, or a write of an engine command. -/
structure Author where
  job : Nat
  core : Nat
  pos : Nat
  seq : Nat
  engine : Bool
  deriving DecidableEq, Repr

/-- A `.gack` store or an update of a replicated page at its home (R145, R151): its data, the bits of each byte that it does not
write (none where the list is empty), whether it is to be exposed to every die at once, its Crier position once it has one, whether its home has applied it, and whether its page is
erasure-protected. -/
structure Update where
  stamp : Nat
  author : Author
  pa : Nat
  bytes : List Byte
  keep : List Byte
  gack : Bool
  replicated : Bool
  crier : Option Nat
  atHome : Bool
  ecp : Bool
  deriving DecidableEq, Repr

/-- A delta on its way to the parity of a stripe (R332). -/
structure ParityDelta where
  stamp : Nat
  author : Author
  pa : Nat
  delta : List Byte
  applied0 : Bool
  applied1 : Bool
  deriving DecidableEq, Repr

/-- What is on its way between agents. -/
structure Net where
  msgs : List Msg
  early : List Early
  lags : List Lag
  updates : List Update
  stamps : Nat
  crierNext : Nat
  replPos : Vector Nat 8
  parity : List ParityDelta
  deriving DecidableEq, Repr

/-! ### Jobs and gangs (R77, R105 to R116, R347 to R356, R370) -/

/-- The fields of a launch packet (R370, R371). -/
structure Launch where
  prio : Nat
  repro : Bool
  demand : Bool
  retry : Nat
  tmo : Nat
  jreplay : Nat
  dmask : Nat
  jobId : Word
  seed : Word
  ng : Nat
  ghl : Nat
  gwl : Nat
  cred : Nat
  budget : Nat
  tbase : Nat
  barrow : Nat
  brecs : Nat
  save : Nat
  svclim : Nat
  jtime : Nat
  bufacl : BitVec 24
  bars : List Byte
  deps : List Word
  tag : Word
  chans : List (List Word)
  cws : List Word
  deriving DecidableEq, Repr

/-- Why a job was stopped (R347), in the STATUS codes of R374. -/
inductive StopStatus
  | faulted
  | failed
  | memlost
  | timeout
  | barrowFull
  | aborted
  deriving DecidableEq, Repr

/-- A job the I/O die has taken (R372): its packet, queue, broadcast SEQ, the SEQ that places it, its priority under the
queue's cap, the jobs it depends on, stop, what its completion record counts, and the collective uses (GID, use) whose commands disagree
(R285). -/
structure Job where
  launch : Launch
  queue : Nat
  graph : Option Word
  seq : Nat
  placeSeq : Nat
  eprio : Nat
  deps : List Nat
  broadcastAt : Nat
  stop : Option StopStatus
  stopped : Bool
  replaying : Bool
  completed : Bool
  replays : Nat
  charges : Nat
  discarded : Nat
  mismatched : List (Nat × Nat)
  deriving DecidableEq, Repr

/-- A barrier of a gang (R102): enable and continuation channel, expected count, phase, the ranks that arrived by BARA and
by BARD in the phase, and those that dropped. -/
structure Barrier where
  en : Bool
  chan : Nat
  expected : Nat
  phase : Nat
  arrived : List Nat
  leaving : List Nat
  dropped : List Nat
  deriving DecidableEq, Repr

/-- A member of a domain instance (R349): a task of a core, and whether it still has the instance on its stack. -/
structure Member where
  core : Nat
  serial : Nat
  enrolled : Bool
  deriving DecidableEq, Repr

/-- A containment-domain instance of a gang (R349, R350). `replaying` from its charge on; with `done` set as well its
roots have been restored and the reruns open a new instance of the same id (R354). -/
structure DomInstance where
  dom : Nat
  inst : Nat
  isSealed : Bool
  done : Bool
  replaying : Bool
  members : List Member
  roots : List (Nat × Msg)
  below : Option (Nat × Nat)
  coll : Bool
  charges : Nat
  deriving DecidableEq, Repr

/-- What pre-emption saves of a core (R113, R344). -/
structure SavedCore where
  loc : Memory
  rings : Vector Ring 16
  chans : Vector Channel 16
  spcred : Nat
  taskCount : BitVec 32
  bufacl : BitVec 24
  fault : FaultRegs
  deriving DecidableEq, Repr

/-- Where a gang stands (R111, R113, R114). -/
inductive GangState
  | queued
  | running
  | preempting
  | saving
  | saved
  | complete
  deriving DecidableEq, Repr

/-- A Barrow record (R86, R115): a message, or a verified block of the engine command at program position `pos` of a core,
on its way into the buffers of the core `dest`. -/
inductive BarrowRec
  | msg (m : Msg)
  | block (dest core pos num : Nat) (bytes : List Byte)
  deriving DecidableEq, Repr

/-- A gang of a job (R105): its block, its barriers, its Barrow with the number of records written to it so far (`aside` the
records of a core behind one that is being replayed, empty between steps), the ranks
that have retired, its saved cores, its instances and charges. `resuming` are the cores whose Barrow records are to move in
before they choose a task again (R114). -/
structure Gang where
  job : Nat
  g : Nat
  die : Nat
  row0 : Nat
  col0 : Nat
  state : GangState
  bars : Vector Barrier 8
  barrow : List BarrowRec
  aside : List BarrowRec
  spills : Nat
  resuming : List Nat
  retired : List Nat
  saved : List SavedCore
  insts : List DomInstance
  charges : Nat
  charged : Bool
  outside : Bool
  deriving DecidableEq, Repr

/-! ### The I/O die (R25, R30, R109, R145, R368 to R378) -/

/-- A change of a map entry (R22, R23, R25). -/
inductive MapChange
  | core (n : Nat) (entry : BitVec 8)
  | xd (n : Nat) (entry : BitVec 32)
  | md (n : Nat) (entry : BitVec 32)
  deriving DecidableEq, Repr

/-- An entry of the broadcast order (R25, R109, R141); its SEQ is its place in the log. -/
inductive LogEntry
  | launch (job : Nat)
  | map (m : MapChange)
  | invalidate (job : Word) (va len : Nat) (queue : Nat) (tag : Word)
  | completion (job : Nat)
  deriving DecidableEq, Repr

/-- A completion record waiting for room in its CQ (R369): its 64 bytes. -/
structure CqRecord where
  bytes : List Byte
  deriving DecidableEq, Repr

/-- The register set of one SQ and the CQ of the same number (R368), with records held for the CQ (R369) and the indexes of
entries that an ABORT has removed from the SQ (R373). -/
structure Queue where
  sqbase : Nat
  sqen : Bool
  pmax : Nat
  cqn : Nat
  sqlog : Nat
  sqtail : Nat
  sqhead : Nat
  cqbase : Nat
  cqen : Bool
  vec : Nat
  cqlog : Nat
  cqhead : Nat
  cqtail : Nat
  held : List CqRecord
  gone : List Nat
  deriving DecidableEq, Repr

/-- The fault ring's registers (R375). -/
structure FaultRing where
  base : Nat
  en : Bool
  vec : Nat
  tail : Nat
  phase : Bool
  head : Nat
  deriving DecidableEq, Repr

/-- An outstanding translation fault (R140, R375): its token, what waits, its job, the fault's level and cause, and when
it was sent. -/
structure Token where
  token : Nat
  who : WalkRef
  job : Nat
  level : Nat
  cause : Nat
  since : Nat
  deriving DecidableEq, Repr

/-- A graph node (R376). -/
structure Node where
  kind : Nat
  flag : Bool
  next : Nat
  alt : Nat
  addr : Nat
  max : Nat
  tag : Word
  deriving DecidableEq, Repr

/-- A running graph instance (R376, R377). `packet` is its copy of the launch packet of a kernel that waits to be entered. -/
structure Graph where
  gid : Word
  queue : Nat
  tag : Word
  nodes : List Node
  node : Nat
  run : Nat
  counts : Assoc Nat
  job : Option Nat
  waiting : Bool
  packet : Option (List Byte)
  deriving DecidableEq, Repr

/-- The I/O die. `turn` is whose turn is next in its round-robin: a queue, or 64 for Slaxel (R369). -/
structure Iod where
  log : List LogEntry
  mdApplied : Vector Nat 8
  ptime : Nat
  elapsed : Nat
  sync : Bool
  step : Bool
  queues : Vector Queue 64
  dieMap : Vector (BitVec 32) 24
  mdMap : Vector (BitVec 32) 8
  fq : FaultRing
  tokens : List Token
  nextToken : Nat
  graphs : List Graph
  frames : Assoc Nat
  errMap : List Nat
  invalidated : List Nat
  vectors : List Nat
  discards : Nat
  turn : Nat
  deriving DecidableEq, Repr

/-! ### The service processors (R36, R364, R379 to R382, R392) -/

/-- A bank of firmware (R382): version and digest. -/
structure Firmware where
  version : BitVec 32
  digest : BitVec 256
  deriving DecidableEq, Repr

/-- The firmware of one target: the active bank, the image waiting for the next package reset, and the floor (R382). -/
structure FwBank where
  active : Firmware
  next : Option Firmware
  floor : BitVec 32
  deriving DecidableEq, Repr

/-- What a reading has gathered (R392): `begun` from T0 on, `held` the cores that a gang of its job held at T0. -/
structure Reading where
  req : ReadingReq
  begun : Bool
  held : List Nat
  armed : List Nat
  latched : List (Nat × Nat)
  loss : Bool
  done : Bool
  sum : Nat
  min : Option (Nat × Nat)
  max : Option (Nat × Nat)
  deriving DecidableEq, Repr

/-- What the service processors log. -/
inductive SpLog
  | imageRefused
  | plimRefused (milliwatts : Nat)
  | processorFailed (b : Bool)
  | discarded (core seq : Nat)
  | disagreement (v : VoteSubject)
  | doorbell (q : Nat)
  | parity (core : Nat)
  | coreFailed (core : Nat)
  | droop (physical domain time missed : Nat) (cores : List (Nat × Word × Nat × Nat))
  | reservedEntry (m : MapChange)
  | corrected (addr : Nat)
  | lateAckLost (core seq : Nat)
  | groupMapRefused
  | ecpLeafRefused (pa : Nat)
  deriving DecidableEq, Repr

/-- The requests of the SPDM responder (R381). -/
inductive SpdmRequest
  | version
  | capabilities
  | algorithms
  | digests
  | certificate
  | challenge
  | measurements
  deriving DecidableEq, Repr

/-- The hash of the SPDM responder (R381). -/
inductive HashAlgorithm
  | sha256
  deriving DecidableEq, Repr
/-- Its signature, an extended asymmetric algorithm: LMS_SHA256_M32_H10 with LMOTS_SHA256_N32_W4 under RFC 8554 (R381). -/
inductive SignatureAlgorithm
  | lmsSha256M32H10LmotsN32W4
  deriving DecidableEq, Repr

/-- The last response of the SPDM responder (R381): what it answers, the algorithms it names where it negotiates them, and its
bytes. -/
structure SpdmResponse where
  request : SpdmRequest
  algorithms : Option (HashAlgorithm × SignatureAlgorithm)
  content : List Byte
  deriving DecidableEq, Repr

/-- SPA, SPB and the management interface. `spares` are the on-package spare XDs not in use; `dieBeats` the package time of
each die's last heartbeat, XDs then MDs; `failed` the cores that the monitor has declared failed; `lost` the units declared
lost, numbered likewise, that no spare has replaced; `physFailed` the physical dies that failed, XDs then MDs from 26 on;
`read` what the debug path last read; `domain` the IEEE 1588 domain number (R381); `restarting` the processor that restarts on
its new image (R382), and `due` those that have still to; `groupMap` the members of the package's erasure group: package address and tray (R330);
`memDue` the jobs to be stopped with MEMLOST and `chargeDue` those to be charged once what a loss left is rebuilt (R360). -/
structure Sp where
  spaUp : Bool
  spbUp : Bool
  plim : Nat
  rr : Bool
  spares : List Nat
  fw : Vector FwBank 5
  dieBeats : Vector Nat 32
  suspect : List Nat
  lost : List Nat
  failed : List Nat
  quarantine : List Nat
  physFailed : List Nat
  log : List SpLog
  spdm : Option SpdmResponse
  readings : List Reading
  replaced : List Bool
  read : Option Nat
  domain : Nat
  restarting : Option Bool
  due : List Bool
  groupMap : List (Nat × Nat)
  memDue : List Nat
  chargeDue : List Nat
  deriving DecidableEq, Repr

/-- The erasure group of the package (R330 to R332): its position, the frames of 64 KiB it sets aside as its units 0 to U - 1,
the symbols that stand on the other packages, byte by byte, the units lost and not yet rebuilt (unit and symbol), and the lost
units in the order of their first request. -/
structure Erasure where
  position : Nat
  frames : List Nat
  symbols : Memory
  lost : List (Nat × Nat)
  wanted : List Nat
  deriving DecidableEq, Repr

/-- A replicated page whose copies slices of the package hold (R145): the job that maps it, its physical address and bytes,
and the slices that had room. -/
structure Replica where
  job : Nat
  base : Nat
  len : Nat
  slices : List Nat
  deriving DecidableEq, Repr

/-- Residency of a handle within a job (R143, R144): its range, priority and, while it is pinned, its bytes in each slice. -/
structure Resident where
  job : Nat
  handle : Nat
  base : Nat
  len : Nat
  prio : Nat
  pinned : List Nat
  deriving DecidableEq, Repr

/-! ### The model's schedule -/

/-- What happens next (log 1): a bundle of a core, an event, package time passing, or cycles of a core passing, in some of which
a bank conflict stalls its bundle (R20); and what has
no row of its own in the opcode table: a service processor writes a map entry (R22, R23) or the group map (R330), corrects a
single-bit error (R360), begins or ends throttling a core's MXU operations (R36), takes the IEEE 1588 domain number (R381) or
restarts on its new image (R382), and an uncorrectable error arises in memory (R363). -/
inductive Action
  | bundle (core : Nat)
  | event (i : Instr)
  | elapse (ns : Nat)
  | cycles (core n : Nat)
  | conflict (core n : Nat)
  | mapWrite (m : MapChange)
  | groupMap (members : List (Nat × Nat)) (frames : List Nat)
  | corrected (addr : Nat)
  | throttle (core : Nat) (on : Bool)
  | ptpDomain (n : Nat)
  | restart (b : Bool)
  | memoryError (pa : Nat)
  deriving DecidableEq, Repr

/-- The state of the package. `agenda`, `cur`, `last` and `fresh` are the model's own (log 1, log 5). -/
structure State where
  cores : Assoc Core
  dies : Assoc Die
  mem : Memory
  net : Net
  iod : Iod
  sp : Sp
  jobs : Assoc Job
  gangs : List Gang
  resid : List Resident
  replicas : List Replica
  erasure : Option Erasure
  agenda : List Action
  cur : Nat
  last : Ending
  fresh : Nat
  deriving DecidableEq, Repr

/-- A stop the model raises by name. -/
inductive Fault
  /-- Raised by an event whose arguments name no unit of the package: a core above 24,575, a die above 23, an MD above 7.
  No such unit exists (R13, R14), so nothing can happen there. Safe: no claim can be proved of it. -/
  | noSuchUnit
  deriving DecidableEq, Repr

/-- Why an instruction has no outcome. -/
inductive Refusal
  /-- Raised by the dispatch arm of an instruction whose meaning is not written. Safe. -/
  | notModelled (mnemonic : String)
  deriving DecidableEq, Repr

/-! ### Reset -/

/-- Registers all zero; k0 reads one through its accessor (R78, log 2). -/
def Regs.zero : Regs :=
  ⟨Vector.replicate 32 0, Vector.replicate 32 0, Vector.replicate 8 false, Vector.replicate 2 0,
    Vector.replicate 2 0, Vector.replicate 2 0⟩

/-- A channel after reset (R79 to R83): channel 15 is enabled at priority 7. -/
def Channel.reset (c : Nat) : Channel :=
  ⟨0, if c == 15 then 0x87000000#64 else 0, 0, 0, 0, 0, []⟩

/-- An undefined ring: every bit zero (R129, R236). -/
def Ring.zero : Ring := ⟨0, 0, 0, 0, 0, 0, 0, 0, false, 0⟩

/-- The fault registers at reset (R342, R343). -/
def FaultRegs.zero : FaultRegs := ⟨0, 0, 0, 0, 0, 0, 0⟩

/-- The debug block at reset (R384, R388, R391, R393, R395). -/
def Debug.reset : Debug :=
  ⟨0, false, 0, 0, false, false, 0, 0, 0, 0, 0, 0, [], 0, 0, 0, 0, 0, 0, 0, [], 0, 0, false, 0, 0⟩

/-- A core after package reset; the values that no rule gives, its weight 1 among them, are those of log 2. -/
def Core.reset : Core where
  regs := Regs.zero
  before := none
  pc := 0
  target := none
  endSeen := false
  brkSeen := false
  fstat := 0
  table := identityTable
  task := none
  serials := 0
  positions := 0
  bundlePos := 0
  taskCount := 0
  spcred := 0
  ackcfg := 0x30014#20
  bufacl := 0xFFEFEF#24
  jobattr := false
  jobBudget := 0
  mapgen := 0
  cycles := 0
  seqctr := 0
  seqBlocks := []
  chans := Vector.ofFn fun c => Channel.reset c.val
  written := []
  posts := []
  lastChan := 14
  rings := Vector.replicate 16 Ring.zero
  loc := []
  reqs := []
  cmds := []
  holds := []
  outbox := []
  readFrom := []
  mxq := []
  mxRetired := 0
  weight := 1
  fault := FaultRegs.zero
  dbg := Debug.reset
  late := []
  stalled := none
  collUses := []
  tlb := []
  gang := none
  rank := 0
  life := .alive
  throttled := false

/-- A die after reset: maps at their reset entries, arbiters at theirs (R22, R296). -/
def Die.reset : Die := ⟨0, 0, [], [], [], [], [], [], [], false, false⟩

/-- A queue's registers at reset (R368). -/
def Queue.reset : Queue := ⟨0, false, 7, 0, 0, 0, 0, 0, false, 0, 0, 0, 0, [], []⟩

/-- The I/O die at reset (R23, R30, R32, R368, R375). -/
def Iod.reset : Iod where
  log := []
  mdApplied := Vector.replicate 8 0
  ptime := 0
  elapsed := 0
  sync := false
  step := false
  queues := Vector.replicate 64 Queue.reset
  dieMap := Vector.ofFn fun n => BitVec.ofNat 32 n.val
  mdMap := Vector.ofFn fun n => BitVec.ofNat 32 n.val
  fq := ⟨0, false, 0, 0, true, 0⟩
  tokens := []
  nextToken := 0
  graphs := []
  frames := []
  errMap := []
  invalidated := []
  vectors := []
  discards := 0
  turn := 0

/-- The service processors at reset: the power limit of R36, two spare dies (R365), firmware versions and floors 0
(log 9). -/
def Sp.reset : Sp where
  spaUp := true
  spbUp := true
  plim := 8400000
  rr := false
  spares := [24, 25]
  fw := Vector.replicate 5 ⟨⟨0, 0⟩, none, 0⟩
  dieBeats := Vector.replicate 32 0
  suspect := []
  lost := []
  failed := []
  quarantine := []
  physFailed := []
  log := []
  spdm := none
  readings := []
  replaced := []
  read := none
  domain := 0
  restarting := none
  due := []
  groupMap := []
  memDue := []
  chargeDue := []

/-- The machine right after reset. -/
def State.reset : State where
  cores := []
  dies := []
  mem := []
  net := ⟨[], [], [], [], 0, 0, Vector.replicate 8 0, []⟩
  iod := Iod.reset
  sp := Sp.reset
  jobs := []
  gangs := []
  resid := []
  replicas := []
  erasure := none
  agenda := []
  cur := 0
  last := .done
  fresh := 0

end Sys2Proof.Machine
end

