-- ==== Sys2Proof/Machine/Ops.lean ====
section
/-! DEFINITION. The named operations over registers, memory, rings, sequence numbers, messages and tasks that every
meaning is written with, and taking a trap (R339 to R348). -/

namespace Sys2Proof.Machine

/-! ### Sparse maps -/

/-- The entry of a key. -/
def Assoc.find {α : Type} : Assoc α → Nat → Option α
  | [], _ => none
  | (k, a) :: rest, n => if k == n then some a else Assoc.find rest n

/-- Set the entry of a key, keeping keys in rising order. -/
def Assoc.put {α : Type} : Assoc α → Nat → α → Assoc α
  | [], n, a => [(n, a)]
  | (k, b) :: rest, n, a =>
    if n < k then (n, a) :: (k, b) :: rest
    else if n == k then (n, a) :: rest
    else (k, b) :: Assoc.put rest n a

/-- Remove the entry of a key. -/
def Assoc.drop {α : Type} (l : Assoc α) (n : Nat) : Assoc α := l.filter fun p => p.1 != n

/-! ### Bytes of memory -/

/-- The byte at an address; an unlisted address reads 0 (log 4). -/
def Memory.read : Memory → Nat → Byte
  | [], _ => 0
  | (k, b) :: rest, a => if k == a then b else if a < k then 0 else Memory.read rest a

/-- Write one byte, keeping the canonical form: addresses strictly rising, no zero listed. -/
def Memory.write : Memory → Nat → Byte → Memory
  | [], a, b => if b == 0 then [] else [(a, b)]
  | (k, c) :: rest, a, b =>
    if a < k then (if b == 0 then (k, c) :: rest else (a, b) :: (k, c) :: rest)
    else if a == k then (if b == 0 then rest else (a, b) :: rest)
    else (k, c) :: Memory.write rest a b

/-- The canonical form above a bound: addresses strictly rising from `lo`, no zero listed. -/
def Memory.wfFrom : Nat → Memory → Bool
  | _, [] => true
  | lo, (k, b) :: rest => decide (lo ≤ k) && b != 0 && Memory.wfFrom (k + 1) rest

/-- The canonical form of a memory. -/
def Memory.wf (m : Memory) : Bool := Memory.wfFrom 0 m

/-- The `n` bytes from an address upwards. -/
def Memory.readList (m : Memory) (a n : Nat) : List Byte := (List.range n).map fun i => m.read (a + i)

/-- Write a list of bytes from an address upwards. -/
def Memory.writeList (m : Memory) (a : Nat) : List Byte → Memory
  | [] => m
  | b :: bs => (m.write a b).writeList (a + 1) bs

/-- Little-endian value of bytes (R4). -/
def bytesToNat : List Byte → Nat
  | [] => 0
  | b :: bs => b.toNat + 256 * bytesToNat bs

/-- The `n` little-endian bytes of a value (R4). -/
def natToBytes : Nat → Nat → List Byte
  | 0, _ => []
  | n + 1, v => BitVec.ofNat 8 v :: natToBytes n (v / 256)

/-- The `n`-byte value at an address. -/
def Memory.readNat (m : Memory) (a n : Nat) : Nat := bytesToNat (m.readList a n)
/-- Write an `n`-byte value at an address. -/
def Memory.writeNat (m : Memory) (a n v : Nat) : Memory := m.writeList a (natToBytes n v)
/-- Zero a range: entries inside it are removed. -/
def Memory.zero (m : Memory) (a n : Nat) : Memory := m.filter fun c => decide (c.1 < a) || decide (a + n ≤ c.1)

/-! ### Bit fields -/

/-- Bits `hi` to `lo` of a number. -/
def bitsN (n hi lo : Nat) : Nat := n / 2 ^ lo % 2 ^ (hi + 1 - lo)
/-- One bit of a number. -/
def bitN (n i : Nat) : Bool := n / 2 ^ i % 2 == 1
/-- Bits `hi` to `lo` of a word. -/
def wbits (w : Word) (hi lo : Nat) : Nat := bitsN w.toNat hi lo
/-- One bit of a word. -/
def wbit (w : Word) (i : Nat) : Bool := bitN w.toNat i
/-- A word from a number, modulo 2^64. -/
def word (n : Nat) : Word := BitVec.ofNat 64 n
/-- Whether two byte ranges share a byte. -/
def overlaps (a n b m : Nat) : Bool := decide (a < b + m) && decide (b < a + n) && n != 0 && m != 0

/-! ### Cores and dies of the state -/

/-- Logical cores of the package (R14). -/
def coreCount : Nat := 24576
/-- Logical compute dies (R13). -/
def dieCount : Nat := 24

/-- A core of the package. -/
def State.core (s : State) (n : Nat) : Core := (s.cores.find n).getD Core.reset
/-- Replace a core. -/
def State.setCore (s : State) (n : Nat) (c : Core) : State := { s with cores := s.cores.put n c }
/-- Change a core. -/
def State.modCore (s : State) (n : Nat) (f : Core → Core) : State := s.setCore n (f (s.core n))
/-- A die of the package. -/
def State.die (s : State) (n : Nat) : Die := (s.dies.find n).getD Die.reset
/-- Replace a die. -/
def State.setDie (s : State) (n : Nat) (d : Die) : State := { s with dies := s.dies.put n d }
/-- Change a die. -/
def State.modDie (s : State) (n : Nat) (f : Die → Die) : State := s.setDie n (f (s.die n))
/-- A job. -/
def State.job (s : State) (j : Nat) : Option Job := s.jobs.find j
/-- Change a job that exists. -/
def State.modJob (s : State) (j : Nat) (f : Job → Job) : State :=
  match s.jobs.find j with
  | some b => { s with jobs := s.jobs.put j (f b) }
  | none => s
/-- A gang. -/
def State.gang (s : State) (j g : Nat) : Option Gang := s.gangs.find? fun x => x.job == j && x.g == g
/-- Change a gang. -/
def State.modGang (s : State) (j g : Nat) (f : Gang → Gang) : State :=
  { s with gangs := s.gangs.map fun x => if x.job == j && x.g == g then f x else x }

/-- The die of a core (R14). -/
def dieOf (core : Nat) : Nat := core / 1024
/-- The row of a core within its die. -/
def rowOf (core : Nat) : Nat := core % 1024 / 32
/-- The column of a core within its die. -/
def colOf (core : Nat) : Nat := core % 32
/-- The cluster of a core within its die (R15). -/
def clusterOf (core : Nat) : Nat := rowOf core / 2 * 8 + colOf core / 4
/-- The rank of a core within its cluster (R15). -/
def clusterRank (core : Nat) : Nat := rowOf core % 2 * 4 + colOf core % 4
/-- The core of a given rank of an MXU's cluster (R15). -/
def mxuCore (mxu rank : Nat) : Nat :=
  mxu / 128 * 1024 + (mxu % 128 / 8 * 2 + rank / 4) * 32 + (mxu % 8 * 4 + rank % 4)

/-- Change every channel of a core. -/
def mapChans (v : Vector Channel 16) (f : Channel → Channel) : Vector Channel 16 := Vector.ofFn fun i => f v[i]

/-! ### Exits -/

/-- The trap codes of R339. -/
inductive TrapCode
  | illegalBundle
  | illegalOpcode
  | resField
  | ringUnderrun
  | ringOverrun
  | bufBounds
  | bufAccess
  | align
  | xlateFault
  | protFault
  | fmtMismatch
  | ptrOverflow
  | taskBudget
  | barrierOverrun
  | trapInstr
  | lateRefusal
  | ackLost
  | eccUncorr
  | parityLocal
  deriving DecidableEq, Repr

/-- The 8-bit code of a trap (R339). -/
def TrapCode.code : TrapCode → Nat
  | .illegalBundle => 0x01
  | .illegalOpcode => 0x02
  | .resField => 0x03
  | .ringUnderrun => 0x04
  | .ringOverrun => 0x05
  | .bufBounds => 0x06
  | .bufAccess => 0x07
  | .align => 0x08
  | .xlateFault => 0x09
  | .protFault => 0x0A
  | .fmtMismatch => 0x0B
  | .ptrOverflow => 0x0C
  | .taskBudget => 0x0D
  | .barrierOverrun => 0x0E
  | .trapInstr => 0x0F
  | .lateRefusal => 0x10
  | .ackLost => 0x11
  | .eccUncorr => 0x12
  | .parityLocal => 0x13

/-- The results of operations that may trap or stall. -/
abbrev Run (α : Type) := Except Exit α

/-- A trap that is not an access: KIND 0, LEVEL 7 (R342), with its FADDR value. -/
def trapWith (t : TrapCode) (addr : Word) : Exit := .trap ⟨t.code, 0, 7, 0, 0, addr⟩
/-- A trap that is not an access and names no address. -/
def trapPlain (t : TrapCode) : Exit := trapWith t 0
/-- A trap of a local access: KIND 5, FADDR the local address (R342, R343). -/
def trapLocal (t : TrapCode) (la : Nat) : Exit := .trap ⟨t.code, 5, 7, 0, 0, word la⟩
/-- A trap of a global access raised at issue, by its KIND; FADDR holds the pointer for PROT_FAULT and 0 otherwise
(R343, log 10). -/
def trapGlobal (t : TrapCode) (kind : Nat) (ptr : Word) : Exit :=
  .trap ⟨t.code, kind, 7, 0, 0, if t = .protFault then ptr else 0⟩

/-- Trap unless the condition holds. -/
def orTrap (ok : Bool) (e : Exit) : Run Unit := if ok then .ok () else .error e

/-! ### Registers (R164, R165, R179) -/

/-- The register files a slot reads: those from before the bundle (R165). -/
def Core.old (c : Core) : Regs := match c.before with
  | some b => b.regs
  | none => c.regs
/-- BUFACL as a slot sees it: a CSRW takes effect for the bundle that follows (R126, R181). -/
def Core.acl (c : Core) : BitVec 24 := match c.before with
  | some b => b.bufacl
  | none => c.bufacl

/-- An x register; x0 reads zero. -/
def Regs.getX (r : Regs) (n : Fin 32) : Word := if n = 0 then 0 else r.x[n]
/-- A predicate; k0 reads one. -/
def Regs.getK (r : Regs) (n : Fin 8) : Bool := if n = 0 then true else r.k[n]
/-- Write an x register; a write to x0 is discarded. -/
def Regs.setX (r : Regs) (n : Fin 32) (w : Word) : Regs := if n = 0 then r else { r with x := r.x.set n w }
/-- Write a predicate; a write to k0 is discarded. -/
def Regs.setK (r : Regs) (n : Fin 8) (b : Bool) : Regs := if n = 0 then r else { r with k := r.k.set n b }
/-- Write a v register, no window considered. -/
def Regs.setV (r : Regs) (n : Fin 32) (v : Vec) : Regs := { r with v := r.v.set n v }

/-- The x register a slot reads. -/
def Core.x (c : Core) (n : Fin 32) : Word := c.old.getX n
/-- The predicate a slot reads. -/
def Core.k (c : Core) (n : Fin 8) : Bool := c.old.getK n
/-- Write an x register. -/
def Core.setX (c : Core) (n : Fin 32) (w : Word) : Core := { c with regs := c.regs.setX n w }
/-- Write a predicate. -/
def Core.setK (c : Core) (n : Fin 8) (b : Bool) : Core := { c with regs := c.regs.setK n b }
/-- Write a v register, no window considered. -/
def Core.putV (c : Core) (n : Fin 32) (v : Vec) : Core := { c with regs := c.regs.setV n v }
/-- Raise FSTAT flags (R52). -/
def Core.raise (c : Core) (f : Flags) : Core := { c with fstat := c.fstat ||| f }

/-- Whether an instruction runs (R164). -/
def Core.guardHolds (c : Core) (g : Guard) : Bool := c.k g.gp != g.gn

/-! ### Local buffers (R18, R123 to R127, R220) -/

/-- Bytes of a buffer: A 0, W 1, C 2 (R18). -/
def bufSize (b : Nat) : Nat := if b == 2 then 0x20000 else 0x30000
/-- The place of a buffer byte in a core's local memory. -/
def locKey (b off : Nat) : Nat := b * 0x40000 + off
/-- A constant-window entry (R127). -/
def Core.cwN (c : Core) (n : Nat) : Word := word (c.loc.readNat (locKey 0 (8 * n)) 8)
/-- The right bit of a buffer's BUFACL byte: 7 CORE_R, 6 CORE_W, 5 MXU_R, 4 MXU_W, 3 COPY_R, 2 COPY_W, 1 EDGE_R, 0
EDGE_W (R125). -/
def aclBit (acl : BitVec 24) (b i : Nat) : Bool := bitN acl.toNat (8 * b + i)

/-- The bytes an operand slot of a ring occupies: buffer, offset, length (R130). -/
def Ring.slotAt (r : Ring) (p : Nat) : Nat := r.base + p % 2 ^ r.clog * 2 ^ r.slog

/-- The bytes a queued operation holds until it retires: buffer, offset and length of each range (R303). -/
def MxWork.held : MxWork → List (Nat × Nat × Nat)
  | .product _ t _ _ _ slotA slotB offA offB _ _ partA partB _ =>
    [(2, 2048 * t, 2048), (0, offA, slotA), (1, offB, slotB)]
      ++ (match partA with | some (_, o, z) => [(0, o, z)] | none => [])
      ++ (match partB with | some (_, o, z) => [(1, o, z)] | none => [])
  | .czero t => [(2, 2048 * t, 2048)]
  | .cscl t _ _ _ _ => [(2, 2048 * t, 2048)]
  | .cadd t q => [(2, 2048 * t, 2048), (2, 2048 * q, 2048)]

/-- Whether bytes are held by a queued operation (R303). -/
def Core.heldBytes (c : Core) (b off n : Nat) : Bool :=
  c.mxq.any fun o => o.work.held.any fun (hb, ho, hn) => hb == b && overlaps off n ho hn

/-- Whether bytes lie in a preserved range of the task (R294). -/
def Core.preservedBytes (c : Core) (b off n : Nat) : Bool :=
  match c.task with
  | some t => t.preserved.any fun p => p.buf == b && overlaps off n p.off p.len
  | none => false

/-- The checks of a local access in the order of R220: the buffer and offset it names. -/
def checkLocal (c : Core) (write : Bool) (la n : Nat) : Run (Nat × Nat) :=
  let b := bitsN la 31 30
  let off := bitsN la 17 0
  let size := if b == 3 then 0x100 else bufSize b
  if bitsN la 29 18 != 0 || decide (size < off + n) then .error (trapLocal .bufBounds la)
  else if la % n != 0 then .error (trapLocal .align la)
  else if write then
    if b == 3 || !aclBit c.acl b 6 || (b == 0 && decide (off < 0x800)) || c.preservedBytes b off n then
      .error (trapLocal .bufAccess la)
    else .ok (b, off)
  else if b == 3 && n != 8 then .error (trapLocal .bufAccess la)
  else .ok (b, off)

/-- An acquire load of an earlier bundle has not returned its value; one of this bundle's own C slot holds nothing of its
bundle (R226, R165). -/
def Core.acquiring (c : Core) : Bool := c.reqs.any fun r => r.acquire && decide (r.pos < c.bundlePos)
/-- Stall while an acquire load has not returned its value (R226). -/
def acquireHold (c : Core) : Run Unit := if c.acquiring then .error (.stall .acquire) else .ok ()
/-- Stall a store to bytes that a queued operation holds (R303). -/
def heldStall (c : Core) (b off n : Nat) : Run Unit :=
  if c.heldBytes b off n then .error (.stall .mxuHeld) else .ok ()

/-- HEAD as the task sees it (R132). -/
def Core.headOf (c : Core) (r : Fin 16) : Nat :=
  (c.rings[r].head + (match c.task with | some t => t.heads[r] | none => 0)) % 512
/-- TAIL as the task sees it (R132). -/
def Core.tailOf (c : Core) (r : Fin 16) : Nat :=
  (c.rings[r].tail + (match c.task with | some t => t.tails[r] | none => 0)) % 512

/-- Bits [63:0] of a ring descriptor (R129). -/
def Ring.low (r : Ring) : Nat :=
  r.buf * 2 ^ 62 + r.base * 2 ^ 44 + r.slog * 2 ^ 40 + r.clog * 2 ^ 36 + r.fmt * 2 ^ 30 + r.role * 2 ^ 27 +
    r.valid.toNat * 2 ^ 26
/-- Bits [127:64] of a ring descriptor, from its counters. -/
def ringHigh (head tail : Nat) : Nat := head * 2 ^ 9 + tail

/-- The value of `n` bytes of a local access that has passed its checks; the control space gives ring descriptors as
the task sees them (R124, R132). -/
def Core.loadLocal (c : Core) (b off n : Nat) : Nat :=
  if b == 3 then
    let h : Fin 16 := Fin.ofNat 16 (off / 16)
    if off % 16 == 0 then (c.rings[h]).low else ringHigh (c.headOf h) (c.tailOf h)
  else c.loc.readNat (locKey b off) n

/-- Store `n` bytes of a value at a buffer offset. -/
def Core.storeLocal (c : Core) (b off n v : Nat) : Core := { c with loc := c.loc.writeNat (locKey b off) n v }

/-- The address of a local access (R220). -/
def localAddr (base off : Nat) : Run Nat :=
  let ea := (base + off) % 2 ^ 64
  if 2 ^ 32 ≤ ea then .error (trapLocal .bufBounds ea) else .ok ea

/-- A whole local load (R220, R221, R226). -/
def readLocal (c : Core) (base off n : Nat) : Run Nat := do
  acquireHold c
  let la ← localAddr base off
  let (b, o) ← checkLocal c false la n
  return c.loadLocal b o n

/-- A whole local store (R220, R221, R226, R303). -/
def writeLocal (c : Core) (base off n v : Nat) : Run Core := do
  acquireHold c
  let la ← localAddr base off
  let (b, o) ← checkLocal c true la n
  heldStall c b o n
  return c.storeLocal b o n v

/-! ### Rings and windows (R129 to R133) -/

/-- Slots of a ring. -/
def Ring.slots (r : Ring) : Nat := 2 ^ r.clog
/-- Bytes of a slot. -/
def Ring.slotBytes (r : Ring) : Nat := 2 ^ r.slog
/-- Filled slots from two counters (R130). -/
def filledOf (head tail : Nat) : Nat := (tail + 512 - head % 512) % 512

/-- Filled slots as the task sees them. -/
def Core.filled (c : Core) (r : Fin 16) : Nat := filledOf (c.headOf r) (c.tailOf r)
/-- Free slots as the task sees them, reserved slots excluded (R130). -/
def Core.free (c : Core) (r : Fin 16) : Nat :=
  (c.rings[r]).slots - c.filled r - (c.rings[r]).reserved

/-- Pops the task may still make on a ring (R132). -/
def Core.popsLeft (c : Core) (r : Fin 16) : Nat :=
  match c.task with
  | some t => match t.popAllow.find r.val with
    | some a => min (c.filled r) (a - t.pops[r])
    | none => c.filled r
  | none => c.filled r
/-- Pushes the task may still make on a ring (R132). -/
def Core.pushesLeft (c : Core) (r : Fin 16) : Nat :=
  match c.task with
  | some t => match t.pushAllow.find r.val with
    | some a => min (c.free r) (a - t.pushes[r])
    | none => c.free r
  | none => c.free r

/-- Change the running task. -/
def Core.modTask (c : Core) (f : Task → Task) : Core := { c with task := c.task.map f }

/-- Pop `k` slots: HEAD as the task sees it and its pops (R132, R237). -/
def Core.popSlots (c : Core) (r : Fin 16) (k : Nat) : Core :=
  c.modTask fun t => { t with heads := t.heads.set r ((t.heads[r] + k) % 512), pops := t.pops.set r (t.pops[r] + k) }
/-- Push `k` slots: TAIL as the task sees it and its pushes (R132, R237). -/
def Core.pushSlots (c : Core) (r : Fin 16) (k : Nat) : Core :=
  c.modTask fun t =>
    { t with tails := t.tails.set r ((t.tails[r] + k) % 512), pushes := t.pushes.set r (t.pushes[r] + k) }

/-- The binding of a v register (R133). -/
def Core.binding (c : Core) (v : Fin 32) : Option Binding :=
  match c.task with
  | some t => t.binds.find v.val
  | none => none
/-- The binding of a v register that a slot reads: what the C slot of its own bundle binds is not bound for its X slot
(R165, R239). -/
def Core.readBinding (c : Core) (v : Fin 32) : Option Binding := match c.before with
  | some b => if (b.binds.find v.val).isSome then c.binding v else none
  | none => c.binding v
/-- Whether a v register is a window. -/
def Core.bound (c : Core) (v : Fin 32) : Bool := (c.binding v).isSome
/-- Replace a binding. -/
def Core.setBinding (c : Core) (v : Fin 32) (b : Binding) : Core :=
  c.modTask fun t => { t with binds := t.binds.put v.val b }

/-- Read a bound register: 16 bytes of the slot at HEAD (R133); the acquire hold of R226 applies beside the stalls that R200
lists (log 76). -/
def popWindow (c : Core) (v : Fin 32) (b : Binding) : Run (Vec × Core) := do
  acquireHold c
  let r : Fin 16 := Fin.ofNat 16 b.ring
  let d := c.rings[r]
  if b.rcur == 0 && c.popsLeft r == 0 then .error (trapPlain .ringUnderrun)
  else
    let off := d.slotAt (c.headOf r) + b.rcur
    let value : Vec := BitVec.ofNat 128 (c.loc.readNat (locKey d.buf off) 16)
    let cur := b.rcur + 16
    if cur == d.slotBytes then .ok (value, (c.setBinding v { b with rcur := 0 }).popSlots r 1)
    else .ok (value, c.setBinding v { b with rcur := cur })

/-- Write a bound register: 16 bytes of the slot at TAIL (R133); the write is one by the core, with the rights,
preserved ranges and held bytes of any store (R125, R126, R294, R303): its BUF_ACCESS and its stalls stand beside those that
R200, R201 and R242 list for a window register (log 76). A ring whose TAIL window writes do not move refuses it (R131, log 14). -/
def pushWindow (c : Core) (v : Fin 32) (b : Binding) (value : Vec) : Run Core := do
  acquireHold c
  let r : Fin 16 := Fin.ofNat 16 b.ring
  let d := c.rings[r]
  if d.role != 3 then .error (trapPlain .bufAccess)
  else if b.wcur == 0 && c.pushesLeft r == 0 then .error (trapPlain .ringOverrun)
  else
    let off := d.slotAt (c.tailOf r) + b.wcur
    if !aclBit c.acl d.buf 6 || c.preservedBytes d.buf off 16 then
      .error (trapLocal .bufAccess (d.buf * 2 ^ 30 + off))
    else
      heldStall c d.buf off 16
      let c := { c with loc := c.loc.writeNat (locKey d.buf off) 16 value.toNat }
      let cur := b.wcur + 16
      if cur == d.slotBytes then .ok ((c.setBinding v { b with wcur := 0 }).pushSlots r 1)
      else .ok (c.setBinding v { b with wcur := cur })

/-- Read v registers, each distinct bound one popped once (R133, R241); the values come in the order named. -/
def readVs : List (Fin 32) → List (Fin 32 × Vec) → Core → Run (List Vec × Core)
  | [], _, c => .ok ([], c)
  | v :: vs, seen, c => do
    match c.readBinding v with
    | none =>
      let (rest, c') ← readVs vs seen c
      return (c.old.v[v] :: rest, c')
    | some b =>
      match seen.find? fun p => p.1 == v with
      | some p =>
        let (rest, c') ← readVs vs seen c
        return (p.2 :: rest, c')
      | none =>
        let (value, c1) ← popWindow c v b
        let (rest, c') ← readVs vs ((v, value) :: seen) c1
        return (value :: rest, c')

/-- Read one v register. -/
def readV (v : Fin 32) (c : Core) : Run (Vec × Core) := do
  let (vs, c') ← readVs [v] [] c
  return (vs.headD 0, c')
/-- Write a v register: a push where it is bound (R133). -/
def writeV (v : Fin 32) (value : Vec) (c : Core) : Run Core :=
  match c.binding v with
  | none => .ok (c.putV v value)
  | some b => pushWindow c v b value

/-! ### Sequence numbers and global requests (R156, R224, R225, R267) -/

/-- Unacknowledged requests and commands, as OUTSTANDING counts them (R156, R278). -/
def Core.outstanding (c : Core) : Nat :=
  c.reqs.length + (c.cmds.filter fun m => m.stage = .issued).length

/-- Nanoseconds that must pass before a block of numbers is used again (R267). -/
def seqWait (ackcfg : BitVec 20) : Nat :=
  let retry := min 7 (bitsN ackcfg.toNat 19 16)
  let tmo := if bitsN ackcfg.toNat 15 0 == 0 then 20 else bitsN ackcfg.toNat 15 0
  (retry + 1) * tmo * 1000 + 200000

/-- Whether the first number of a block may be used again (R267). -/
def Core.seqReady (c : Core) : Bool :=
  if c.seqctr % 65536 != 0 then true
  else
    let b := c.seqctr / 65536
    match c.seqBlocks.find b with
    | none => true
    | some k => decide (k.need ≤ k.age) && !(c.reqs.any fun r => r.seq / 65536 == b)
        && !(c.cmds.any fun m => m.stage = .issued && m.seq / 65536 == b)

/-- The next sequence number of a core, taken without waiting (R267). -/
def Core.nextSeq (c : Core) : Nat × Core :=
  (c.seqctr, { c with
    seqctr := (c.seqctr + 1) % 2 ^ 24
    seqBlocks := c.seqBlocks.put (c.seqctr / 65536) ⟨0, seqWait c.ackcfg⟩ })

/-- The next sequence number, stalling at a block that is not free (R267). -/
def takeSeq (c : Core) : Run (Nat × Core) :=
  if c.seqReady then .ok c.nextSeq else .error (.stall .sequence)

/-- The job number that holds a core; 0 for none (jobs are numbered from 1). -/
def Core.jobNo (c : Core) : Nat := match c.gang with
  | some (j, _) => j
  | none => 0

/-- The message id of the running task's trigger (R91). -/
def Core.msgId (c : Core) : Nat := match c.task with
  | some t => t.msg.src * 2 ^ 24 + t.msg.seq
  | none => 0

/-- The serial number of the running task. -/
def Core.serial (c : Core) : Nat := match c.task with
  | some t => t.serial
  | none => 0
/-- The channel the running task came from. -/
def Core.taskChan (c : Core) : Nat := match c.task with
  | some t => t.chan
  | none => 0

/-- Count an event of a reading (R391). -/
def Core.countEvent (c : Core) (event n : Nat) : Core :=
  if wbit c.dbg.evsel 8 && wbits c.dbg.evsel 7 0 == event && !c.dbg.halted then
    { c with dbg := { c.dbg with evcnt := c.dbg.evcnt + word n } }
  else c

/-- The domain instances of the running task's stack, as marks (R349). -/
def Core.marks (c : Core) : List InstanceId :=
  match c.gang, c.task with
  | some (j, g), some t => t.domains.map fun (d, i) => ⟨j, g, d, i⟩
  | _, _ => []

/-- Issue a global request that has passed its checks (R225): it takes a number and counts in OUTSTANDING. -/
def issueReq (c : Core) (ptr : Word) (op : ReqOp) (dest : Option RegName) (acquire : Bool) (scope : Nat)
    (release : Bool) : Run (Nat × Core) := do
  if 256 ≤ c.outstanding then .error (.stall .egress)
  else
    let (seq, c) ← takeSeq c
    let r : Req :=
      { pos := c.positions, seq := seq, serial := c.serial, chan := c.taskChan, msgId := c.msgId, fpc := c.pc,
        job := c.jobNo, ptr := ptr, op := op, dest := dest, acquire := acquire, scope := scope, release := release,
        reads := if release then c.readFrom else [], phase := .issued, leaf := 0, retries := 0, elapsed := 0,
        slices := [], cached := false, marks := c.marks, exact := true, sent := false, epoch := 0 }
    return (seq, ({ c with reqs := c.reqs ++ [r], positions := c.positions + 1 }).countEvent 8 1)

/-- Registers of the running task that wait for the response to a request of an earlier bundle (R225), and those whose
request has failed: no value comes for them (R348, R351). -/
def Core.pendingRegs (c : Core) : List RegName :=
  (c.reqs.filterMap fun r => if r.serial == c.serial && decide (r.pos < c.bundlePos) then r.dest else none) ++
    (match c.task with
    | some t => t.dead
    | none => [])

/-- An address is aligned as a format of its own requires (R40, R120). -/
def elemAligned (fmt va : Nat) : Bool :=
  if fmtScaled fmt then va % 16 == 0 else decide (fmtBits fmt < 8) || fmt == 0 || va % (fmtBits fmt / 8) == 0

/-- The first check of a global access: the pointer itself (R38, R120), for an access of `n` bytes. -/
def checkPointer (kind : Nat) (ptr : Word) (n : Nat) : Run Unit := do
  let fmt := wbits ptr 63 58
  let va := wbits ptr 51 0
  let bytes := fmtBits fmt / 8
  orTrap (wbits ptr 53 52 == 0 && fmtAssigned fmt && wbits ptr 57 54 == fmtBlg fmt) (trapGlobal .fmtMismatch kind ptr)
  orTrap (fmtScaled fmt || decide (fmtBits fmt < 8) || decide (bytes ≤ n)) (trapGlobal .fmtMismatch kind ptr)
  orTrap (elemAligned fmt va) (trapGlobal .align kind ptr)
  orTrap (va % n == 0) (trapGlobal .align kind ptr)

/-! ### Messages generated inside a core (R267 to R269) -/

/-- Put a message on its way. -/
def State.send (s : State) (m : Msg) : State := { s with net := { s.net with msgs := s.net.msgs ++ [m] } }

/-- An internal post or status message of a core to one of its own channels (R269), with its next number. -/
def selfMsg (core : Nat) (seq kind chan : Nat) (payload : List Byte) (job : Nat) : Msg :=
  { dpkg := 0, dest := core, chan := chan, eop := 0, scope := 0, ford := 0, kind := kind, remote := false, xform := 0,
    rcen := false, rch := 0, till := 0, src := core, seq := seq, payload := payload, path := 0, marks := [],
    charges := 0, job := job, record := false, credit := false, slot := 0 }

/-- A message of a core's own takes the core's next number; it waits where the number may not be used yet, and behind
those that wait (R267). `enter` says whether it enters the core's own queue at once, by `place`; else it travels. -/
def State.emit (s : State) (place : Msg → State → State) (core : Nat) (enter : Bool) (m : Msg) : State :=
  let c := s.core core
  if c.posts.isEmpty && c.seqReady then
    let s := s.setCore core c.nextSeq.2
    let m := { m with seq := c.nextSeq.1 }
    if enter then place m s else s.send m
  else s.setCore core { c with posts := c.posts ++ [(enter, m)] }
/-- Post a message from a core to its own channel, by way of its network interface (R269). -/
def State.postFar (s : State) (core kind chan : Nat) (payload : List Byte) (job : Nat) : State :=
  s.emit (fun _ s => s) core false (selfMsg core 0 kind chan payload job)

/-- The 16 bytes of a status record: STATUS and the quoted message id, then DETAIL (R268). -/
def statusBytes (status quoted detail : Nat) : List Byte :=
  natToBytes 8 (status * 2 ^ 40 + quoted) ++ natToBytes 8 detail

/-- Post a status message to channel 15 of a core (R268, R269). -/
def State.status (s : State) (core status quoted detail : Nat) : State :=
  s.postFar core 5 15 (statusBytes status quoted detail) (s.core core).jobNo

/-! ### Jobs -/

/-- Mark a job to be stopped with a status (R346, R347); the first status stands. -/
def State.markStop (s : State) (j : Nat) (st : StopStatus) : State :=
  s.modJob j fun b => if b.stop.isSome || b.completed then b else { b with stop := some st }

/-- Count a discarded message against a job (R107, R346, R397); with no job, the I/O die logs it. -/
def State.countDiscard (s : State) (j : Nat) : State :=
  match s.jobs.find j with
  | some _ => s.modJob j fun b => { b with discarded := b.discarded + 1 }
  | none => { s with iod := { s.iod with discards := s.iod.discards + 1 } }

/-! ### Aborting a task (R97, R341) and taking a trap (R340 to R346) -/

/-- Spawn credits held by a task's buffered messages (R98). -/
def Task.credits (t : Task) : Nat :=
  (t.buffered.filter fun o => match o with
    | .msg m => m.kind == 2
    | _ => false).length

/-- Withdraw a task from every domain instance it is enrolled in (R341). -/
def DomInstance.withdraw (i : DomInstance) (core serial : Nat) : DomInstance :=
  { i with members := i.members.map fun m =>
      if m.core == core && m.serial == serial && m.enrolled then { m with enrolled := false } else m }

/-- Record an abort in the trace queue (R388, R389): TYPE 0x05 with FSTOP and the trap code, 0 for a replay. -/
def Core.trace (c : Core) (type : Nat) (addr value : Word) : Core :=
  let on := wbit c.dbg.trcctl 0 && wbit c.dbg.trcctl (match type with
    | 1 => 1
    | 2 => 2
    | 3 => 3
    | 4 => 3
    | _ => 4)
  if !on then c
  else
    let d := c.dbg
    let r : TraceRec := ⟨c.cycles, type, addr, value, c.taskCount.toNat⟩
    -- a record first makes room for the overflow record of those lost before it (R390)
    let lost : List TraceRec := if d.trcLost == 0 then [] else [⟨c.cycles, 6, 0, word d.trcLost, c.taskCount.toNat⟩]
    let size := 2 ^ (12 + wbits d.trcbase 3 0) / 32
    let full := !wbit d.trcctl 5 && decide (size ≤ d.trcIssued)
    let drop (n : Nat) : Debug := { d with trcdrop := min 0xFFFFFFFF (d.trcdrop + n) }
    if full then { c with dbg := drop 1 }
    else if 16 ≤ d.trcQ.length then { c with dbg := { drop 1 with trcLost := d.trcLost + 1 } }
    else if lost.isEmpty then { c with dbg := { d with trcQ := d.trcQ ++ [r], trcIssued := d.trcIssued + 1 } }
    else if 16 ≤ d.trcQ.length + 1 || (!wbit d.trcctl 5 && decide (size ≤ d.trcIssued + 1)) then
      { c with dbg := { drop 1 with trcQ := d.trcQ ++ lost, trcIssued := d.trcIssued + 1, trcLost := 1 } }
    else { c with dbg := { d with trcQ := d.trcQ ++ lost ++ [r], trcIssued := d.trcIssued + 2, trcLost := 0 } }

/-- Change a channel of a core. -/
def Core.modChan (c : Core) (n : Fin 16) (f : Channel → Channel) : Core := { c with chans := c.chans.set n (f c.chans[n]) }
/-- Set a channel register by its block: 0 CHHND, 1 CHCTL, 2 CHCOND, 3 CHTILL (R180). -/
def Channel.setReg (ch : Channel) (k : Nat) (w : Word) : Channel :=
  match k with
  | 0 => { ch with hnd := w }
  | 1 => { ch with ctl := w }
  | 2 => { ch with cond := w }
  | 3 => { ch with till := w }
  | _ => ch
/-- The channel registers a task has written come into force: its core chooses again (R84, R288). -/
def Core.settleWrites (c : Core) : Core :=
  { c.written.foldl (fun c p => c.modChan (Fin.ofNat 16 p.1) fun ch => ch.setReg ((p.1 - 0x100) / 16) p.2) c with
    written := [] }
/-- JNEXT of a channel whose task is gone: on a JOIN channel, as it was when the task was dispatched, one back (R88). -/
def Channel.stepBack (ch : Channel) : Channel := { ch with jnext := if wbit ch.ctl 29 then (ch.jnext + 15) % 16 else ch.jnext }

/-- What an abort leaves of a core (R341): the task gone, its credits back, its trigger at the head of its queue, EN of
the channel cleared unless the abort is part of a replay, JNEXT of a JOIN channel back by one. Where no bundle has been tried
since a resume, the next one still checks no breakpoint (R385). The registers of the task, the
loop registers among them, keep what they hold until the next dispatch sets them (R217, log 78). -/
def Core.abort (c : Core) (clearEn : Bool) : Core :=
  match c.task with
  | none => c
  | some t =>
    let n : Fin 16 := Fin.ofNat 16 t.chan
    let c1 := (c.modChan n fun ch => { ch.stepBack with queue := t.msg :: ch.queue }).settleWrites
    { c1.modChan n (fun ch => if clearEn then { ch with ctl := ch.ctl &&& ~~~ (0x80000000#64), wait := 0 } else ch) with
      task := none
      target := none
      endSeen := false
      brkSeen := false
      before := none
      stalled := none
      spcred := min 32 (c.spcred + t.credits)
      dbg := { c.dbg with skipBp := c.dbg.skipBp && c.stalled.isNone } }

/-- Write the fault registers for a program fault, or set OVF where a record is held (R342 to R344). -/
def FaultRegs.record (f : FaultRegs) (t : Trap) (late exact : Bool) (msgId : Nat) (fpc fstop : Word) (seq : Nat) :
    FaultRegs :=
  let count := if f.fcount == 0xFFFFFFFF then f.fcount else f.fcount + 1
  if wbit f.fcause 63 then { f with fcause := f.fcause ||| 0x4000000000000000#64, fcount := count }
  else
    { fcause := word (2 ^ 63 + (wbit f.fcause 62).toNat * 2 ^ 62 + t.code * 2 ^ 32 + late.toNat * 2 ^ 31
        + exact.toNat * 2 ^ 30 + t.kind * 2 ^ 27 + t.level * 2 ^ 24 + t.svc * 2 ^ 22 + t.cause * 2 ^ 20)
      fmsg := word msgId
      fpc := fpc &&& 0x000FFFFFFFFFFFF8#64
      fstop := fstop &&& 0x000FFFFFFFFFFFF8#64
      faddr := t.addr
      fseq := word seq
      fcount := count }

/-- DETAIL of a FAULT message (R345). -/
def faultDetail (t : Trap) (late exact : Bool) : Nat :=
  t.code * 2 ^ 56 + late.toNat * 2 ^ 55 + exact.toNat * 2 ^ 54 + wbits t.addr 51 0

/-- Detected errors, class D of R339. -/
def Trap.detected (t : Trap) : Bool := t.code == 0x11 || t.code == 0x12 || t.code == 0x13

/-- Record and report a program fault of a core (R344, R345): the registers, and a FAULT status on channel 15; a fault
of a task from channel 15 stops the job instead (R346). -/
def State.reportFault (s : State) (core : Nat) (t : Trap) (late exact : Bool) (chan msgId : Nat) (fpc fstop : Word)
    (seq job : Nat) : State :=
  let s := s.modCore core fun c => { c with fault := c.fault.record t late exact msgId fpc fstop seq }
  if chan == 15 then s.markStop job .faulted
  else s.status core 0x06 msgId (faultDetail t late exact)

/-- Withdraw the running task of a core from the domain instances of its gang (R341). -/
def State.withdraw (s : State) (core : Nat) : State :=
  let c := s.core core
  match c.gang with
  | some (j, g) => s.modGang j g fun x =>
      { x with insts := x.insts.map fun i => i.withdraw core c.serial }
  | none => s

/-- A fetch that waits for the host's answer ends with its task (R140, R341): its token is no longer outstanding. -/
def State.dropFetch (s : State) (core : Nat) : State :=
  { s with iod := { s.iod with tokens := s.iod.tokens.filter fun t => t.who != .fetch core } }

/-- Abort the running task of a core: R341, with the trace record of R389. -/
def State.abortTask (s : State) (core : Nat) (clearEn : Bool) (fstop : Word) (code : Nat) : State :=
  let s := (s.withdraw core).dropFetch core
  s.modCore core fun c => ((c.countEvent 0x0C 1).trace 5 fstop (word code)).abort clearEn

/-- Charge a job (R353): its replay is due, or, where no further replay is allowed, it is stopped with FAILED. A job whose
replay is already due is not charged again (R367). -/
def State.chargeJob (s : State) (j : Nat) : State :=
  match s.job j with
  | none => s
  | some b =>
    if b.replaying || b.completed then s
    else if b.launch.jreplay ≤ b.replays then s.markStop j .failed
    else s.modJob j fun b => { b with replaying := true, charges := b.charges + 1 }

/-- The replay of a job is due (R356). -/
def State.jobReplaying (s : State) (j : Nat) : Bool := ((s.job j).map (·.replaying)).getD false
/-- Charge a gang (R353): at the job where a message from outside it has been dispatched in it or at its fourth charge;
else its replay is due. One that is being replayed, itself or with its job, is not charged again (R367). -/
def State.chargeGang (s : State) (j g : Nat) : State :=
  match s.gang j g with
  | none => s
  | some x =>
    if x.charged || x.state = .complete || s.jobReplaying j then s
    else if x.outside || 3 ≤ x.charges then s.chargeJob j
    else s.modGang j g fun x => { x with charges := x.charges + 1, charged := true }

/-- An instance of a gang. -/
def Gang.inst (x : Gang) (d i : Nat) : Option DomInstance := x.insts.find? fun n => n.dom == d && n.inst == i
/-- Change an instance of a gang. -/
def Gang.modInst (x : Gang) (d i : Nat) (f : DomInstance → DomInstance) : Gang :=
  { x with insts := x.insts.map fun n => if n.dom == d && n.inst == i then f n else n }

/-- Charge an instance (R353): at the job where it has issued a COLL; at its fourth charge at the instance below it, and
then at the gang; else its replay is due. One that is being replayed, itself or with its gang or job, is not charged again
(R367). The bound on the way outward is the depth of a domain stack. -/
def State.chargeInst (s : State) (j g d i : Nat) : Nat → State
  | 0 => s.chargeGang j g
  | k + 1 =>
    match s.gang j g with
    | none => s
    | some x => match x.inst d i with
      | none => s.chargeGang j g
      | some n =>
        if n.replaying || x.charged || s.jobReplaying j then s
        else if n.done then s.chargeGang j g
        else if n.coll then s.chargeJob j
        else if 3 ≤ n.charges then
          match n.below with
          | some (d', i') => s.chargeInst j g d' i' k
          | none => s.chargeGang j g
        else s.modGang j g fun x => x.modInst d i fun n => { n with charges := n.charges + 1, replaying := true }

/-- The innermost of the instances named that has not ended (R351). -/
def State.openInst (s : State) (marks : List InstanceId) : Option InstanceId :=
  match marks with
  | [] => none
  | m :: _ => match (s.gang m.job m.gang).bind fun x => x.inst m.dom m.inst with
    | some n => if n.done && !n.replaying then none else some m
    | none => none

/-- The commands of a task are cancelled: its abort is part of a replay (R341, R354). -/
def Core.cancelTask (c : Core) (serial : Nat) : Core :=
  { c with cmds := c.cmds.map fun m => if m.serial == serial && (match m.stage with
      | .issued => true
      | .accepted => true
      | _ => false) then { m with stage := .cancelled } else m }

/-- Two messages are one: by source, sequence number and kind (R91). -/
def Msg.same (a b : Msg) : Bool := a.src == b.src && a.seq == b.seq && a.kind == b.kind
/-- The charges of a message stand with it wherever it is logged as a root of a gang's instances too (R350, R353). -/
def State.countRoot (s : State) (core : Nat) (m : Msg) (n : Nat) : State := match (s.core core).gang with
  | some (j, g) => s.modGang j g fun x => { x with insts := x.insts.map fun i => { i with
      roots := i.roots.map fun p => if p.1 == core && p.2.same m then (p.1, { p.2 with charges := n }) else p } }
  | none => s
/-- Count a charge of the running task (R353): with its message; the fourth charge goes to the innermost open instance on its
stack, and then to the gang. -/
def State.countTask (s : State) (core : Nat) : State :=
  let c := s.core core
  match c.task with
  | none => s
  | some t =>
    if t.msg.charges < 3 then
      (s.modCore core fun c => c.modTask fun t => { t with msg := { t.msg with charges := t.msg.charges + 1 } }).countRoot
        core t.msg (t.msg.charges + 1)
    else match c.marks, c.gang with
      | m :: _, _ => s.chargeInst m.job m.gang m.dom m.inst 5
      | [], some (j, g) => s.chargeGang j g
      | [], none => s
/-- Charge a detected error to the running task (R351, R353, R354): it is counted, the task's commands are cancelled (log 41),
and the task is aborted with EN unchanged, so that its trigger stands at the head of its queue. The abort at a fourth charge too
is part of a replay, and cancels its commands (R341). -/
def State.chargeTask (s : State) (core : Nat) : State :=
  let c := s.core core
  match c.task with
  | none => s
  | some t => ((s.countTask core).modCore core fun c => c.cancelTask t.serial).abortTask core false c.pc 0

/-- Whether the running task of a core has a serial number and has not executed END (R348). -/
def Core.running (c : Core) (serial : Nat) : Bool := match c.task with
  | some t => t.serial == serial && !t.ended
  | none => false

/-- DEVID of stepping A0 (R1). -/
def devId : Nat := 0x550A2410
/-- Log an entry of the service processors. -/
def State.logSp (s : State) (e : SpLog) : State := { s with sp := { s.sp with log := s.sp.log ++ [e] } }

/-- The scope that a late error of a request would be charged to is being replayed already (R367): the instance, or, where
none of its marks is open and its task no longer runs, the gang; or their job. -/
def State.scopeReplaying (s : State) (core serial : Nat) (marks : List InstanceId) : Bool :=
  let job (j : Nat) : Bool := ((s.job j).map (·.replaying)).getD false
  let gang (j g : Nat) : Bool := job j || ((s.gang j g).map (·.charged)).getD false
  match s.openInst marks with
  | some m => gang m.job m.gang || (((s.gang m.job m.gang).bind fun x => x.inst m.dom m.inst).map (·.replaying)).getD false
  | none => !(s.core core).running serial && (match (s.core core).gang with
    | some (j, g) => gang j g
    | none => false)

/-- Charge a detected error of a request or command (R351): to the innermost instance on the issuing task's stack at issue
if it has not ended, else to the issuing task if it still runs, else to the gang. -/
def State.chargeIssuer (s : State) (core serial : Nat) (marks : List InstanceId) : State :=
  match s.openInst marks with
  | some m => s.chargeInst m.job m.gang m.dom m.inst 5
  | none =>
    if (s.core core).running serial then s.chargeTask core
    else match (s.core core).gang with
      | some (j, g) => s.chargeGang j g
      | none => s

/-! ### Late faults of the running task (R231, R348, R367) -/

/-- A late fault would be charged to the running task. -/
def State.chargesTask (s : State) (core : Nat) (l : Late) : Bool :=
  l.trap.detected && (s.core core).running l.serial && (s.openInst l.marks).isNone
/-- An ordered atomic (R231). -/
def ReqOp.ordered : ReqOp → Bool
  | .atomic _ _ _ o => o
  | _ => false
/-- Drop the ordered atomics of a core behind a program position that have not been sent: the one there was never performed, so
none of them ever is, whichever task issued it (R231, log 66). No value comes for the destinations of the running task's. -/
def Core.dropUnsent (c : Core) (pos : Nat) : Core :=
  let held (r : Req) : Bool := r.op.ordered && !r.sent && decide (pos < r.pos)
  let gone : List Req := c.reqs.filter held
  { c with reqs := c.reqs.filter fun r => !held r }.modTask fun (t : Task) =>
    { t with dead := ((gone.filter fun (r : Req) => r.serial == t.serial).filterMap Req.dest) ++ t.dead }
/-- A program fault of the running task takes the place of the detected errors charged to it that wait to be delivered: one
abort serves for all of them (R367), and they count as one charge of the task (R353, log 93). -/
def State.absorbErrors (s : State) (core : Nat) : State :=
  let taken := (s.core core).late.filter (s.chargesTask core)
  if taken.isEmpty then s
  else
    let s' := s.modCore core fun c => { c with late := c.late.filter fun l => !s.chargesTask core l }
    (taken.filterMap (·.ordered)).foldl (fun s p => s.modCore core (·.dropUnsent p)) (s'.countTask core)

/-- TAKING A TRAP raised at issue (R97, R340 to R346): FPC and FSTOP name the bundle and EXACT is set; the task is
aborted and its channel's EN cleared; the fault is recorded and reported. A detected error is charged and replayed
instead (R348, R351). The detected errors charged to the same task that wait to be delivered end with its abort (R367). -/
def State.takeTrap (s : State) (core : Nat) (t : Trap) : State :=
  let c := s.core core
  let s := s.modCore core fun c => { c with dbg := { c.dbg with skipBp := false } }
  if t.detected then s.chargeTask core
  else
    let s' := (s.absorbErrors core).abortTask core true c.pc t.code
    s'.reportFault core t false true c.taskChan c.msgId c.pc c.pc 0 c.jobNo

/-! ### Running an instruction -/

/-- How an instruction of the current core ends: its effect; a stall, which changes nothing but records its cause; or a
trap, which is taken. -/
def State.finish (s : State) (r : Run State) : Host.Outcome State Fault Refusal :=
  match r with
  | .ok s' => .next { s' with last := .done }
  | .error (.stall w) => .next { s.modCore s.cur (fun c => { c with stalled := some w }) with last := .stalled w }
  | .error (.trap t) => .next { s.takeTrap s.cur t with last := .trapped t }

/-- Run an encoded instruction on the current core: nothing where its guard is false (R164), so that it waits for no register
it names (log 77); a stall where it names a pending register (R225); else its effect. -/
def runOn (i : Instr) (f : State → Run State) (s : State) : Host.Outcome State Fault Refusal :=
  let c := s.core s.cur
  if !c.guardHolds i.guard then .next { s with last := .done }
  else if (i.sources ++ i.dests).any (fun r => c.pendingRegs.contains r) then s.finish (.error (.stall .pending))
  else s.finish (f s)

/-- Lift an effect on the core alone. -/
def onCore (f : Core → Run Core) (s : State) : Run State :=
  match f (s.core s.cur) with
  | .ok c => .ok (s.setCore s.cur c)
  | .error e => .error e

/-- Lift an effect on the core alone that neither traps nor stalls. -/
def onCorePure (f : Core → Core) (s : State) : Run State := .ok (s.modCore s.cur f)

end Sys2Proof.Machine
end

