-- ==== Sys2Proof/Machine/Operands.lean ====
section
/-! DEFINITION. The operand forms of the instructions: registers, constant-window entries, lanes and pairs (R168 to R179,
R199, R241). -/

namespace Sys2Proof.Machine

/-- The second operand of a C.RRR form: an x register (R202). -/
def Core.opX (c : Core) (b : Fin 32) : Word := c.x b
/-- The constant operand of a C.RRC form: a constant-window entry, read at issue (R168, R199). -/
def Core.opCw (c : Core) (n : Fin 256) : Word := c.cwN n.val
/-- The constant operand of an X.VVC form: the entry twice (R178). -/
def Core.opCwV (c : Core) (n : Fin 256) : Vec :=
  let w := c.cwN n.val
  w ++ w

/-- Lane width in bits of a lane-type code (R11, R176). -/
def laneBits (t : Nat) : Nat :=
  match t with
  | 0 => 8
  | 1 => 16
  | 2 => 32
  | 3 => 64
  | 4 => 8
  | 5 => 16
  | 6 => 32
  | 7 => 64
  | 8 => 16
  | 9 => 16
  | _ => 32
/-- Lanes of a lane-type code. -/
def laneCount (t : Nat) : Nat := 128 / laneBits t
/-- The floating format of a lane-type code from 8 to 11 (R11). -/
def laneFmt (t : Nat) : FloatFmt :=
  match t with
  | 8 => fp16
  | 9 => bf16
  | 10 => fp32
  | _ => e8m10
/-- Lane `i` of a vector read with lanes of `w` bits (R241). -/
def lane (v : Vec) (w i : Nat) : Nat := v.toNat / 2 ^ (w * i) % 2 ^ w
/-- A vector from its lanes of `w` bits, lane 0 lowest. -/
def ofLanes (w : Nat) (l : List Nat) : Vec :=
  BitVec.ofNat 128 (l.foldr (fun x acc => x % 2 ^ w + 2 ^ w * acc) 0)
/-- The lanes of a vector. -/
def lanes (v : Vec) (w : Nat) : List Nat := (List.range (128 / w)).map (lane v w)
/-- The integer value of a lane of a lane-type code from 0 to 7 (R241). -/
def laneInt' (t x : Nat) : Int := if t ≤ 3 then sintN (laneBits t) x else (x : Int)
/-- A floating lane's code: container bits [31:19] of an .e8m10 lane are ignored (R12). -/
def laneCode (t x : Nat) : Nat := if t == 11 then x % 2 ^ 19 else x
/-- Element width in bytes of a two-bit width code (R175). -/
def widthOf (w : Fin 4) : Nat := 2 ^ w.val
/-- The x register as a number. -/
def Core.xN (c : Core) (n : Fin 32) : Nat := (c.x n).toNat

end Sys2Proof.Machine
end

