-- ==== Sys2Proof/Machine/Flags.lean ====
section
/-! DEFINITION. The flag computations: FSTAT from lane results (R51, R52), predicates from compares (R205). -/

namespace Sys2Proof.Machine

/-- The union of the flags of a list of results (R52). -/
def unionFlags (l : List Flags) : Flags := l.foldl (· ||| ·) 0#6

/-- INV where a NaN arises from operands that are not NaN (R51, R52, R62). -/
def newNan (operands : List Val) (result : Val) : Flags :=
  flagIf (result.isNan && !operands.any Val.isNan) flInv

/-- FSTAT after a CSRW: W1C on its six bits (R51, R288). -/
def clearFlags (f : Flags) (w : Word) : Flags := f &&& ~~~ (w.setWidth 6)

/-- The predicates of R205. -/
inductive Relation
  | eq
  | ne
  | lt
  | ge
  | ltu
  | geu
  deriving DecidableEq, Repr

/-- Whether a relation of R205 holds. -/
def Relation.holds (r : Relation) (a b : Word) : Bool :=
  match r with
  | .eq => a == b
  | .ne => a != b
  | .lt => a.slt b
  | .ge => !a.slt b
  | .ltu => a.ult b
  | .geu => !a.ult b

end Sys2Proof.Machine
end

