-- ==== Sys2Proof/Machine/NumFunc.lean ====
section
/-! DEFINITION. The special functions of R70 to R73, the sampling order of R74 and the sampling keys of R75. The tables
of R70 are computed, not stored: values of g, g' and g'' to well beyond the bits that `rni` looks at. -/

namespace Sys2Proof.Machine

/-- Newton's descent to the integer square root, from above; `fuel` bounds the steps. -/
def isqrtLoop (n : Nat) : Nat → Nat → Nat
  | 0, x => x
  | k + 1, x =>
    let y := (x + n / x) / 2
    if y < x then isqrtLoop n k y else x

/-- The integer square root, rounded down. -/
def isqrt (n : Nat) : Nat :=
  if n == 0 then 0
  else
    let b := Nat.log2 n
    isqrtLoop n (b + 2) (2 ^ (b / 2 + 1))

/-- Bits of the fixed-point values of g. -/
def fxBits : Nat := 96
/-- ln 2 times 2^160. -/
def ln2Fx : Nat := 1013035739299659071135698605846798551586536899366
/-- 1 / ln 2 times 2^160. -/
def log2eFx : Nat := 2108501164428393954197770173035669514763056903505

/-- `2^(j/256)` times 2^96: the 256th root of 2^(j + 96 * 256) by eight square roots. -/
def exp2Fx (j : Nat) : Nat :=
  (List.range 8).foldl (fun v _ => isqrt v) (2 ^ (j + fxBits * 256))

/-- The fractional bits of log2 by repeated squaring: `x` in [1, 2) times 2^192. -/
def log2Loop : Nat → Nat → Nat → Nat
  | 0, _, acc => acc
  | k + 1, x, acc =>
    let y := x * x / 2 ^ 192
    if 2 ^ 193 ≤ y then log2Loop k (y / 2) (2 * acc + 1) else log2Loop k y (2 * acc)

/-- `log2(1 + j/256)` times 2^96, rounded down. -/
def log2Fx (j : Nat) : Nat := log2Loop fxBits ((256 + j) * 2 ^ 184) 0

/-- The functions g of R71. -/
inductive Interp
  | log2
  | rcp
  | rsqEven
  | rsqOdd
  | sqrtEven
  | sqrtOdd
  | exp2
  deriving DecidableEq, Repr

/-- `isqrt` of a rational times 2^192: a square root times 2^96. -/
def sqrtFx (num den : Nat) : Nat := isqrt (num * 2 ^ (2 * fxBits) / den)

/-- g(j/256) times 2^96. -/
def Interp.g0 (f : Interp) (j : Nat) : Int :=
  let u := 256 + j
  match f with
  | .log2 => log2Fx j
  | .rcp => (256 * 2 ^ fxBits / u : Nat)
  | .rsqEven => sqrtFx 256 u
  | .rsqOdd => sqrtFx 128 u
  | .sqrtEven => sqrtFx u 256
  | .sqrtOdd => sqrtFx u 128
  | .exp2 => exp2Fx j

/-- g'(j/256) times 2^96, rounded towards minus infinity or within one unit of it. -/
def Interp.g1 (f : Interp) (j : Nat) : Int :=
  let u := 256 + j
  let fl (n : Int) (d : Nat) : Int := n.fdiv d
  match f with
  -- 1 / (ln 2 (1 + t))
  | .log2 => fl (256 * log2eFx : Nat) (u * 2 ^ 64)
  -- -1 / (1 + t)^2
  | .rcp => fl (-(65536 * 2 ^ fxBits : Nat)) (u * u)
  -- -(1/2) (1 + t)^(-3/2)
  | .rsqEven => fl (-(256 * sqrtFx 256 u : Nat)) (2 * u)
  | .rsqOdd => fl (-(256 * sqrtFx 128 u : Nat)) (2 * u)
  -- (1/2) (1 + t)^(-1/2), and for sqrt(2 + 2t) the root of 2 times it
  | .sqrtEven => fl (sqrtFx 256 u : Nat) 2
  | .sqrtOdd => fl (sqrtFx 512 u : Nat) 2
  -- ln 2 * 2^t
  | .exp2 => fl (exp2Fx j * ln2Fx : Nat) (2 ^ 160)

/-- g''(j/256) times 2^96, likewise. -/
def Interp.g2 (f : Interp) (j : Nat) : Int :=
  let u := 256 + j
  let fl (n : Int) (d : Nat) : Int := n.fdiv d
  match f with
  | .log2 => fl (-(65536 * log2eFx : Nat)) (u * u * 2 ^ 64)
  | .rcp => fl (2 * 256 ^ 3 * 2 ^ fxBits : Nat) (u * u * u)
  | .rsqEven => fl (3 * 65536 * sqrtFx 256 u : Nat) (4 * u * u)
  | .rsqOdd => fl (3 * 65536 * sqrtFx 128 u : Nat) (4 * u * u)
  | .sqrtEven => fl (-(256 * sqrtFx 256 u : Nat)) (4 * u)
  | .sqrtOdd => fl (-(256 * sqrtFx 512 u : Nat)) (4 * u)
  | .exp2 => fl (exp2Fx j * ln2Fx * ln2Fx : Nat) (2 ^ 320)

/-- `rni(y * 2^k)` for `y` given times 2^96 (R70). -/
def rniFx (y : Int) (k : Nat) : Int := (y + 2 ^ (fxBits - k - 1)).fdiv (2 ^ (fxBits - k))

/-- `interp(g, m)` (R70). -/
def interp (f : Interp) (m : Nat) : Int :=
  let j := m / 2 ^ 15 % 256
  let d : Int := (m % 2 ^ 15 : Nat)
  rniFx (f.g0 j) 30 + (rniFx (f.g1 j) 30 * d).fdiv (2 ^ 23) + (rniFx (f.g2 j) 29 * d * d).fdiv (2 ^ 46)

/-- The exact value `P * 2^e`. -/
def scaled (P : Int) (e : Int) : Val := .dyadic (decide (P < 0)) P.natAbs e

/-- A finite nonzero FP32 value written as `2^E * (1 + m / 2^23)` (R71): E and m of its magnitude. -/
def normalParts (num den : Nat) : Int × Nat :=
  let e := Val.floorLog2 num den
  let frac := if 0 ≤ e then num * 2 ^ 23 / (den * 2 ^ e.toNat) else num * 2 ^ 23 * 2 ^ (-e).toNat / den
  (e, frac - 2 ^ 23)

/-- The special functions of R70 to R73. -/
inductive SpecialFn
  | exp2
  | log2
  | rcp
  | rsq
  | sqrt
  | tanh
  deriving DecidableEq, Repr

/-- FP32 +∞. -/
def f32Inf : Nat := 0x7F800000
/-- FP32 canonical NaN. -/
def f32Nan : Nat := 0x7FC00000
/-- FP32 minus sign. -/
def f32Neg (neg : Bool) (c : Nat) : Nat := if neg then c + 0x80000000 else c

/-- LOG2 (R71, R72). -/
def log2Fn (x : Val) : Nat × Flags :=
  match x with
  | .nan => (f32Nan, 0#6)
  | .inf s => if s then (f32Nan, flInv) else (f32Inf, 0#6)
  | .fin s n d =>
    if n == 0 then (f32Neg true f32Inf, flDz)
    else if s then (f32Nan, flInv)
    else
      let (e, m) := normalParts n d
      rneF32 ((Val.ofInt e).add (scaled (interp .log2 m) (-30)))

/-- RCP (R71, R72). -/
def rcpFn (x : Val) : Nat × Flags :=
  match x with
  | .nan => (f32Nan, 0#6)
  | .inf s => (f32Neg s 0, 0#6)
  | .fin s n d =>
    if n == 0 then (f32Neg s f32Inf, flDz)
    else
      let (e, m) := normalParts n d
      rneF32 ((scaled (interp .rcp m) (-e - 30)).withSign s)

/-- RSQ (R71, R72). -/
def rsqFn (x : Val) : Nat × Flags :=
  match x with
  | .nan => (f32Nan, 0#6)
  | .inf s => if s then (f32Nan, flInv) else (0, 0#6)
  | .fin s n d =>
    if n == 0 then (f32Neg s f32Inf, flDz)
    else if s then (f32Nan, flInv)
    else
      let (e, m) := normalParts n d
      if e % 2 == 0 then rneF32 (scaled (interp .rsqEven m) (-(e / 2) - 30))
      else rneF32 (scaled (interp .rsqOdd m) (-((e - 1) / 2) - 30))

/-- SQRT (R71, R72). -/
def sqrtFn (x : Val) : Nat × Flags :=
  match x with
  | .nan => (f32Nan, 0#6)
  | .inf s => if s then (f32Nan, flInv) else (f32Inf, 0#6)
  | .fin s n d =>
    if n == 0 then (f32Neg s 0, 0#6)
    else if s then (f32Nan, flInv)
    else
      let (e, m) := normalParts n d
      if e % 2 == 0 then rneF32 (scaled (interp .sqrtEven m) (e / 2 - 30))
      else rneF32 (scaled (interp .sqrtOdd m) ((e - 1) / 2 - 30))

/-- The integer and the 23-bit fraction of a finite value: `n = floor(x)`, `m = floor((x - n) * 2^23)`. -/
def floorParts (s : Bool) (num den : Nat) : Int × Nat :=
  let a : Int := if s then -(num : Int) else num
  let n := a.fdiv den
  let rest := (a - n * den).toNat
  (n, rest * 2 ^ 23 / den)

/-- EXP2 (R71, R72). -/
def exp2Fn (x : Val) : Nat × Flags :=
  match x with
  | .nan => (f32Nan, 0#6)
  | .inf s => if s then (0, 0#6) else (f32Inf, 0#6)
  | .fin s num den =>
    if num == 0 then (0x3F800000, 0#6)
    else if !(x.lt (.ofInt 128)) then (f32Inf, flOvf ||| flInx)
    else if x.lt (.ofInt (-150)) then (0, flUnf ||| flInx)
    else
      let (n, m) := floorParts s num den
      rneF32 (scaled (interp .exp2 m) (n - 30))

/-- A quotient of two finite values as an exact value; the divisor is not zero. -/
def Val.divFin : Val → Val → Val
  | .fin a n d, .fin b m e => .fin (a ^^ b) (n * e) (d * m)
  | v, _ => v

/-- TANH (R73). -/
def tanhFn (x : Val) : Nat × Flags :=
  match x with
  | .nan => (f32Nan, 0#6)
  | .inf s => (f32Neg s 0x3F800000, 0#6)
  | .fin s num den =>
    let a : Val := .fin false num den
    if !(a.lt (.fin false 19 2)) then (f32Neg s 0x3F800000, 0#6)
    else if a.lt (.fin false 1 16) then
      let a3 := (a.mul (a.mul a))
      let a5 := (a3.mul (a.mul a))
      let poly := (a.add ((a3.mul (.fin false 1 3)).neg)).add (a5.mul (.fin false 2 15))
      let (c, fl) := rneF32 (poly.withSign false)
      (f32Neg s c, fl)
    else
      match fp32.decode (rneF32 (a.mul (fp32.decode 0x4038AA3B))).1 with
      | .fin _ zn zd =>
        let (n, m) := floorParts false zn zd
        let V := scaled (interp .exp2 m) (n - 30)
        let (c, fl) := rneF32 ((V.add (.ofInt (-1))).divFin (V.add (.ofInt 1)))
        (f32Neg s c, fl)
      | _ => (f32Nan, 0#6)

/-- A special function on an FP32 code. -/
def specialFn (f : SpecialFn) (code : Nat) : Nat × Flags :=
  let x := fp32.decode code
  match f with
  | .exp2 => exp2Fn x
  | .log2 => log2Fn x
  | .rcp => rcpFn x
  | .rsq => rsqFn x
  | .sqrt => sqrtFn x
  | .tanh => tanhFn x

/-! ### The top-k order (R74) and sampling keys (R75) -/

/-- Element `a` with index `i` precedes `b` with index `j` (R74). -/
def precedes (a : Val) (i : Nat) (b : Val) (j : Nat) : Bool :=
  if a.isNan then b.isNan && decide (i < j)
  else if b.isNan then true
  else b.lt a || (a.eq b && decide (i < j))

/-- The sampling key of a legal token (R75). -/
def sampleKey (jobSeed step beta z g : Nat) : Nat :=
  let w := mix (mixKey 0x03 0 jobSeed) (wrap64 step * 2 ^ 64 + g)
  let u : Val := .fin false (2 * (w % 2 ^ 23) + 1) (2 ^ 24)
  let c1 := (specialFn .log2 (rneF32 u).1).1
  let c2 := (specialFn .log2 (Nat.xor c1 0x80000000)).1
  let gb := (fp32.decode c2).neg
  let s := (rneF32 ((fp32.decode z).mul (fp32.decode beta))).1
  let e := (rneF32 ((fp32.decode s).mul (fp32.decode 0x3FB8AA3B))).1
  (rneF32 ((fp32.decode e).add gb)).1

end Sys2Proof.Machine
end

