-- ==== Sys2Proof/Machine/Arrays.lean ====
section
/-! DEFINITION. Instructions on arrays in the local buffers: LTLD, SAMPLE, TOPKM and OWN (R255, R262 to R265). -/

namespace Sys2Proof.Machine

/-- A range a descriptor names: local address, bytes, alignment, whether it is written, and the buffer it must lie in. -/
structure Range where
  la : Nat
  len : Nat
  align : Nat
  write : Bool
  buf : Option Nat

/-- The checks of a range in the order of R220 and R262. An empty range has no byte: of its place only the address is checked,
which may be the offset just past the buffer's last byte, and not one beyond (DESIGN CHOICE, log 101). -/
def checkRange (c : Core) (r : Range) : Run Unit := do
  let b := bitsN r.la 31 30
  let off := bitsN r.la 17 0
  let size := if b == 3 then 0x100 else bufSize b
  orTrap (decide (r.la < 2 ^ 32) && bitsN r.la 29 18 == 0 && decide (off + r.len ≤ size)) (trapLocal .bufBounds r.la)
  orTrap (r.la % r.align == 0) (trapLocal .align r.la)
  orTrap (b != 3 && (match r.buf with | some k => b == k | none => true)) (trapLocal .bufAccess r.la)
  orTrap (!r.write || (aclBit c.acl b 6 && !(b == 0 && decide (off < 0x800) && r.len != 0)
    && !c.preservedBytes b off r.len)) (trapLocal .bufAccess r.la)

/-- The place in local memory of a local address whose checks passed. -/
def laKey (la : Nat) : Nat := locKey (bitsN la 31 30) (bitsN la 17 0)
/-- A 4-byte word of local memory. -/
def Core.loc32 (c : Core) (la : Nat) : Nat := c.loc.readNat (laKey la) 4
/-- An 8-byte word of local memory. -/
def Core.loc64 (c : Core) (la : Nat) : Nat := c.loc.readNat (laKey la) 8

/-- LTLD (R255): a table that breaks R49 leaves the previous one in force. An address in the control space raises BUF_ACCESS,
and BUF_BOUNDS only where it names no offset of it. -/
def loadTable (a : Fin 32) (c : Core) : Run Core := do
  acquireHold c
  let la := c.xN a
  checkRange c ⟨la, if bitsN la 31 30 == 3 then 1 else 1024, 16, false, none⟩
  let T : DecodeTable := (List.range 256).map fun k => BitVec.ofNat 19 (c.loc32 (la + 4 * k))
  orTrap (tableMonotone T) (trapPlain .fmtMismatch)
  return { c with table := T }

/-- The candidate list of SAMPLE: key and global index of each legal token (R263, R39, R75). -/
def sampleCands (c : Core) (zaddr maddr n beta g0 moff step : Nat) : List (Nat × Nat) :=
  let seed := (c.cwN 230).toNat
  (List.range n).filterMap fun i =>
    let bit := moff + i
    let byte := c.loc.read (laKey maddr + bit / 8)
    if byte.toNat / 2 ^ (bit % 8) % 2 == 1 then
      some (sampleKey seed step beta (c.loc32 (zaddr + 4 * i)) (g0 + i), g0 + i)
    else none
/-- The first candidate in the order of R74. -/
def bestCand : List (Nat × Nat) → Option (Nat × Nat)
  | [] => none
  | p :: rest => match bestCand rest with
    | none => some p
    | some q => if precedes (fp32.decode p.1) p.2 (fp32.decode q.1) q.2 then some p else some q

/-- The empty record of R263 and R264. -/
def emptyRecord : Nat := 0xFFFFFFFF7FC00000

/-- SAMPLE (R262, R263). -/
def sampleOp (d a b : Fin 32) (c : Core) : Run Core := do
  acquireHold c
  let la := c.xN a
  checkRange c ⟨la, 32, 32, false, some 0⟩
  let zaddr := c.loc32 la
  let maddr := c.loc32 (la + 4)
  let n := c.loc32 (la + 8)
  let beta := c.loc32 (la + 12)
  let g0 := c.loc32 (la + 16)
  let moff := c.loc32 (la + 20)
  checkRange c ⟨zaddr, 4 * n, 4, false, none⟩
  checkRange c ⟨maddr, (moff + n + 7) / 8, 1, false, some 0⟩
  orTrap (decide (n ≤ 49152) && decide (moff ≤ 262143) && c.loc64 (la + 24) == 0
    && (n == 0 || decide (g0 + n - 1 ≤ 0xFFFFFFFE))) (trapPlain .fmtMismatch)
  match bestCand (sampleCands c zaddr maddr n beta g0 moff (c.xN b)) with
  | none => return (c.setX d (word emptyRecord)).raise flNoLegal
  | some (k, i) => return (c.setX d (word (i * 2 ^ 32 + k))).raise (flagIf (fp32.decode k).isNan flInv)

/-- Insert a record into a list ordered by R74, after those equal to it. -/
def insertRecord (r : Nat) : List Nat → List Nat
  | [] => [r]
  | q :: rest =>
    if precedes (fp32.decode (r % 2 ^ 32)) (r / 2 ^ 32) (fp32.decode (q % 2 ^ 32)) (q / 2 ^ 32) then r :: q :: rest
    else q :: insertRecord r rest
/-- Records ordered by R74, equal VALUE and INDEX in input order (R264). -/
def sortRecords (l : List Nat) : List Nat := l.foldl (fun acc r => insertRecord r acc) []

/-- Store records one after another. -/
def Core.storeRecords (c : Core) (la : Nat) : List Nat → Core
  | [] => c
  | r :: rest => Core.storeRecords { c with loc := c.loc.writeNat (laKey la) 8 r } (la + 8) rest

/-- TOPKM (R262, R264). -/
def topkOp (d a b : Fin 32) (c : Core) : Run Core := do
  acquireHold c
  let la := c.xN a
  checkRange c ⟨la, 16, 16, false, some 0⟩
  let inaddr := c.loc32 la
  let outaddr := c.loc32 (la + 4)
  let ctl := c.loc32 (la + 8)
  let g0 := c.loc32 (la + 12)
  let mode := bitN ctl 31
  let n := bitsN ctl 14 0
  let kw := c.xN b
  let k := kw % 512
  let size := if mode then 8 else 4
  checkRange c ⟨inaddr, size * n, size, false, none⟩
  checkRange c ⟨outaddr, 8 * k, 8, true, none⟩
  orTrap (decide (1 ≤ k) && decide (k ≤ 256) && kw / 512 == 0 && bitsN ctl 30 15 == 0 && decide (n ≤ 16384)
    && (if mode then g0 == 0 else n == 0 || decide (g0 + n - 1 ≤ 0xFFFFFFFE))
    && !overlaps (laKey inaddr) (size * n) (laKey outaddr) (8 * k)) (trapPlain .fmtMismatch)
  heldStall c (bitsN outaddr 31 30) (bitsN outaddr 17 0) (8 * k)
  let recs := (List.range n).map fun i =>
    if mode then c.loc64 (inaddr + 8 * i) else (g0 + i) * 2 ^ 32 + c.loc32 (inaddr + 4 * i)
  let out := ((sortRecords recs) ++ List.replicate k emptyRecord).take k
  return (c.storeRecords outaddr out).setX d (word (min k n))

/-- A dimension of a distribution table: extent, block factor and cores, unused ones acting as 1, 1 and 1 (R265). -/
structure Dim where
  ext : Nat
  blk : Nat
  prc : Nat
/-- A dimension doubleword (R265). -/
def dimOf (w : Nat) : Dim :=
  if w % 2 ^ 16 == 0 then ⟨1, 1, 1⟩ else ⟨w % 2 ^ 16, bitsN w 31 16, bitsN w 41 32⟩
/-- Whether a dimension doubleword's fields are within limits (R265). -/
def dimOk (w : Nat) : Bool :=
  bitsN w 63 42 == 0 &&
    (w % 2 ^ 16 == 0 || (decide (1 ≤ bitsN w 31 16) && decide (1 ≤ bitsN w 41 32) && decide (bitsN w 41 32 ≤ 1024)))
/-- A quotient rounded up. -/
def ceilDiv (a b : Nat) : Nat := (a + b - 1) / b
/-- The local extent L of a dimension (R265). -/
def Dim.span (d : Dim) : Nat := ceilDiv (ceilDiv d.ext d.blk) d.prc * d.blk
/-- The core coordinate of a position along a dimension (R265). -/
def Dim.part (d : Dim) (c : Nat) : Nat := c / d.blk % d.prc
/-- The local coordinate of a position along a dimension (R265). -/
def Dim.local' (d : Dim) (c : Nat) : Nat := c / d.blk / d.prc * d.blk + c % d.blk

/-- OWN's result for a table and coordinates (R265). -/
def ownResult (dims : List Dim) (eszl base : Nat) (coords : List Nat) : Word :=
  let dc := dims.zip coords
  if dc.any fun (d, c) => decide (d.ext ≤ c) then BitVec.allOnes 64
  else
    let rank := dc.foldl (fun acc (d, c) => acc * d.prc + d.part c) 0
    let lin := dc.foldl (fun acc (d, c) => acc * d.span + d.local' c) 0
    word ((base + lin * 2 ^ eszl) * 2 ^ 32 + rank)

/-- OWN (R262, R265): the checks of the local array come before those of the fields (R262), with the L_d and 2^ESZL of the
fields as they stand: of an ESZL above 4 too, where R265 names no alignment, and with no bytes for a used dimension whose BLK
or PRC is 0, which has no L_d (log 88). -/
def ownOp (d a b : Fin 32) (c : Core) : Run Core := do
  acquireHold c
  let la := c.xN a
  checkRange c ⟨la, 40, 8, false, none⟩
  let words := (List.range 4).map fun i => c.loc64 (la + 8 * i)
  let hdr := c.loc64 (la + 32)
  let dims := words.map dimOf
  let eszl := bitsN hdr 34 32
  let base := hdr % 2 ^ 32
  let okFields := words.all dimOk && bitsN hdr 63 35 == 0 && decide (eszl ≤ 4) &&
    decide ((dims.foldl (fun acc d => acc * d.prc) 1) ≤ 1024)
  let total := (dims.foldl (fun acc d => acc * d.span) 1) * 2 ^ eszl
  checkRange c ⟨base, total, 2 ^ eszl, false, none⟩
  orTrap okFields (trapPlain .fmtMismatch)
  let coords := (List.range 4).map fun i => bitsN (c.xN b) (16 * i + 15) (16 * i)
  return c.setX d (ownResult dims eszl base coords)

/-- LTLD (R255). -/
def execLtld (g : Guard) (a : Fin 32) (s : State) : Host.Outcome State Fault Refusal :=
  runOn (.ltld g a) (onCore (loadTable a)) s

/-- SAMPLE (R263). -/
def execSample (g : Guard) (d : Fin 32) (a : Fin 32) (b : Fin 32) (s : State) : Host.Outcome State Fault Refusal :=
  runOn (.sample g d a b) (onCore (sampleOp d a b)) s

/-- TOPKM (R264). -/
def execTopkm (g : Guard) (d : Fin 32) (a : Fin 32) (b : Fin 32) (s : State) : Host.Outcome State Fault Refusal :=
  runOn (.topkm g d a b) (onCore (topkOp d a b)) s

/-- OWN (R265). -/
def execOwn (g : Guard) (d : Fin 32) (a : Fin 32) (b : Fin 32) (s : State) : Host.Outcome State Fault Refusal :=
  runOn (.own g d a b) (onCore (ownOp d a b)) s

end Sys2Proof.Machine
end

