-- ==== Sys2Proof/Machine/Atomics.lean ====
section
/-! DEFINITION. Atomics at issue (R229) and what a home's atomic unit computes (R230). -/

namespace Sys2Proof.Machine

/-- The new content of an atomic, none where ACAS does not store; values are of `n` bytes (R230). -/
def AtomicOp.apply (op : AtomicOp) (n m b : Nat) : Option Nat :=
  let w := 8 * n
  let b := b % 2 ^ w
  match op with
  | .add => some ((m + b) % 2 ^ w)
  | .and => some (Nat.land m b)
  | .or => some (Nat.lor m b)
  | .xor => some (Nat.xor m b)
  | .min u => some (if u then Nat.min m b else if sintN w m ≤ sintN w b then m else b)
  | .max u => some (if u then Nat.max m b else if sintN w m ≤ sintN w b then b else m)
  | .swap => some b
  | .cas cmp => if m == cmp % 2 ^ w then some b else none
  | .fadd => some (rneF32 ((fp32.decode m).add (fp32.decode b))).1
  | .vor => some (Nat.lor m b)

/-- The checks of an atomic's pointer (R229): the pointer itself and the alignment of its format (R38, R120), formats allowed,
and alignment to the width. -/
def checkAtomic (ptr : Word) (n : Nat) (fmts : List Nat) : Run Unit := do
  let fmt := wbits ptr 63 58
  let va := wbits ptr 51 0
  orTrap (wbits ptr 53 52 == 0 && fmtAssigned fmt && wbits ptr 57 54 == fmtBlg fmt) (trapGlobal .fmtMismatch 3 ptr)
  orTrap (elemAligned fmt va) (trapGlobal .align 3 ptr)
  orTrap (fmts.contains fmt) (trapGlobal .fmtMismatch 3 ptr)
  orTrap (va % n == 0) (trapGlobal .align 3 ptr)

/-- The formats an integer atomic of a width allows (R229). -/
def atomicFmts (wd : Bool) : List Nat := if wd then [0] else [0, 35, 36]
/-- The width of an integer atomic in bytes. -/
def atomicWidth (wd : Bool) : Nat := if wd then 8 else 4

/-- An integer atomic at issue (R229). -/
def atomicX (op : Core → AtomicOp) (d a b : Fin 32) (o wd : Bool) : State → Run State := onCore fun c => do
  acquireHold c
  let p := c.x a
  let n := atomicWidth wd
  checkAtomic p n (atomicFmts wd)
  let (_, c') ← issueReq c p (.atomic (op c) n (c.xN b) o) (some (.x d)) false 0 false
  return c'
/-- AFADD at issue: PROT_FAULT in reproducible mode comes before every check of the pointer (R116, R229). -/
def atomicF (d a b : Fin 32) (o : Bool) : State → Run State := onCore fun c => do
  acquireHold c
  let p := c.x a
  orTrap (!c.jobattr) (trapGlobal .protFault 3 p)
  checkAtomic p 4 [0, 1]
  let (_, c') ← issueReq c p (.atomic .fadd 4 (c.xN b % 2 ^ 32) o) (some (.x d)) false 0 false
  return c'
/-- VAOR at issue: a bound b register is popped, a bound destination refused (R224, R229). -/
def atomicV (d a b : Fin 32) (o : Bool) : State → Run State := onCore fun c => do
  acquireHold c
  let p := c.x a
  checkAtomic p 16 [0]
  orTrap (!c.bound d) (trapGlobal .bufAccess 3 p)
  let (v, c) ← readV b c
  let (_, c') ← issueReq c p (.atomic .vor 16 v.toNat o) (some (.v d)) false 0 false
  return c'

/-- AADD (R229, R230). -/
def execAadd (g : Guard) (d : Fin 32) (a : Fin 32) (b : Fin 32) (o : Bool) (wd : Bool) (s : State) : Host.Outcome State Fault Refusal :=
  runOn (.aadd g d a b o wd) (atomicX (fun _ => .add) d a b o wd) s

/-- AAND (R229, R230). -/
def execAand (g : Guard) (d : Fin 32) (a : Fin 32) (b : Fin 32) (o : Bool) (wd : Bool) (s : State) : Host.Outcome State Fault Refusal :=
  runOn (.aand g d a b o wd) (atomicX (fun _ => .and) d a b o wd) s

/-- AOR (R229, R230). -/
def execAor (g : Guard) (d : Fin 32) (a : Fin 32) (b : Fin 32) (o : Bool) (wd : Bool) (s : State) : Host.Outcome State Fault Refusal :=
  runOn (.aor g d a b o wd) (atomicX (fun _ => .or) d a b o wd) s

/-- AXOR (R229, R230). -/
def execAxor (g : Guard) (d : Fin 32) (a : Fin 32) (b : Fin 32) (o : Bool) (wd : Bool) (s : State) : Host.Outcome State Fault Refusal :=
  runOn (.axor g d a b o wd) (atomicX (fun _ => .xor) d a b o wd) s

/-- ASWP (R229, R230). -/
def execAswp (g : Guard) (d : Fin 32) (a : Fin 32) (b : Fin 32) (o : Bool) (wd : Bool) (s : State) : Host.Outcome State Fault Refusal :=
  runOn (.aswp g d a b o wd) (atomicX (fun _ => .swap) d a b o wd) s

/-- AMIN (R229, R230). -/
def execAmin (g : Guard) (d : Fin 32) (a : Fin 32) (b : Fin 32) (o : Bool) (un : Bool) (wd : Bool) (s : State) : Host.Outcome State Fault Refusal :=
  runOn (.amin g d a b o un wd) (atomicX (fun _ => .min un) d a b o wd) s

/-- AMAX (R229, R230). -/
def execAmax (g : Guard) (d : Fin 32) (a : Fin 32) (b : Fin 32) (o : Bool) (un : Bool) (wd : Bool) (s : State) : Host.Outcome State Fault Refusal :=
  runOn (.amax g d a b o un wd) (atomicX (fun _ => .max un) d a b o wd) s

/-- ACAS (R229, R230): the compare value is the before-value of d. -/
def execAcas (g : Guard) (d : Fin 32) (a : Fin 32) (b : Fin 32) (o : Bool) (wd : Bool) (s : State) : Host.Outcome State Fault Refusal :=
  runOn (.acas g d a b o wd) (atomicX (fun c => .cas (c.xN d)) d a b o wd) s

/-- AFADD (R229, R230). -/
def execAfadd (g : Guard) (d : Fin 32) (a : Fin 32) (b : Fin 32) (o : Bool) (s : State) : Host.Outcome State Fault Refusal :=
  runOn (.afadd g d a b o) (atomicF d a b o) s

/-- VAOR (R229, R230). -/
def execVaor (g : Guard) (d : Fin 32) (a : Fin 32) (b : Fin 32) (o : Bool) (s : State) : Host.Outcome State Fault Refusal :=
  runOn (.vaor g d a b o) (atomicV d a b o) s

end Sys2Proof.Machine
end

