-- ==== Sys2Proof/Machine/Control.lean ====
section
/-! DEFINITION. Control transfer, loops and END (R213 to R219). What follows a bundle is chosen in Bundle.lean (R215). -/

namespace Sys2Proof.Machine

/-- Take a control transfer after the bundle, to a target that must be a multiple of 8 (R162, R213). -/
def transfer (c : Core) (target : Word) : Run Core :=
  if target.toNat % 8 != 0 then .error (trapWith .align 0)
  else .ok ({ c with target := some target }.trace 2 c.pc target)

/-- The target of BR and CALL: the bundle address plus 8 times the signed offset (R170). -/
def branchTarget (pc : Word) (off : BitVec 20) : Word := pc + (off.signExtend 64) * 8

/-- LOOP on a register set (R214). -/
def openLoop (set : Fin 2) (n : Fin 32) (len : Fin 16384) (c : Core) : Run Core :=
  let le := c.pc + word (8 * len.val)
  let trip := c.x n
  let r := { c.regs with
    lb := c.regs.lb.set set (c.pc + 8), le := c.regs.le.set set le, lc := c.regs.lc.set set trip }
  let c := { c with regs := r }
  if trip = 0 then .ok ({ c with target := some (le + 8) }.trace 2 c.pc (le + 8)) else .ok c

/-- END: PROT_FAULT with a nonempty domain stack, else the task ends after its bundle (R218, R293). -/
def endBundle (c : Core) : Run Core :=
  match c.task with
  | some t => if t.domains.isEmpty then .ok { c with endSeen := true } else .error (trapPlain .protFault)
  | none => .ok { c with endSeen := true }

/-- BR (R213). -/
def execBr (g : Guard) (off : BitVec 20) (s : State) : Host.Outcome State Fault Refusal :=
  runOn (.br g off) (onCore fun c => transfer c (branchTarget c.pc off)) s

/-- CALL (R213): x31 receives the address of the next bundle. -/
def execCall (g : Guard) (off : BitVec 20) (s : State) : Host.Outcome State Fault Refusal :=
  runOn (.call g off) (onCore fun c => transfer (c.setX 31 (c.pc + 8)) (branchTarget c.pc off)) s

/-- JR (R213). -/
def execJr (g : Guard) (a : Fin 32) (s : State) : Host.Outcome State Fault Refusal :=
  runOn (.jr g a) (onCore fun c => transfer c (c.x a)) s

/-- RET (R213). -/
def execRet (g : Guard) (s : State) : Host.Outcome State Fault Refusal :=
  runOn (.ret g) (onCore fun c => transfer c (c.x 31)) s

/-- LOOP (R214). -/
def execLoop (g : Guard) (set : Fin 2) (n : Fin 32) (len : Fin 16384) (s : State) : Host.Outcome State Fault Refusal :=
  runOn (.loop g set n len) (onCore (openLoop set n len)) s

/-- END (R218). -/
def execEndTask (g : Guard) (s : State) : Host.Outcome State Fault Refusal :=
  runOn (.endTask g) (onCore endBundle) s

/-- LBRK (R216). -/
def execLbrk (g : Guard) (set : Fin 2) (s : State) : Host.Outcome State Fault Refusal :=
  runOn (.lbrk g set) (onCorePure fun c => { c with regs := { c.regs with lc := c.regs.lc.set set 0 } }) s

end Sys2Proof.Machine
end

