-- ==== Sys2Proof/Machine/Vector.lean ====
section
/-! DEFINITION. Lane arithmetic, logic, permutes and reductions of the X slot (R241 to R250). -/

namespace Sys2Proof.Machine

/-- Write a vector result with its flags: one push where the destination is bound (R133, R241, R52). -/
def putVec (d : Fin 32) (r : Vec × Flags) (c : Core) : Run Core := writeV d r.1 (c.raise r.2)

/-- An instruction of one vector operand (R241). -/
def vec1 (f : Core → Vec → Vec × Flags) (d a : Fin 32) : State → Run State := onCore fun c => do
  let (v, c') ← readV a c
  putVec d (f c v) c'
/-- An instruction of two vector operands, each register read once (R241). -/
def vec2 (f : Core → Vec → Vec → Vec × Flags) (d a b : Fin 32) : State → Run State := onCore fun c => do
  let (vs, c') ← readVs [a, b] [] c
  putVec d (f c (vs.headD 0) (vs.getD 1 0)) c'
/-- An instruction of two vector operands and its destination's before-value (R241). -/
def vec3 (f : Core → Vec → Vec → Vec → Vec × Flags) (d a b : Fin 32) : State → Run State := onCore fun c => do
  let (vs, c') ← readVs [a, b, d] [] c
  putVec d (f c (vs.headD 0) (vs.getD 1 0) (vs.getD 2 0)) c'
/-- An instruction of its destination's before-value and one operand. -/
def vec2d (f : Core → Vec → Vec → Vec × Flags) (d a : Fin 32) : State → Run State := onCore fun c => do
  let (vs, c') ← readVs [a, d] [] c
  putVec d (f c (vs.headD 0) (vs.getD 1 0)) c'

/-- Whether a lane-type code is floating (R11). -/
def laneFloat (t : Nat) : Bool := decide (8 ≤ t)
/-- The range of an integer lane type. -/
def laneRange (t : Nat) : Int × Int :=
  let w := laneBits t
  if t ≤ 3 then (-(2 ^ (w - 1) : Int), 2 ^ (w - 1) - 1) else (0, 2 ^ w - 1)
/-- The value of a lane (R241). -/
def laneVal (t x : Nat) : Val :=
  if laneFloat t then (laneFmt t).decode (laneCode t x) else .ofInt (laneInt' t x)
/-- A vector and the union of flags from the lane results of width `w`. -/
def packLanes (w : Nat) (rs : List (Nat × Flags)) : Vec × Flags := (ofLanes w (rs.map (·.1)), unionFlags (rs.map (·.2)))
/-- Lane results of two operands. -/
def zipLanes (w : Nat) (f : Nat → Nat → Nat × Flags) (a b : Vec) : Vec × Flags :=
  packLanes w ((lanes a w).zipWith f (lanes b w))
/-- Lane results of one operand. -/
def mapLanes (w : Nat) (f : Nat → Nat × Flags) (a : Vec) : Vec × Flags := packLanes w ((lanes a w).map f)

/-- An exact value rounded once to a floating lane type, non-saturating, from the operands named (R244, R62). -/
def roundLane (t : Nat) (operands : List Val) (v : Val) : Nat × Flags :=
  let (c, fl) := roundTo (laneFmt t) .rne false v
  (c, fl ||| newNan operands v)

/-- The exact integer operations of R243 by kind. -/
inductive IntOp
  | add
  | sub
  | mul
  deriving DecidableEq, Repr

/-- The exact result of an integer lane operation. -/
def IntOp.exact (o : IntOp) (a b : Int) : Int :=
  match o with
  | .add => a + b
  | .sub => a - b
  | .mul => a * b
/-- The exact result of a floating lane operation (R244). -/
def IntOp.value (o : IntOp) (a b : Val) : Val :=
  match o with
  | .add => a.add b
  | .sub => a.add b.neg
  | .mul => a.mul b
/-- A lane of VADD, VSUB and VMUL: wrapped, or clamped with OVF, or rounded (R243, R244). -/
def arithLane (o : IntOp) (sat : Bool) (t x y : Nat) : Nat × Flags :=
  if laneFloat t then
    let a := laneVal t x
    let b := laneVal t y
    roundLane t [a, b] (o.value a b)
  else
    let r := o.exact (laneInt' t x) (laneInt' t y)
    let (lo, hi) := laneRange t
    if sat && (decide (r < lo) || decide (hi < r)) then (intCode (laneBits t) (if r < lo then lo else hi), flOvf)
    else (intCode (laneBits t) r, 0#6)
/-- VADD, VSUB and VMUL on vectors. -/
def arithVec (o : IntOp) (sat : Bool) (t : Nat) (a b : Vec) : Vec × Flags := zipLanes (laneBits t) (arithLane o sat t) a b

/-- A lane of VFMA: one rounding of a × b + d (R244). -/
def fmaLane (t x y z : Nat) : Nat × Flags :=
  let a := laneVal t x
  let b := laneVal t y
  let d := laneVal t z
  roundLane t [a, b, d] ((a.mul b).add d)
/-- VFMA on vectors. -/
def fmaVec (t : Nat) (a b d : Vec) : Vec × Flags :=
  let w := laneBits t
  packLanes w (((lanes a w).zip (lanes b w)).zipWith (fun (x, y) z => fmaLane t x y z) (lanes d w))

/-- A lane of VMIN and VMAX, and the combine of VREDMIN and VREDMAX (R64, R243, R244); no flag. -/
def pickLane (wantMax : Bool) (t x y : Nat) : Nat :=
  if laneFloat t then floatPick (laneFmt t) wantMax (laneCode t x) (laneCode t y)
  else if (laneInt' t x < laneInt' t y) == wantMax then y else x

/-- A lane of VSHL (R243). -/
def shlLane (t x y : Nat) : Nat := if laneBits t ≤ y then 0 else x * 2 ^ y % 2 ^ laneBits t
/-- A lane of VSHR (R243). -/
def shrLane (t x y : Nat) : Nat :=
  let w := laneBits t
  if t ≤ 3 then intCode w ((sintN w x).fdiv (2 ^ min y w)) else if w ≤ y then 0 else x / 2 ^ y

/-- The sign bit of a floating lane type's code (R244). -/
def laneSign (t : Nat) : Nat := (laneFmt t).signBit
/-- A lane of VABS (R243, R244). -/
def absLane (t x : Nat) : Nat :=
  if laneFloat t then laneCode t x % laneSign t else intCode (laneBits t) (laneInt' t x).natAbs
/-- A lane of VNEG (R243, R244). -/
def negLane (t x : Nat) : Nat :=
  if laneFloat t then Nat.xor (laneCode t x) (laneSign t) else intCode (laneBits t) (-(laneInt' t x))

/-- The relations of R245. -/
inductive LaneRel
  | eq
  | lt
  | le
  deriving DecidableEq, Repr
/-- A mask lane of VCEQ, VCLT and VCLE: all bits or none (R245). -/
def cmpLane (r : LaneRel) (t x y : Nat) : Nat :=
  let a := laneVal t x
  let b := laneVal t y
  let ok := match r with
    | .eq => a.eq b
    | .lt => a.lt b
    | .le => a.lt b || a.eq b
  if ok then 2 ^ laneBits t - 1 else 0

/-- VDOT on integer lanes: both bytes and accumulator signed for .i8, unsigned for .n8 (R246). -/
def dotInt (t : Nat) (a b d : Vec) : Vec :=
  ofLanes 32 ((List.range 4).map fun i =>
    let terms := (List.range 4).map fun j => laneInt' t (lane a 8 (4 * i + j)) * laneInt' t (lane b 8 (4 * i + j))
    intCode 32 (terms.foldl (· + ·) (lane d 32 i : Int)))
/-- A lane of VDOT.bf: three terms summed exactly and rounded once (R246, R62). -/
def dotBfLane (d a0 b0 a1 b1 : Nat) : Nat × Flags :=
  let v := fp32.decode d
  let p := bf16.decode a0
  let q := bf16.decode b0
  let r := bf16.decode a1
  let u := bf16.decode b1
  let total := Val.sum [v, p.mul q, r.mul u]
  let (c, fl) := rneF32 total
  (c, fl ||| newNan [v, p, q, r, u] total)
/-- VDOT (R246). -/
def dotVec (t : Nat) (a b d : Vec) : Vec × Flags :=
  if t == 9 then packLanes 32 ((List.range 4).map fun i =>
    dotBfLane (lane d 32 i) (lane a 16 (2 * i)) (lane b 16 (2 * i)) (lane a 16 (2 * i + 1)) (lane b 16 (2 * i + 1)))
  else (dotInt t a b d, 0#6)

/-- The lane type of a constant form's fn (R247). -/
def cwLane (t : Fin 4) : Nat :=
  match t.val with
  | 0 => 2
  | 1 => 1
  | 2 => 10
  | _ => 9

/-- VPERM (R248). -/
def permute (a b : Vec) : Vec :=
  ofLanes 8 ((lanes b 8).map fun j => if j < 16 then lane a 8 j else 0)

/-- The zip and unzip forms (R249). -/
inductive ZipForm
  | zipLow
  | zipHigh
  | even
  | odd
  deriving DecidableEq, Repr
/-- Element `i` of a zip or unzip of `n` elements (R249). -/
def ZipForm.elem (z : ZipForm) (a b : Vec) (w n i : Nat) : Nat :=
  let h := n / 2
  match z with
  | .zipLow => if i % 2 == 0 then lane a w (i / 2) else lane b w (i / 2)
  | .zipHigh => if i % 2 == 0 then lane a w (h + i / 2) else lane b w (h + i / 2)
  | .even => if i < h then lane a w (2 * i) else lane b w (2 * (i - h))
  | .odd => if i < h then lane a w (2 * i + 1) else lane b w (2 * (i - h) + 1)
/-- A zip or unzip (R249). -/
def zipVec (z : ZipForm) (e : Fin 4) (a b : Vec) : Vec :=
  let w := 8 * widthOf e
  ofLanes w ((List.range (128 / w)).map (z.elem a b w (128 / w)))

/-- One node of VREDADD (R64, R250): rounding of FP32, wrapping of integers. -/
def addNode (t : Nat) (p q : Nat × Flags) : Nat × Flags :=
  if t == 10 then
    let (c, fl) := arithLane .add false 10 p.1 q.1
    (c, fl ||| p.2 ||| q.2)
  else ((p.1 + q.1) % 2 ^ laneBits t, 0#6)
/-- A reduction's result in lane 0 (R250); a lone NaN node keeps its code. -/
def reduceVec (t : Nat) (f : Nat × Flags → Nat × Flags → Nat × Flags) (a : Vec) : Vec × Flags :=
  match treeReduce f 5 ((lanes a (laneBits t)).map fun x => (x, 0#6)) with
  | some (c, fl) => (BitVec.ofNat 128 c, fl)
  | none => (0, 0#6)

/-- Without flags. -/
def plain (v : Vec) : Vec × Flags := (v, 0#6)

/-- VADD (R243, R244). -/
def execVadd (g : Guard) (d : Fin 32) (a : Fin 32) (b : Fin 32) (sat : Bool) (t : Fin 16) (s : State) : Host.Outcome State Fault Refusal :=
  runOn (.vadd g d a b sat t) (vec2 (fun _ x y => arithVec .add sat t.val x y) d a b) s

/-- VSUB (R243, R244). -/
def execVsub (g : Guard) (d : Fin 32) (a : Fin 32) (b : Fin 32) (sat : Bool) (t : Fin 16) (s : State) : Host.Outcome State Fault Refusal :=
  runOn (.vsub g d a b sat t) (vec2 (fun _ x y => arithVec .sub sat t.val x y) d a b) s

/-- VMUL (R243, R244). -/
def execVmul (g : Guard) (d : Fin 32) (a : Fin 32) (b : Fin 32) (t : Fin 16) (s : State) : Host.Outcome State Fault Refusal :=
  runOn (.vmul g d a b t) (vec2 (fun _ x y => arithVec .mul false t.val x y) d a b) s

/-- VFMA (R244). -/
def execVfma (g : Guard) (d : Fin 32) (a : Fin 32) (b : Fin 32) (t : Fin 16) (s : State) : Host.Outcome State Fault Refusal :=
  runOn (.vfma g d a b t) (vec3 (fun _ x y z => fmaVec t.val x y z) d a b) s

/-- VMIN (R243, R244). -/
def execVmin (g : Guard) (d : Fin 32) (a : Fin 32) (b : Fin 32) (t : Fin 16) (s : State) : Host.Outcome State Fault Refusal :=
  runOn (.vmin g d a b t) (vec2 (fun _ x y => zipLanes (laneBits t.val) (fun p q => (pickLane false t.val p q, 0#6)) x y) d a b) s

/-- VMAX (R243, R244). -/
def execVmax (g : Guard) (d : Fin 32) (a : Fin 32) (b : Fin 32) (t : Fin 16) (s : State) : Host.Outcome State Fault Refusal :=
  runOn (.vmax g d a b t) (vec2 (fun _ x y => zipLanes (laneBits t.val) (fun p q => (pickLane true t.val p q, 0#6)) x y) d a b) s

/-- VAND (R245). -/
def execVand (g : Guard) (d : Fin 32) (a : Fin 32) (b : Fin 32) (s : State) : Host.Outcome State Fault Refusal :=
  runOn (.vand g d a b) (vec2 (fun _ x y => plain (x &&& y)) d a b) s

/-- VOR (R245). -/
def execVor (g : Guard) (d : Fin 32) (a : Fin 32) (b : Fin 32) (s : State) : Host.Outcome State Fault Refusal :=
  runOn (.vor g d a b) (vec2 (fun _ x y => plain (x ||| y)) d a b) s

/-- VXOR (R245). -/
def execVxor (g : Guard) (d : Fin 32) (a : Fin 32) (b : Fin 32) (s : State) : Host.Outcome State Fault Refusal :=
  runOn (.vxor g d a b) (vec2 (fun _ x y => plain (x ^^^ y)) d a b) s

/-- VANDN (R245). -/
def execVandn (g : Guard) (d : Fin 32) (a : Fin 32) (b : Fin 32) (s : State) : Host.Outcome State Fault Refusal :=
  runOn (.vandn g d a b) (vec2 (fun _ x y => plain (x &&& ~~~y)) d a b) s

/-- VSHL (R243). -/
def execVshl (g : Guard) (d : Fin 32) (a : Fin 32) (b : Fin 32) (t : Fin 16) (s : State) : Host.Outcome State Fault Refusal :=
  runOn (.vshl g d a b t) (vec2 (fun _ x y => zipLanes (laneBits t.val) (fun p q => (shlLane t.val p q, 0#6)) x y) d a b) s

/-- VSHR (R243). -/
def execVshr (g : Guard) (d : Fin 32) (a : Fin 32) (b : Fin 32) (t : Fin 16) (s : State) : Host.Outcome State Fault Refusal :=
  runOn (.vshr g d a b t) (vec2 (fun _ x y => zipLanes (laneBits t.val) (fun p q => (shrLane t.val p q, 0#6)) x y) d a b) s

/-- VCEQ (R245). -/
def execVceq (g : Guard) (d : Fin 32) (a : Fin 32) (b : Fin 32) (t : Fin 16) (s : State) : Host.Outcome State Fault Refusal :=
  runOn (.vceq g d a b t) (vec2 (fun _ x y => zipLanes (laneBits t.val) (fun p q => (cmpLane .eq t.val p q, 0#6)) x y) d a b) s

/-- VCLT (R245). -/
def execVclt (g : Guard) (d : Fin 32) (a : Fin 32) (b : Fin 32) (t : Fin 16) (s : State) : Host.Outcome State Fault Refusal :=
  runOn (.vclt g d a b t) (vec2 (fun _ x y => zipLanes (laneBits t.val) (fun p q => (cmpLane .lt t.val p q, 0#6)) x y) d a b) s

/-- VCLE (R245). -/
def execVcle (g : Guard) (d : Fin 32) (a : Fin 32) (b : Fin 32) (t : Fin 16) (s : State) : Host.Outcome State Fault Refusal :=
  runOn (.vcle g d a b t) (vec2 (fun _ x y => zipLanes (laneBits t.val) (fun p q => (cmpLane .le t.val p q, 0#6)) x y) d a b) s

/-- VSEL (R245): the mask is the before-value of vd. -/
def execVsel (g : Guard) (d : Fin 32) (a : Fin 32) (b : Fin 32) (s : State) : Host.Outcome State Fault Refusal :=
  runOn (.vsel g d a b) (vec3 (fun _ x y z => plain ((x &&& z) ||| (y &&& ~~~z))) d a b) s

/-- VABS (R243, R244). -/
def execVabs (g : Guard) (d : Fin 32) (a : Fin 32) (t : Fin 16) (s : State) : Host.Outcome State Fault Refusal :=
  runOn (.vabs g d a t) (vec1 (fun _ x => mapLanes (laneBits t.val) (fun p => (absLane t.val p, 0#6)) x) d a) s

/-- VNEG (R243, R244). -/
def execVneg (g : Guard) (d : Fin 32) (a : Fin 32) (t : Fin 16) (s : State) : Host.Outcome State Fault Refusal :=
  runOn (.vneg g d a t) (vec1 (fun _ x => mapLanes (laneBits t.val) (fun p => (negLane t.val p, 0#6)) x) d a) s

/-- VDOT (R246). -/
def execVdot (g : Guard) (d : Fin 32) (a : Fin 32) (b : Fin 32) (t : Fin 16) (s : State) : Host.Outcome State Fault Refusal :=
  runOn (.vdot g d a b t) (vec3 (fun _ x y z => dotVec t.val x y z) d a b) s

/-- VPERM (R248). -/
def execVperm (g : Guard) (d : Fin 32) (a : Fin 32) (b : Fin 32) (s : State) : Host.Outcome State Fault Refusal :=
  runOn (.vperm g d a b) (vec2 (fun _ x y => plain (permute x y)) d a b) s

/-- VZIPL (R249). -/
def execVzipl (g : Guard) (d : Fin 32) (a : Fin 32) (b : Fin 32) (e : Fin 4) (s : State) : Host.Outcome State Fault Refusal :=
  runOn (.vzipl g d a b e) (vec2 (fun _ x y => plain (zipVec .zipLow e x y)) d a b) s

/-- VZIPH (R249). -/
def execVziph (g : Guard) (d : Fin 32) (a : Fin 32) (b : Fin 32) (e : Fin 4) (s : State) : Host.Outcome State Fault Refusal :=
  runOn (.vziph g d a b e) (vec2 (fun _ x y => plain (zipVec .zipHigh e x y)) d a b) s

/-- VUZPE (R249). -/
def execVuzpe (g : Guard) (d : Fin 32) (a : Fin 32) (b : Fin 32) (e : Fin 4) (s : State) : Host.Outcome State Fault Refusal :=
  runOn (.vuzpe g d a b e) (vec2 (fun _ x y => plain (zipVec .even e x y)) d a b) s

/-- VUZPO (R249). -/
def execVuzpo (g : Guard) (d : Fin 32) (a : Fin 32) (b : Fin 32) (e : Fin 4) (s : State) : Host.Outcome State Fault Refusal :=
  runOn (.vuzpo g d a b e) (vec2 (fun _ x y => plain (zipVec .odd e x y)) d a b) s

/-- VREDADD (R250). -/
def execVredadd (g : Guard) (d : Fin 32) (a : Fin 32) (t : Fin 16) (s : State) : Host.Outcome State Fault Refusal :=
  runOn (.vredadd g d a t) (vec1 (fun _ x => reduceVec t.val (addNode t.val) x) d a) s

/-- VREDMAX (R250). -/
def execVredmax (g : Guard) (d : Fin 32) (a : Fin 32) (t : Fin 16) (s : State) : Host.Outcome State Fault Refusal :=
  runOn (.vredmax g d a t) (vec1 (fun _ x => reduceVec t.val (fun p q => (pickLane true t.val p.1 q.1, 0#6)) x) d a) s

/-- VREDMIN (R250). -/
def execVredmin (g : Guard) (d : Fin 32) (a : Fin 32) (t : Fin 16) (s : State) : Host.Outcome State Fault Refusal :=
  runOn (.vredmin g d a t) (vec1 (fun _ x => reduceVec t.val (fun p q => (pickLane false t.val p.1 q.1, 0#6)) x) d a) s

/-- VADD with a constant (R247). -/
def execVaddCw (g : Guard) (d : Fin 32) (a : Fin 32) (cw : Fin 256) (t : Fin 4) (s : State) : Host.Outcome State Fault Refusal :=
  runOn (.vaddCw g d a cw t) (vec1 (fun c x => arithVec .add false (cwLane t) x (c.opCwV cw)) d a) s

/-- VMUL with a constant (R247). -/
def execVmulCw (g : Guard) (d : Fin 32) (a : Fin 32) (cw : Fin 256) (t : Fin 4) (s : State) : Host.Outcome State Fault Refusal :=
  runOn (.vmulCw g d a cw t) (vec1 (fun c x => arithVec .mul false (cwLane t) x (c.opCwV cw)) d a) s

/-- VFMA with a constant (R247). -/
def execVfmaCw (g : Guard) (d : Fin 32) (a : Fin 32) (cw : Fin 256) (t : Fin 4) (s : State) : Host.Outcome State Fault Refusal :=
  runOn (.vfmaCw g d a cw t) (vec2d (fun c x z => fmaVec (cwLane t) x (c.opCwV cw) z) d a) s

end Sys2Proof.Machine
end

