-- ==== Sys2Proof/Machine/Convert.lean ====
section
/-! DEFINITION. Conversion, quantisation, the decode-table conversions, random bits, stochastic rounding and the keyed
Hadamard transform (R251 to R254, R256 to R259). -/

namespace Sys2Proof.Machine

/-- A lane of VCVT (R252): integer to integer, to an integer, or to a floating type. -/
def convertLane (r : Rounding) (sat : Bool) (t u x : Nat) : Nat × Flags :=
  if !laneFloat t && !laneFloat u then
    let i := laneInt' u x
    let (lo, hi) := laneRange t
    if sat && (decide (i < lo) || decide (hi < i)) then (intCode (laneBits t) (if i < lo then lo else hi), flOvf)
    else (intCode (laneBits t) i, 0#6)
  else if !laneFloat t then
    let (lo, hi) := laneRange t
    let (i, fl) := toIntRange lo hi r (laneVal u x)
    (intCode (laneBits t) i, fl)
  else roundTo (laneFmt t) r sat (laneVal u x)
/-- VCVT (R252): lanes beyond the source's are zero. -/
def convertVec (r : Rounding) (sat : Bool) (t u : Nat) (a : Vec) : Vec × Flags :=
  packLanes (laneBits t) ((List.range (laneCount t)).map fun i =>
    if i < laneCount u then convertLane r sat t u (lane a (laneBits u) i) else (0, 0#6))

/-- A code of format `f` in a 32-bit lane (R251). -/
def narrowCode (f x : Nat) : Nat := x % 2 ^ fmtBits f
/-- Lane results of two operands of FP32 lanes. -/
def zip32 (f : Nat → Nat → Nat × Flags) (a b : Vec) : Vec × Flags := zipLanes 32 f a b

/-- A lane of QNT and QNT.ns with the table in force at issue (R253, R57). -/
def qntLane (T : DecodeTable) (f : Nat) (sat : Bool) (x s : Nat) : Nat × Flags :=
  quantise T f .rne sat (fp32.decode x) (fp32.decode s)
/-- A lane of DQN (R254). -/
def dqnLane (T : DecodeTable) (f : Nat) (c s : Nat) : Nat × Flags :=
  let e := decodeElem T f (narrowCode f c)
  let v := fp32.decode s
  let (r, fl) := rneF32 (e.mul v)
  (r, fl ||| newNan [e, v] (e.mul v))

/-- The highest code of .lt8 and .lt4 (R256). -/
def ltMax (lt4 : Bool) : Nat := if lt4 then 15 else 255
/-- A lane of LTD (R256). -/
def ltdLane (T : DecodeTable) (lt4 : Bool) (x : Nat) : Nat × Flags :=
  ((T.getD (x % (ltMax lt4 + 1)) 0#19).toNat, 0#6)

/-- The four words of RNG.core and RNG.idx (R257). -/
def rngWord (idx : Bool) (core seed : Nat) (a : Vec) (i : Nat) : Nat :=
  let key := if idx then mixKey 2 0 seed else mixKey 1 core seed
  let n := a.toNat
  let ctr := if idx then n / 2 ^ 64 * 2 ^ 64 + (n + i) % 2 ^ 64 else (n + i) % 2 ^ 128
  mix key ctr % 2 ^ 32
/-- RNG (R257): the seed is cw230 (R128). -/
def rngVec (idx : Bool) (core : Nat) (c : Core) (a : Vec) : Vec × Flags :=
  plain (ofLanes 32 ((List.range 4).map (rngWord idx core (c.cwN 230).toNat a)))

/-- A lane of SRND (R258, R56). -/
def srndLane (T : DecodeTable) (f x y : Nat) : Nat × Flags :=
  encodeElem T f (.sto (y % 65536)) true (fp32.decode x)

/-- Register `i` of a group. -/
def groupReg (base : Fin 32) (i : Nat) : Fin 32 := Fin.ofNat 32 (base.val + i)
/-- HAD and its inverse (R259): a source group with a register that was bound before the bundle, or a destination group with
one bound now, raises BUF_ACCESS (R165, R239, R241); vb is read as any operand. -/
def hadamardOp (inverse : Bool) (d a b : Fin 32) (n32 : Bool) (c : Core) : Run Core := do
  let k := if n32 then 8 else 4
  let src := (List.range k).map (groupReg a)
  let dst := (List.range k).map (groupReg d)
  orTrap (src.all (fun v => (c.readBinding v).isNone) && dst.all fun v => !c.bound v) (trapPlain .bufAccess)
  let (hv, c') ← readV b c
  let xs := src.flatMap fun v => lanes c.old.v[v] 32
  let (ys, fl) := hadamard inverse (hv.toNat % 2 ^ 64) (hv.toNat / 2 ^ 64) xs
  let fl := ys.foldl (fun fl y => fl ||| newNan (xs.map fp32.decode) (fp32.decode y)) fl
  let out := (List.range k).foldl (fun c i => c.putV (groupReg d i) (ofLanes 32 ((ys.drop (4 * i)).take 4))) c'
  return out.raise fl

/-- VCVT.rne (R252). -/
def execVcvtRne (g : Guard) (d : Fin 32) (a : Fin 32) (src : Fin 16) (sat : Bool) (t : Fin 16) (s : State) : Host.Outcome State Fault Refusal :=
  runOn (.vcvtRne g d a src sat t) (vec1 (fun _ x => convertVec .rne sat t.val src.val x) d a) s

/-- VCVT.rtz (R252). -/
def execVcvtRtz (g : Guard) (d : Fin 32) (a : Fin 32) (src : Fin 16) (sat : Bool) (t : Fin 16) (s : State) : Host.Outcome State Fault Refusal :=
  runOn (.vcvtRtz g d a src sat t) (vec1 (fun _ x => convertVec .rtz sat t.val src.val x) d a) s

/-- VCVT.rmi (R252). -/
def execVcvtRmi (g : Guard) (d : Fin 32) (a : Fin 32) (src : Fin 16) (sat : Bool) (t : Fin 16) (s : State) : Host.Outcome State Fault Refusal :=
  runOn (.vcvtRmi g d a src sat t) (vec1 (fun _ x => convertVec .rmi sat t.val src.val x) d a) s

/-- VCVT.rpi (R252). -/
def execVcvtRpi (g : Guard) (d : Fin 32) (a : Fin 32) (src : Fin 16) (sat : Bool) (t : Fin 16) (s : State) : Host.Outcome State Fault Refusal :=
  runOn (.vcvtRpi g d a src sat t) (vec1 (fun _ x => convertVec .rpi sat t.val src.val x) d a) s

/-- QNT (R253). -/
def execQnt (g : Guard) (d : Fin 32) (a : Fin 32) (b : Fin 32) (fmt : Fin 32) (s : State) : Host.Outcome State Fault Refusal :=
  runOn (.qnt g d a b fmt) (vec2 (fun c x y => zip32 (qntLane c.table fmt.val true) x y) d a b) s

/-- QNT_NS (R253). -/
def execQntNs (g : Guard) (d : Fin 32) (a : Fin 32) (b : Fin 32) (fmt : Fin 32) (s : State) : Host.Outcome State Fault Refusal :=
  runOn (.qntNs g d a b fmt) (vec2 (fun c x y => zip32 (qntLane c.table fmt.val false) x y) d a b) s

/-- DQN (R254). -/
def execDqn (g : Guard) (d : Fin 32) (a : Fin 32) (b : Fin 32) (fmt : Fin 32) (s : State) : Host.Outcome State Fault Refusal :=
  runOn (.dqn g d a b fmt) (vec2 (fun c x y => zip32 (dqnLane c.table fmt.val) x y) d a b) s

/-- LTD (R256). -/
def execLtd (g : Guard) (d : Fin 32) (a : Fin 32) (lt4 : Bool) (s : State) : Host.Outcome State Fault Refusal :=
  runOn (.ltd g d a lt4) (vec1 (fun c x => mapLanes 32 (ltdLane c.table lt4) x) d a) s

/-- LTE (R256). -/
def execLte (g : Guard) (d : Fin 32) (a : Fin 32) (lt4 : Bool) (s : State) : Host.Outcome State Fault Refusal :=
  runOn (.lte g d a lt4) (vec1 (fun c x => mapLanes 32 (fun p => tableEncode c.table (ltMax lt4) (fp32.decode p)) x) d a) s

/-- HAD (R259). -/
def execHad (g : Guard) (d : Fin 32) (a : Fin 32) (b : Fin 32) (n32 : Bool) (s : State) : Host.Outcome State Fault Refusal :=
  runOn (.had g d a b n32) (onCore (hadamardOp false d a b n32)) s

/-- HAD.inv (R259). -/
def execHadInv (g : Guard) (d : Fin 32) (a : Fin 32) (b : Fin 32) (n32 : Bool) (s : State) : Host.Outcome State Fault Refusal :=
  runOn (.hadInv g d a b n32) (onCore (hadamardOp true d a b n32)) s

/-- RNG.core (R257). -/
def execRngCore (g : Guard) (d : Fin 32) (a : Fin 32) (s : State) : Host.Outcome State Fault Refusal :=
  runOn (.rngCore g d a) (fun s => vec1 (rngVec false s.cur) d a s) s

/-- RNG.idx (R257). -/
def execRngIdx (g : Guard) (d : Fin 32) (a : Fin 32) (s : State) : Host.Outcome State Fault Refusal :=
  runOn (.rngIdx g d a) (fun s => vec1 (rngVec true s.cur) d a s) s

/-- SRND (R258). -/
def execSrnd (g : Guard) (d : Fin 32) (a : Fin 32) (b : Fin 32) (fmt : Fin 32) (s : State) : Host.Outcome State Fault Refusal :=
  runOn (.srnd g d a b fmt) (vec2 (fun c x y => zip32 (srndLane c.table fmt.val) x y) d a b) s

end Sys2Proof.Machine
end

