-- ==== Sys2Proof/Config.lean ====
section
/-! DEFINITION. What the manual leaves open: constants with no body, so that no proof sees a value of them. -/

namespace Sys2Proof

/-- The result of a collective's combine over contributions of different reduction types, which no rule states (R327,
log 30): a free value that depends on ROP and the contributions alone (R285), each by its format and its reduced code in
order of position. -/
opaque Config.mixedReduce : Nat → List (Nat × Nat) → BitVec 32

/-- CYCLES of a spare core at the moment it takes an identity: it has counted since it left reset itself, and no rule
states the count (R29, R360, log 31): a free value for each draw. -/
opaque Config.spareCycles : Nat → BitVec 64

/-- Reotil address and physical die of the remote spare that replaces a lost die (R23, R360, log 32): the service
processors choose it, and no rule says which. -/
opaque Config.remoteSpare : Nat → BitVec 30

/-- Bytes of SPDM responses that the manual leaves to SPDM 1.3 and to the device: what they answer and where (R381,
log 33). -/
opaque Config.spdmBytes : Nat → Nat → BitVec 256 → List (BitVec 8)

/-- The signature of a die's key over bytes (R380, R381, log 33). -/
opaque Config.signature : Nat → List (BitVec 8) → List (BitVec 8)

/-- The first 24 bytes of the digest of a die's identity public key (R380, log 33). -/
opaque Config.keyDigest : Nat → Nat → BitVec 8

/-- The Reotil address of the package, which another edition's fabric assigns (R380, log 33). -/
opaque Config.packageAddress : BitVec 16

/-- The bytes of the header of the package report: it holds DEVID, the Reotil package address, XSPARE and MAPGEN (R380), and
no rule gives their places (log 33). A function of the four fields and the place of the byte. -/
opaque Config.reportHeader : Nat → BitVec 16 → Nat → Nat → Nat → BitVec 8

/-- The bytes of a Barrow record in HBM, whose layout no rule gives (R86, R370, log 22): a free value for each draw and
byte. -/
opaque Config.barrowByte : Nat → Nat → BitVec 8

/-- The bytes of a gang's save area in HBM, whose layout no rule gives (R113, R370, log 22): a free value for each draw and
byte. -/
opaque Config.saveByte : Nat → Nat → BitVec 8

/-- The place of a root of a domain instance in the replay log of its job's save area, whose layout no rule gives (R350,
R370, log 22): a free value for each draw, taken modulo the places where the root fits. -/
opaque Config.rootPlace : Nat → Nat

/-- Which of the requests of an engine that are on their way at one time is served next (R153, log 92): a free value for each
draw, taken modulo their number. -/
opaque Config.nextRequest : Nat → Nat

end Sys2Proof
end

