-- ==== Sys2Proof/Machine/Ordering.lean ====
section
/-! DEFINITION. When an access of a core has performed for the observers of a scope (R146 to R152, R226, R232). -/

namespace Sys2Proof.Machine

/-- Scopes .pkg and .sys, whose observers lie beyond the die (R146). -/
def wideScope (scope : Nat) : Bool := decide (3 ≤ scope)

/-- A request that is a load or an atomic, which returns a value (R225). -/
def Req.returnsValue (r : Req) : Bool := match r.op with
  | .load _ => true
  | .atomic _ _ _ _ => true
  | _ => false
/-- A request whose order R147 governs: residency requests are ordered with nothing (R240), and CDP moves no data. -/
def Req.isAccess (r : Req) : Bool := match r.op with
  | .residency _ => false
  | .preserve _ => false
  | _ => true

/-- An unanswered request has performed at its home: its value is taken, or it has ended without effect. -/
def Req.performedAtHome (r : Req) : Bool := match r.phase with
  | .applied _ _ => true
  | .answered _ => true
  | .refused _ => true
  | _ => false

/-- Every store of a core before a program position that has left its request list is in force for a scope: no update of
it waits for exposure or replicas, and beyond the die no die still misses it (R149, R151). -/
def Net.settled (n : Net) (core pos scope : Nat) : Bool :=
  n.updates.all (fun u => u.author.engine || u.author.core != core || decide (pos ≤ u.author.pos) ||
    (!u.gack && !wideScope scope)) &&
  (!wideScope scope || n.lags.all fun l => l.core != core || decide (pos ≤ l.pos) || l.unseen.isEmpty)

/-- Every access of a core before a program position has performed for the observers of a scope (R226, R232). -/
def State.performedBefore (s : State) (core pos scope : Nat) : Bool :=
  (s.core core).reqs.all (fun r => decide (pos ≤ r.pos) || !r.isAccess || r.performedAtHome ||
    (r.cached && !wideScope scope)) && s.net.settled core pos scope

/-- Stores the core had read from, by stamp, are in force for a scope (R149, cumulativity): beyond the die, none is still
known to the die cache alone or missed by some die. -/
def Net.readsSettled (n : Net) (stamps : List Nat) (scope : Nat) : Bool :=
  !wideScope scope || stamps.all fun k =>
    (n.early.all fun e => e.stamp != k) && (n.lags.all fun l => l.stamp != k || l.unseen.isEmpty) &&
      n.updates.all fun u => u.stamp != k

/-- What a store or release at a program position waits for in the core's fences (R232). -/
def State.holdsClear (s : State) (core pos : Nat) : Bool :=
  (s.core core).holds.all fun h => decide (pos < h.pos) ||
    (s.performedBefore core h.pos h.scope && s.net.readsSettled h.reads h.scope)

/-- What a load at a program position waits for in the core's FENCE.full (R148): every earlier access has performed, and beyond
the die every observer of the scope sees the earlier stores, where R232 lets the bundle go on once their homes have applied
them. A local access after the fence waits for nothing more (log 82). -/
def State.fullClear (s : State) (core pos : Nat) : Bool :=
  (s.core core).holds.all fun h => decide (pos < h.pos) || !h.full || s.performedBefore core h.pos h.scope

/-- A load has read from stores that some die does not see yet (R149): later loads and releases of its core order them, those
issued before it returned among them. -/
def Core.noteReads (c : Core) (pos : Nat) (stamps : List Nat) : Core :=
  { c with
    readFrom := c.readFrom ++ stamps
    reqs := c.reqs.map fun r => if r.release && decide (pos < r.pos) then { r with reads := r.reads ++ stamps } else r
    holds := c.holds.map fun h => if pos < h.pos then { h with reads := h.reads ++ stamps } else h
    outbox := c.outbox.map fun o => if pos < o.pos then { o with reads := o.reads ++ stamps } else o
    cmds := c.cmds.map fun m => if pos < m.pos then { m with reads := m.reads ++ stamps } else m }

/-- A release at a scope may leave the core: every earlier access and every store it had read from is in force
(R147, R149). -/
def State.releaseClear (s : State) (core pos scope : Nat) (reads : List Nat) : Bool :=
  s.performedBefore core pos scope && s.net.readsSettled reads scope && s.holdsClear core pos

/-- FENCE.full's own condition on stores (R232): visible to the die for the narrow scopes; applied at the home and
every replica, and exposed for .gack, for the wide ones. -/
def State.fenceDone (s : State) (core pos scope : Nat) : Bool :=
  (s.core core).reqs.all (fun r => decide (pos ≤ r.pos) || !r.isAccess ||
    (if r.returnsValue then false else r.performedAtHome || (r.cached && !wideScope scope))) &&
  s.net.updates.all fun u => u.author.engine || u.author.core != core || decide (pos ≤ u.author.pos) ||
    (!u.gack && !wideScope scope)

end Sys2Proof.Machine
end

