-- ==== Sys2Proof/Machine/View.lean ====
section
/-! DEFINITION. What each die sees of global memory, and how stores come into force (R28, R145, R149 to R154, R163, R398). -/

namespace Sys2Proof.Machine

/-- The 64-byte granule of an address (R152, R153). -/
def granule (a : Nat) : Nat := a / 64
/-- Whether two ranges share a granule. -/
def shareGranule (a n b m : Nat) : Bool :=
  decide (granule a ≤ granule (b + m - 1)) && decide (granule b ≤ granule (a + n - 1)) && n != 0 && m != 0
/-- The home MD of a physical address (R28). Every address has one: what lies beyond the 512 GB of HBM no rule says (R34,
log 68). -/
def homeOf (pa : Nat) : Nat := pa / 256 % 8

/-- The byte of a range of bytes that stands at an address, or the byte already known. -/
def overlay (base : Nat) (bytes : List Byte) (a : Nat) (b : Byte) : Byte :=
  if base ≤ a then (bytes[a - base]?).getD b else b

/-- A byte of global memory in the view of a die (R150, R151): the home's value, with the stores the die does not see yet
undone, newest first, and then the stores its own die cache has taken. -/
def Net.viewByte (n : Net) (mem : Memory) (die a : Nat) : Byte :=
  let home := mem.read a
  let undone := n.lags.foldr (fun l b => if l.unseen.contains die then overlay l.pa l.old a b else b) home
  n.early.foldl (fun b e => if e.die == die then overlay e.pa e.bytes a b else b) undone

/-- Bytes in the view of a die, or at the home for an agent that belongs to no die (R398). -/
def State.view (s : State) (die : Option Nat) (a n : Nat) : List Byte :=
  match die with
  | some d => (List.range n).map fun i => s.net.viewByte s.mem d (a + i)
  | none => s.mem.readList a n

/-- The stamps of the stores a read of a die takes its bytes from and that some die does not see yet (R149). -/
def Net.stampsRead (n : Net) (die a len : Nat) : List Nat :=
  ((n.lags.filter fun l => !l.unseen.isEmpty && !l.unseen.contains die && overlaps a len l.pa l.old.length).map (·.stamp))
    ++ ((n.early.filter fun e => e.die == die && overlaps a len e.pa e.bytes.length).map (·.stamp))

/-- Every logical compute die. -/
def allDies : List Nat := List.range dieCount

/-- Forget lags that every die sees. -/
def Net.prune (n : Net) : Net := { n with lags := n.lags.filter fun l => !l.unseen.isEmpty }

/-- Dies stop missing the stores to a granule that a later store to it makes old (R152: one coherence order). -/
def Net.catchUp (n : Net) (dies : List Nat) (pa len : Nat) : Net :=
  { n with lags := n.lags.map fun l =>
      if shareGranule pa len l.pa l.old.length then { l with unseen := l.unseen.filter fun d => !dies.contains d } else l }

/-- A write of a granule that covers all 64 bytes clears its entry of the error map (R363). -/
def Iod.clearErrors (i : Iod) (pa len : Nat) : Iod :=
  { i with errMap := i.errMap.filter fun g => !(decide (pa ≤ g * 64) && decide (g * 64 + 64 ≤ pa + len)) }
/-- Bytes as a write leaves them that keeps some bits of each (R39). -/
def keptOver (keep bytes old : List Byte) : List Byte :=
  bytes.mapIdx fun i b => (b &&& ~~~(keep.getD i 0)) ||| (old.getD i 0 &&& keep.getD i 0)
/-- A write that keeps some bits does not cover its bytes, and leaves the error map as it is (R363). -/
def State.keepErrors (keep : List Byte) (before after : State) : State :=
  if keep.all (· == 0) then after else { after with iod := { after.iod with errMap := before.iod.errMap } }

/-- A write that every die sees at one moment: an exposure, an atomic, a write of the I/O die (R151, R154). -/
def State.applyAll (s : State) (pa : Nat) (bytes : List Byte) : State :=
  { s with
    mem := s.mem.writeList pa bytes
    net := (s.net.catchUp allDies pa bytes.length).prune
    iod := s.iod.clearErrors pa bytes.length }

/-- A .fwd write applied at its home: the issuing die sees it, each other die at some later moment (R151). An engine's
write has no issuing die. -/
def State.applyFwd (s : State) (stamp job core pos : Nat) (die : Option Nat) (pa : Nat) (bytes : List Byte)
    (crier : Option Nat) : State :=
  let seen := die.toList
  let l : Lag := ⟨stamp, job, core, pos, pa, s.mem.readList pa bytes.length, allDies.filter fun d => !seen.contains d, crier⟩
  let net := s.net.catchUp seen pa bytes.length
  { s with
    mem := s.mem.writeList pa bytes
    net := ({ net with lags := net.lags ++ [l] }).prune
    iod := s.iod.clearErrors pa bytes.length }

/-- A fresh stamp. -/
def State.newStamp (s : State) : Nat × State := (s.net.stamps, { s with net := { s.net with stamps := s.net.stamps + 1 } })

/-- An agent that sees a store sees this earlier one with it: one of the same granule, or a replicated update before it in
Crier order (R145, R152). -/
def Lag.comesWith (l m : Lag) : Bool :=
  shareGranule l.pa l.old.length m.pa m.old.length || (match l.crier, m.crier with
    | some a, some b => decide (b ≤ a)
    | _, _ => false)
/-- Every store of a job is visible to every agent from here on, with the stores that come with them (R155, R374). -/
def Net.showJob (n : Net) (j : Nat) : Net :=
  ({ n with lags := n.lags.mapIdx fun i m =>
      if n.lags.zipIdx.any fun (l, k) => l.job == j && (k == i || (decide (i ≤ k) && l.comesWith m)) then
        { m with unseen := [] } else m }).prune

/-- A die comes to see the `rec`-th store it does not see yet, and with it every earlier store to the same granule and
every replicated update before it in Crier order (R145, R151, R152). -/
def Net.show (n : Net) (die rec : Nat) : Net :=
  match n.lags[rec]? with
  | none => n
  | some l =>
    let before (i : Nat) (m : Lag) : Bool := decide (i ≤ rec) &&
      (i == rec || l.comesWith m)
    ({ n with lags := n.lags.mapIdx fun i m =>
        if before i m then { m with unseen := m.unseen.filter fun d => d != die } else m }).prune

/-- Whether a read touches a granule of the error map (R363). -/
def State.errorAt (s : State) (pa n : Nat) : Bool := s.iod.errMap.any fun g => shareGranule pa n (g * 64) 64

/-- The unit of the erasure group that a physical address lies in (R330). -/
def Erasure.unitOf (e : Erasure) (pa : Nat) : Option Nat := e.frames.findIdx? fun f => f == pa / 65536
/-- The physical address of a byte of a unit (R330). -/
def Erasure.byteAt (e : Erasure) (unit b : Nat) : Nat := e.frames.getD unit 0 * 65536 + b
/-- The symbol that a package of the group holds in a stripe (R330). -/
def symbolAt (position unit : Nat) : Nat := (position + 12 - unit % 12) % 12
/-- The symbol that a physical address lies in, where its frame is a unit of the group (R330). -/
def State.symbolOf (s : State) (pa : Nat) : Option Nat :=
  s.erasure.bind fun e => (e.unitOf pa).map fun u => symbolAt e.position u
/-- A physical address lies in a data unit of the erasure group: its frame is protected (R330, R363). -/
def State.dataUnit (s : State) (pa : Nat) : Bool := (s.symbolOf pa).any fun i => decide (i < 10)
/-- A physical address lies in a parity unit of the erasure group. -/
def State.parityUnit (s : State) (pa : Nat) : Bool := (s.symbolOf pa).any fun i => decide (10 ≤ i)

/-- A unit that is lost and not yet rebuilt holds a request at its home (R362). -/
def State.unitLost (s : State) (pa : Nat) : Bool := match s.erasure with
  | some e => match e.unitOf pa with
    | some u => e.lost.contains (u, symbolAt e.position u)
    | none => false
  | none => false

/-- A request reaches a lost unit: the unit takes its place in the order of rebuilding (R362). -/
def State.wantUnit (s : State) (pa : Nat) : State := match s.erasure with
  | none => s
  | some e => match e.unitOf pa with
    | none => s
    | some u =>
      if !s.unitLost pa || e.wanted.contains u then s
      else { s with erasure := some { e with wanted := e.wanted ++ [u] } }

end Sys2Proof.Machine
end

