-- ==== Sys2Proof/Machine/Queue.lean ====
section
/-! DEFINITION. The run queue of a core and what a message meets on its way into it: the maps, the holder of a core, returned
messages and credits, the writer check, the Barrow, and channel 15 without a handler (R23, R24, R85 to R88, R98, R107, R113,
R115, R267 to R269, R272, R346, R370, R397). -/

namespace Sys2Proof.Machine

/-- Bits [63:0] of a message's header: XFORM's lowest bit, RCEN, RCH, TILL and the message id (R266). -/
def Msg.headerLow (m : Msg) : Nat :=
  m.xform % 2 * 2 ^ 63 + m.rcen.toNat * 2 ^ 62 + m.rch * 2 ^ 58 + m.till * 2 ^ 44 + m.src * 2 ^ 24 + m.seq
/-- Bits [127:64] of a message's header (R266). -/
def Msg.headerHigh (m : Msg) : Nat :=
  m.dpkg * 2 ^ 48 + m.dest * 2 ^ 33 + m.chan * 2 ^ 29 + m.eop * 2 ^ 23 + m.payload.length * 2 ^ 14 + m.scope * 2 ^ 11
    + m.ford * 2 ^ 7 + m.kind * 2 ^ 4 + m.remote.toNat * 2 ^ 3 + m.xform / 2

/-- The logical core of a gang rank (R105). -/
def Gang.coreOf (x : Gang) (gw rank : Nat) : Nat := x.die * 1024 + (x.row0 + rank / gw) * 32 + (x.col0 + rank % gw)
/-- GH of a launch. -/
def Launch.gh (l : Launch) : Nat := 2 ^ l.ghl
/-- GW of a launch. -/
def Launch.gw (l : Launch) : Nat := 2 ^ l.gwl
/-- The gang size (R105). -/
def Launch.size (l : Launch) : Nat := l.gh * l.gw

/-! ### Heads and slots (R85, R88) -/

/-- The message a channel presents as its head (R88): on a JOIN channel the oldest whose ordinal is JNEXT. -/
def Channel.head (ch : Channel) : Option Msg :=
  if wbit ch.ctl 29 then ch.queue.find? fun m => m.ford == ch.jnext else ch.queue.head?
/-- Remove the first entry a test picks. -/
def dropFirst {α : Type} (p : α → Bool) : List α → List α
  | [] => []
  | m :: rest => if p m then rest else m :: dropFirst p rest
/-- The queue after its head message leaves. -/
def Channel.popHead (ch : Channel) : Channel :=
  if wbit ch.ctl 29 then
    { ch with queue := dropFirst (fun m => m.ford == ch.jnext) ch.queue, jnext := (ch.jnext + 1) % 16 }
  else { ch with queue := ch.queue.drop 1 }

/-- Messages a core's run queue holds, the running task's slot among them (R85, R90). -/
def Core.slotsUsed (c : Core) : Nat :=
  (c.chans.toList.map fun ch => ch.queue.length).sum + c.task.isSome.toNat
/-- The slots in use, by number: 30 and 31 are the two reserved ones. -/
def Core.slotsHeld (c : Core) : List Nat :=
  (c.chans.toList.flatMap fun ch => ch.queue.map (·.slot)) ++ (c.task.map (·.msg.slot)).toList
/-- The free slot a message for a channel takes (R85): channel 15 the two reserved ones first. -/
def Core.slotFor (c : Core) (chan : Nat) : Option Nat :=
  ((if chan == 15 then [30, 31] else []) ++ List.range 30).find? fun n => !c.slotsHeld.contains n
/-- Whether an arriving message finds a slot it may use (R85). -/
def Core.slotFree (c : Core) (chan : Nat) : Bool := (c.slotFor chan).isSome

/-- The core a Barrow record is for. -/
def BarrowRec.dest : BarrowRec → Nat
  | .msg m => m.dest
  | .block d _ _ _ _ => d
/-- Its message, if it holds one. -/
def BarrowRec.msg? : BarrowRec → Option Msg
  | .msg m => some m
  | .block .. => none

/-- The gang that holds a core. -/
def State.gangOf (s : State) (c : Core) : Option Gang := match c.gang with
  | some (j, g) => s.gang j g
  | none => none

/-- Whether the Barrow of its gang holds a message for a core (R86). -/
def State.inBarrow (s : State) (core : Nat) : Bool :=
  match s.gangOf (s.core core) with
  | some g => g.barrow.any fun r => r.dest == core
  | none => false

/-- The oldest Barrow record of a core and its gang. -/
def State.oldestRecord (s : State) (core : Nat) : Option (Gang × BarrowRec) :=
  (s.gangOf (s.core core)).bind fun x => (x.barrow.find? fun r => r.dest == core).map fun r => (x, r)
/-- The oldest Barrow record of a core can move in (R86): a message where a slot is free; a DEC and a block at once, once what
they may post finds a number (R87, R267) and the core, whose buffers they change, works (R359). -/
def State.canRefill (s : State) (core : Nat) : Bool :=
  let c := s.core core
  let numbered := c.posts.isEmpty && c.seqReady && c.life == .alive
  match s.oldestRecord core with
  | some (x, .msg m) => x.state == .running && (if m.kind == 3 then numbered else c.slotFree m.chan)
  | some (x, .block ..) => x.state == .running && numbered
  | none => false

/-! ### Maps and holders (R23, R24, R105, R113) -/

/-- The die-map entry of a logical die after the first `n` entries of the broadcast order (R23, R25). -/
def Iod.xdEntry (i : Iod) (n die : Nat) : Nat :=
  (i.log.take n).foldl (fun e l => match l with
    | .map (.xd m x) => if m == die then x.toNat else e
    | _ => e) ((i.dieMap.toList.getD die 0).toNat)
/-- The memory-die-map entry of a logical MD after the first `n` entries of the broadcast order. -/
def Iod.mdEntry (i : Iod) (n md : Nat) : Nat :=
  (i.log.take n).foldl (fun e l => match l with
    | .map (.md m x) => if m == md then x.toNat else e
    | _ => e) ((i.mdMap.toList.getD md 0).toNat)

/-- A logical die is DOWN in the map of a die (R23). -/
def State.xdDown (s : State) (viewer die : Nat) : Bool :=
  s.iod.xdEntry (s.die viewer).applied die / 2 ^ 30 % 4 == 1
/-- A logical MD is DOWN in the map of a die (R23). -/
def State.mdDown (s : State) (viewer md : Nat) : Bool :=
  s.iod.mdEntry (s.die viewer).applied md / 2 ^ 30 % 4 == 1
/-- The core-map entry of a core is DOWN (R22). -/
def State.coreEntryDown (s : State) (core : Nat) : Bool := match (s.die (dieOf core)).coreMap.find core with
  | some e => e.toNat / 64 == 1
  | none => false
/-- A message from a core to a core finds a logical unit DOWN (R24). -/
def State.targetDown (s : State) (src dest : Nat) : Bool :=
  s.xdDown (dieOf src) (dieOf dest) || s.coreEntryDown dest

/-- Whether a gang's block contains a core (R105). -/
def Gang.covers (x : Gang) (l : Launch) (core : Nat) : Bool :=
  dieOf core == x.die && decide (x.row0 ≤ rowOf core) && decide (rowOf core < x.row0 + l.gh) &&
    decide (x.col0 ≤ colOf core) && decide (colOf core < x.col0 + l.gw)
/-- The rank of a core in a gang (R105). -/
def Gang.rankOf (x : Gang) (l : Launch) (core : Nat) : Nat := (rowOf core - x.row0) * l.gw + (colOf core - x.col0)
/-- Whether a gang has started and not completed, pre-empted or not (R107, R113). -/
def Gang.started (x : Gang) : Bool := match x.state with
  | .queued => false
  | .running => true
  | .preempting => true
  | .saving => true
  | .saved => true
  | .complete => false

/-- The gang of a job whose core a logical core is, pre-empted or not (R113, R272). -/
def State.holder (s : State) (j core : Nat) : Option Gang :=
  match s.job j with
  | none => none
  | some b => s.gangs.find? fun x => x.job == j && x.started && x.covers b.launch core
/-- The rank of a core in a gang of a job. -/
def State.rankIn (s : State) (x : Gang) (core : Nat) : Nat := match s.job x.job with
  | some b => x.rankOf b.launch core
  | none => 0

/-! ### Statuses, credits and returned messages (R98, R268, R269, R272, R275) -/

/-- Send a status message to a core for a job's message, quoting its id (R268, R269). -/
def State.statusTo (s : State) (core job status quoted detail : Nat) (extra : List Byte) : State :=
  s.postFar core 5 15 (statusBytes status quoted detail ++ extra) job

/-- Give a spawn credit back to the core that sent a SPAWN (R98, R275): in its saved state once its gang has been saved, and
in the core while the gang holds it. -/
def State.returnCredit (s : State) (m : Msg) : State :=
  if !m.credit then s
  else match s.holder m.job m.src with
    | none => s
    | some x =>
      let s := s.modGang x.job x.g fun y => { y with
        saved := y.saved.modify (s.rankIn x m.src) fun c => { c with spcred := min 32 (c.spcred + 1) } }
      if x.state = .saved then s else s.modCore m.src fun c => { c with spcred := min 32 (c.spcred + 1) }

/-- Return a message to its sender (R88, R268, R272), a SPAWN's credit with it (R275); a status or an internal post is discarded and counted instead
(R397). -/
def State.returnMsg (s : State) (m : Msg) (status : Nat) : State :=
  if m.kind == 4 || m.kind == 5 then s.countDiscard (s.core m.src).jobNo
  else (s.returnCredit m).statusTo m.src m.job status (m.src * 2 ^ 24 + m.seq) 0
    (natToBytes 8 m.headerLow ++ natToBytes 8 m.headerHigh ++ m.payload.take 224)

/-! ### Channel 15 without a handler (R346) -/

/-- Whether a status stops the job with FAULTED on an unhandled channel 15 (R346). -/
def statusStops (st : Nat) : Bool :=
  st == 3 || st == 4 || st == 6 || (decide (0x10 ≤ st) && decide (st ≤ 0x15)) || (decide (0x17 ≤ st) && decide (st ≤ 0x19))

/-- What an unhandled channel 15 does with a message that reaches its head: it stops the job, or discards and counts the
message (R346). -/
def State.unhandled (s : State) (core : Nat) (m : Msg) : State :=
  let j := (s.core core).jobNo
  let st := bitsN (bytesToNat (m.payload.take 8)) 47 40
  if (m.kind == 5 || m.record) && statusStops st then s.markStop j .faulted else s.countDiscard j

/-- Act on the messages that reach the head of an unhandled channel 15, at most `n` of them. While the core is halted they
wait in its queue (R386). -/
def State.sweep15 (s : State) (core : Nat) : Nat → State
  | 0 => s
  | n + 1 =>
    let c := s.core core
    let ch := c.chans[15]
    if c.dbg.halted || wbits ch.hnd 51 3 != 0 then s
    else match ch.head with
      | none => s
      | some m =>
        let rest := dropFirst (fun k => k == m) ch.queue
        let c' := { c with chans := c.chans.set 15 { ch with queue := rest } }
        ((s.setCore core c').unhandled core m).sweep15 core n

/-- Place a message in a free slot and append it to its channel's queue (R85, R87). -/
def State.enqueue (s : State) (m : Msg) : State :=
  let n : Fin 16 := Fin.ofNat 16 m.chan
  (s.modCore m.dest fun c => c.modChan n fun ch => { ch with queue := ch.queue ++ [{ m with slot := (c.slotFor m.chan).getD m.slot }] }).sweep15 m.dest 64

/-! ### The way into the run queue (R85 to R88, R107, R113, R115, R272) -/

/-- A channel of a core of a gang, in the saved state of a pre-empted gang (R88). -/
def State.channelOf (s : State) (x : Gang) (core chan : Nat) : Channel :=
  match x.state, x.saved[s.rankIn x core]? with
  | .saved, some c => c.chans[Fin.ofNat 16 chan]
  | _, _ => (s.core core).chans[Fin.ofNat 16 chan]

/-- Whether the writer check refuses a message (R88). -/
def State.refuses (s : State) (x : Gang) (m : Msg) : Bool :=
  let ch := s.channelOf x m.dest m.chan
  if !wbit ch.ctl 30 || m.kind == 2 then false
  else if wbit ch.ctl 29 then
    ch.queue.any (fun k => k.ford == m.ford) ||
      ((x.barrow ++ x.aside).filterMap BarrowRec.msg?).any fun k => k.kind != 3 && k.dest == m.dest && k.chan == m.chan && k.ford == m.ford
  else m.src != wbits ch.ctl 14 0

/-- The address in HBM of a gang's next Barrow record: 512 bytes each, in a ring of BRECS times the gang size (R86, R370). -/
def State.recordAt (s : State) (x : Gang) : Nat := match s.job x.job with
  | some b =>
    let n := b.launch.brecs * b.launch.size
    b.launch.barrow + x.g * n * 512 + x.spills % n * 512
  | none => 0
/-- Bytes of the save area of a core (R370). -/
def saveBytes : Nat := 576 * 1024
/-- Records that a gang's Barrow holds (R86). -/
def State.barrowSize (s : State) (x : Gang) : Nat := match s.job x.job with
  | some b => b.launch.brecs * b.launch.size
  | none => 0
/-- The core that a record's message is for counts it as an event of a reading (R391). -/
def State.countSpill (s : State) (r : BarrowRec) : State := match r with
  | .msg m => s.modCore m.dest (·.countEvent 0x0A 1)
  | .block .. => s
/-- Write a record to its gang's Barrow (R86, R115), or stop the job where every record is in use. The bytes in HBM are free
values (log 22); what they record stands in the gang, behind the others or ahead of them. -/
def State.spillRec (s : State) (x : Gang) (r : BarrowRec) (ahead : Bool) : State :=
  if s.barrowSize x ≤ x.barrow.length + x.aside.length then s.markStop x.job .barrowFull
  else
    let s := s.applyAll (s.recordAt x) ((List.range 512).map (Config.barrowByte s.fresh))
    ({ s with fresh := s.fresh + 1 }.modGang x.job x.g fun y => { y with
      barrow := if ahead then r :: y.barrow else y.barrow ++ [r]
      spills := y.spills + 1 }).countSpill r
/-- Write a message to its gang's Barrow. -/
def State.spill (s : State) (x : Gang) (m : Msg) : State := s.spillRec x (.msg m) false

/-- A message that is counted as discarded comes for a core that retired with its gang, which has completed (R107). -/
def State.cameLate (s : State) (m : Msg) : Bool := m.kind != 4 && m.kind != 5 && (match s.job m.job with
  | some b => s.gangs.any fun x => x.job == m.job && x.state == .complete && x.covers b.launch m.dest
  | none => false)

/-- What every message meets at its destination before it is queued or applied: it leaves the package, finds a unit DOWN,
no gang of its job, or a retired core; or it waits in the Barrow. `none` where it may go on. `cont` says that it is a barrier's
continuation: those of the arrivals released in the first step of a pre-emption are saved with the run queue (R115, log 60). -/
def State.turnedAway (s : State) (m : Msg) (cont : Bool) : Option State :=
  if m.remote then some s
  else if s.targetDown m.src m.dest then some (s.returnMsg m 1)
  else match s.holder m.job m.dest with
    | none => some ((if s.cameLate m then s.countDiscard m.job else s).returnMsg m 1)
    | some x =>
      if x.retired.contains (s.rankIn x m.dest) then
        let s := if m.kind == 4 || m.kind == 5 then s else s.countDiscard x.job
        some (s.returnMsg m 1)
      else if m.kind != 3 && s.refuses x m then some (s.returnMsg m 2)
      else if m.kind != 3 && !(s.core m.dest).slotFree m.chan then some (s.spill x m)
      else if cont && x.state == .preempting then none
      else if x.state != .running || x.barrow.any (fun k => k.dest == m.dest) then some (s.spill x m)
      else none

/-- A message of a core's own enters its queue (R87, R101, R106, R135): what any message meets applies to it too. -/
def State.place (m : Msg) (s : State) : State := (s.turnedAway m false).getD (s.enqueue m)
/-- A core posts to its own channel at the moment of what it posts: a Till's advance, a dependence word reaching zero, the
start of its gang (R87, R101, R106, R135, R269). -/
def State.post (s : State) (core kind chan : Nat) (payload : List Byte) : State :=
  s.emit State.place core true (selfMsg core 0 kind chan payload (s.core core).jobNo)

/-- Messages of a core's own that waited for a number go on their way (R267), at most `n` of them. -/
def State.flushPosts (s : State) (core : Nat) : Nat → State
  | 0 => s
  | n + 1 =>
    let c := s.core core
    match c.posts with
    | [] => s
    | (enter, m) :: rest =>
      if !c.seqReady then s
      else ((s.setCore core { c with posts := [] }).emit State.place core enter m).modCore core (fun c =>
        { c with posts := rest ++ c.posts }) |>.flushPosts core n

end Sys2Proof.Machine
end

