-- ==== Sys2Proof/Machine/Sync.lean ====
section
/-! DEFINITION. Fences, Tills and barriers (R102 to R104, R134, R135, R232 to R235). -/

namespace Sys2Proof.Machine

/-- Record a fence that holds later stores (R232), and, for a FENCE.full, later loads (R148). -/
def Core.addHold (c : Core) (scope : Nat) (full : Bool) : Core :=
  { c with holds := c.holds ++ [⟨c.positions, scope, c.readFrom, full⟩] }

/-- FENCE.acq: stalls until every earlier load and atomic has returned its value (R232). -/
def fenceAcquire (c : Core) : Run Core :=
  if c.reqs.any (·.returnsValue) then .error (.stall .fence) else .ok c
/-- FENCE.rel: the core goes on; later stores are held (R232). -/
def fenceRelease (scope : Nat) (c : Core) : Run Core := .ok (c.addHold scope false)
/-- FENCE.full: stalls until earlier loads have returned and earlier stores have performed; later loads and stores are held
until every observer of the scope sees the earlier stores (R148, R232). -/
def fenceFull (scope : Nat) (s : State) : Run State :=
  let c := s.core s.cur
  if s.fenceDone s.cur c.positions scope then .ok (s.setCore s.cur (c.addHold scope true)) else .error (.stall .fence)

/-- The payload of a Till's post (R269). -/
def tillPayload (off gen tag : Nat) : List Byte := natToBytes 4 off ++ natToBytes 4 gen ++ natToBytes 8 tag

/-- The posts of `k` generation advances of a Till, in order (R135, R233). -/
def State.tillPosts (s : State) (core off chan tag : Nat) : Nat → Nat → State
  | 0, _ => s
  | k + 1, gen =>
    let gen' := (gen + 1) % 2 ^ 32
    (s.post core 4 chan (tillPayload off gen' tag)).tillPosts core off chan tag k gen'

/-- Bring a Till's words in line with its COUNT: as many generations as COUNT holds TARGETs (R135, R233). -/
def State.tillAdvance (s : State) (core off arm chan tag target count gen : Nat) : State :=
  let k := if target == 0 then 0 else count / target
  let count' := if target == 0 then count else count % target
  let key := locKey 0 off
  let high := bitsN ((s.core core).loc.readNat (key + 12) 4) 30 20
  let loc := (s.core core).loc
  let m1 := ((loc.writeNat key 4 target).writeNat (key + 4) 4 count').writeNat (key + 8) 4 ((gen + k) % 2 ^ 32)
  let m2 := m1.writeNat (key + 12) 4 (tag + chan * 2 ^ 16 + high * 2 ^ 20 + arm * 2 ^ 31)
  let s := s.modCore core fun c => { c with loc := m2 }
  if arm == 1 then s.tillPosts core off chan tag k gen else s

/-- The address checks of TSET and TGEN (R233), in the order of R220: the Till's A offset. -/
def checkTill (c : Core) (write : Bool) (a : Word) : Run Nat := do
  let la ← localAddr a.toNat 0
  let b := bitsN la 31 30
  let off := bitsN la 17 0
  let size := if b == 3 then 0x100 else bufSize b
  orTrap (bitsN la 29 18 == 0 && decide (off < size)) (trapLocal .bufBounds la)
  orTrap (la % 16 == 0) (trapLocal .align la)
  orTrap (b == 0 && decide (0x800 ≤ off)) (trapLocal .bufAccess la)
  orTrap (!write || (aclBit c.acl 0 6 && !c.preservedBytes 0 off 16)) (trapLocal .bufAccess la)
  return off

/-- TSET (R233). -/
def tillSet (a b : Fin 32) (s : State) : Run State := do
  let c := s.core s.cur
  acquireHold c
  let off ← checkTill c true (c.x a)
  heldStall c 0 off 16
  let w := c.x b
  let key := locKey 0 off
  return s.tillAdvance s.cur off (wbits w 63 63) (wbits w 51 48) (wbits w 47 32) (wbits w 31 0)
    (c.loc.readNat (key + 4) 4) (c.loc.readNat (key + 8) 4)

/-- TGEN (R233). -/
def tillGet (d a : Fin 32) (c : Core) : Run Core := do
  acquireHold c
  let off ← checkTill c false (c.x a)
  let key := locKey 0 off
  return c.setX d (word (c.loc.readNat (key + 4) 4 * 2 ^ 32 + c.loc.readNat (key + 8) 4))

/-- The barrier of a core's gang; disabled outside any gang (R102). -/
def State.barrier (s : State) (c : Core) (b : Fin 8) : Barrier :=
  match c.gang with
  | some (j, g) => match s.gang j g with
    | some x => x.bars[b]
    | none => ⟨false, 0, 0, 0, [], [], []⟩
  | none => ⟨false, 0, 0, 0, [], [], []⟩

/-- Whether the running task has buffered an arrival at a barrier. -/
def Core.arrivalBuffered (c : Core) (b : Nat) : Bool := match c.task with
  | some t => t.buffered.any fun o => match o with
    | .bara n => n == b
    | .bard n => n == b
    | .msg _ => false
  | none => false

/-- Buffered operations of the running task and the payload bytes they carry (R271). -/
def Core.bufferLoad (c : Core) : Nat × Nat := match c.task with
  | some t => (t.buffered.length, t.buffered.foldl (fun n o => match o with
    | .msg m => n + m.payload.length
    | _ => n) 0)
  | none => (0, 0)
/-- Room for one more buffered operation of a payload length: 32 operations and 4 KiB (R271). -/
def Core.bufferRoom (c : Core) (len : Nat) : Bool :=
  decide (c.bufferLoad.1 < 32) && decide (c.bufferLoad.2 + len ≤ 4096)
/-- Buffer an operation (R271). -/
def Core.addBuffered (c : Core) (o : Buffered) : Core := c.modTask fun t => { t with buffered := t.buffered ++ [o] }

/-- BARA and BARD at issue (R104, R234, R271). -/
def arrive (b : Fin 8) (op : Buffered) (s : State) : Run State := do
  let c := s.core s.cur
  let x := s.barrier c b
  orTrap (x.en && !(x.arrived ++ x.leaving ++ x.dropped).contains c.rank && !c.arrivalBuffered b.val)
    (trapWith .barrierOverrun (word b.val))
  orTrap (c.bufferRoom 0) (trapPlain .protFault)
  return s.setCore s.cur (c.addBuffered op)

/-- BARQ's snapshot (R235). A core that has arrived by BARD counts as ARRIVED until its phase completes (DESIGN CHOICE, log 98). -/
def barrierWord (c : Core) (x : Barrier) (b : Nat) : Word :=
  if !x.en then 0
  else
    word (2 ^ 63 + ((x.arrived ++ x.leaving).contains c.rank).toNat * 2 ^ 62 + (x.dropped.contains c.rank).toNat * 2 ^ 61
      + (c.arrivalBuffered b).toNat * 2 ^ 60 + (x.arrived.length + x.leaving.length) * 2 ^ 43 + x.expected * 2 ^ 32
      + x.phase % 2 ^ 32)

/-- FENCE.acq (R232). -/
def execFenceAcq (g : Guard) (sc : Fin 8) (s : State) : Host.Outcome State Fault Refusal :=
  runOn (.fenceAcq g sc) (onCore fenceAcquire) s

/-- FENCE.rel (R232). -/
def execFenceRel (g : Guard) (sc : Fin 8) (s : State) : Host.Outcome State Fault Refusal :=
  runOn (.fenceRel g sc) (onCore (fenceRelease sc.val)) s

/-- FENCE.full (R232). -/
def execFenceFull (g : Guard) (sc : Fin 8) (s : State) : Host.Outcome State Fault Refusal :=
  runOn (.fenceFull g sc) (fenceFull sc.val) s

/-- TSET (R233). -/
def execTset (g : Guard) (a : Fin 32) (b : Fin 32) (s : State) : Host.Outcome State Fault Refusal :=
  runOn (.tset g a b) (tillSet a b) s

/-- TGEN (R233). -/
def execTgen (g : Guard) (d : Fin 32) (a : Fin 32) (s : State) : Host.Outcome State Fault Refusal :=
  runOn (.tgen g d a) (onCore (tillGet d a)) s

/-- BARA (R234). -/
def execBara (g : Guard) (b : Fin 8) (s : State) : Host.Outcome State Fault Refusal :=
  runOn (.bara g b) (arrive b (.bara b.val)) s

/-- BARD (R234). -/
def execBard (g : Guard) (b : Fin 8) (s : State) : Host.Outcome State Fault Refusal :=
  runOn (.bard g b) (arrive b (.bard b.val)) s

/-- BARQ (R235). -/
def execBarq (g : Guard) (d : Fin 32) (b : Fin 8) (s : State) : Host.Outcome State Fault Refusal :=
  runOn (.barq g d b) (fun s => let c := s.core s.cur; .ok (s.setCore s.cur (c.setX d (barrierWord c (s.barrier c b) b.val)))) s

end Sys2Proof.Machine
end

