-- ==== Sys2Proof/Machine/Messages.lean ====
section
/-! DEFINITION. Messages to cores (R266 to R276): target words, payloads, SPAWN and MSGRD. -/

namespace Sys2Proof.Machine

/-- What a message uses of its target word besides SCOPE (R270, R273 to R275). -/
structure TargetUse where
  remote : Bool
  ford : Bool
  chan : Bool
  doff : Bool
  core : Bool

/-- Whether a target word passes the checks of R270 for the fields in use. -/
def targetOk (w : Word) (u : TargetUse) : Bool :=
  wbits w 35 33 == 0 && wbits w 17 15 == 0 && decide (wbits w 46 44 ≤ 4) && decide (wbits w 14 0 < coreCount) &&
    (wbit w 47 || wbits w 63 48 == 0) && (u.remote || (!wbit w 47 && wbits w 63 48 == 0)) &&
    (u.ford || wbits w 43 40 == 0) && (u.chan || wbits w 39 36 == 0) && (u.doff || wbits w 32 18 == 0) &&
    (u.core || wbits w 14 0 == 0)

/-- The payload a descriptor names, read at issue (R273). -/
def readPayload (c : Core) (w : Word) : Run (List Byte) := do
  let len := wbits w 40 32
  let la := wbits w 31 0
  orTrap (wbits w 63 41 == 0 && decide (len ≤ 256)) (trapPlain .fmtMismatch)
  if len == 0 then return []
  else
    acquireHold c
    let b := bitsN la 31 30
    let off := bitsN la 17 0
    orTrap (bitsN la 29 18 == 0 && decide (off + len ≤ (if b == 3 then 0x100 else bufSize b))) (trapLocal .bufBounds la)
    orTrap (la % 8 == 0) (trapLocal .align la)
    orTrap (b != 3) (trapLocal .bufAccess la)
    return c.loc.readList (locKey b off) len

/-- Buffer a core message (R271): it takes the next sequence number; its marks are set when it is released. The limit on buffered
operations is checked after the instruction's other checks (DESIGN CHOICE, log 104). -/
def bufferMsg (core : Nat) (c : Core) (kind : Nat) (dest dpkg : Nat) (remote : Bool) (chan scope ford : Nat)
    (payload : List Byte) (path : Word) : Run Core := do
  orTrap (c.bufferRoom payload.length) (trapPlain .protFault)
  let (seq, c) ← takeSeq c
  return c.addBuffered (.msg
    { dpkg := dpkg, dest := dest, chan := chan, eop := 0, scope := scope, ford := ford, kind := kind, remote := remote,
      xform := 0, rcen := false, rch := 0, till := 0, src := core, seq := seq, payload := payload, path := path,
      marks := [], charges := 0, job := c.jobNo, record := false, credit := kind == 2, slot := 0 })

/-- SEND and SENDV after their payload is read (R273). -/
def sendTo (core : Nat) (w : Word) (payload : List Byte) (c : Core) : Run Core :=
  bufferMsg core c 0 (wbits w 14 0) (wbits w 63 48) (wbit w 47) (wbits w 39 36) (wbits w 46 44) (wbits w 43 40) payload 0

/-- SEND (R273): the target word is checked before the payload (DESIGN CHOICE, log 104). -/
def sendMsg (a b : Fin 32) (s : State) : Run State := onCore (fun c => do
  let w := c.x a
  orTrap (targetOk w ⟨true, true, true, false, true⟩) (trapPlain .fmtMismatch)
  let p ← readPayload c (c.x b)
  sendTo s.cur w p c) s
/-- SENDV (R273): the target word is checked before a bound vb is popped (DESIGN CHOICE, log 104). -/
def sendVec (a b : Fin 32) (s : State) : Run State := onCore (fun c => do
  let w := c.x a
  orTrap (targetOk w ⟨true, true, true, false, true⟩) (trapPlain .fmtMismatch)
  let (v, c) ← readV b c
  sendTo s.cur w (natToBytes 16 v.toNat) c) s
/-- REPLY: to SRC of the current message, on the package it came from (R273). -/
def replyMsg (a b : Fin 32) (s : State) : Run State := onCore (fun c => do
  let w := c.x a
  orTrap (targetOk w ⟨false, true, true, false, false⟩) (trapPlain .fmtMismatch)
  let p ← readPayload c (c.x b)
  let (src, pkg, remote) : Nat × Nat × Bool := match c.task with
    | some t => (t.msg.src, t.msg.dpkg, t.msg.remote)
    | none => (s.cur, 0, false)
  bufferMsg s.cur c 1 src pkg remote (wbits w 39 36) (wbits w 46 44) (wbits w 43 40) p 0) s
/-- DEC (R274). -/
def decMsg (a b : Fin 32) (s : State) : Run State := onCore (fun c => do
  let w := c.x a
  let v := c.x b
  let off := wbits w 32 18 * 8
  orTrap (targetOk w ⟨true, false, false, true, true⟩ && wbits v 63 32 == 0 && v != 0) (trapPlain .fmtMismatch)
  orTrap (decide (0x800 ≤ off) && decide (off ≤ 0x2FFF8)) (trapPlain .bufBounds)
  bufferMsg s.cur c 3 (wbits w 14 0) (wbits w 63 48) (wbit w 47) 0 (wbits w 46 44) 0
    (natToBytes 4 v.toNat ++ natToBytes 4 off) 0) s

/-- The fork path of the o-th child of a task (R99). -/
def childPath (path : Word) (o : Nat) : Word :=
  let depth := wbits path 63 60
  if 12 ≤ depth || 15 < o then path
  else word ((depth + 1) * 2 ^ 60 + wbits path 59 48 * 2 ^ 48 + wbits path 47 0 + o * 2 ^ (4 * depth))

/-- The core a SPAWN in reproducible mode goes to (R116). -/
def State.reproTarget (s : State) (c : Core) (path : Word) : Nat :=
  match c.gang with
  | some (j, g) => match s.gang j g, s.job j with
    | some x, some b =>
      let h := path.toNat * 0x9E3779B97F4A7C15 % 2 ^ 64
      x.coreOf b.launch.gw (h * b.launch.size / 2 ^ 64)
    | _, _ => s.cur
  | none => s.cur

/-- SPAWN (R275): the checks in their order, then a credit and a buffered message, or failure. -/
def spawnMsg (k : Fin 8) (a b : Fin 32) (v : Fin 16) (s : State) : Run State := do
  let c := s.core s.cur
  let (ord, path) : Nat × Word := match c.task with
    | some t => (t.spawns, t.path)
    | none => (0, 0)
  let h := c.x a
  let w := c.x b
  let lo := Word.pairLow v
  let hi := Word.pairHigh v
  orTrap (!c.jobattr || (decide (wbits path 63 60 < 12) && decide (ord ≤ 15))) (trapPlain .protFault)
  orTrap (wbits h 63 52 == 0) (trapPlain .fmtMismatch)
  orTrap (wbits h 2 0 == 0) (trapPlain .align)
  orTrap (targetOk w ⟨false, false, true, false, true⟩) (trapPlain .fmtMismatch)
  orTrap (!c.bound lo && !c.bound hi) (trapPlain .bufAccess)
  let counted := c.modTask fun t => { t with spawns := t.spawns + 1 }
  if c.spcred == 0 then return s.setCore s.cur (counted.setK k false)
  else
    let child := childPath path ord
    let dest := if c.jobattr then s.reproTarget c child else wbits w 14 0
    let payload := natToBytes 8 h.toNat ++ natToBytes 16 (c.old.v[lo]).toNat ++ natToBytes 16 (c.old.v[hi]).toNat
    let c' ← bufferMsg s.cur { counted with spcred := c.spcred - 1 } 2 dest 0 false (wbits w 39 36) (wbits w 46 44)
      (ord % 16) payload child
    return s.setCore s.cur (c'.setK k true)

/-- MSGRD (R276). -/
def msgRead (d b : Fin 32) (c : Core) : Run Core := do
  let o := c.xN b
  orTrap (decide (o ≤ 264)) (trapPlain .bufBounds)
  orTrap (o % 8 == 0) (trapPlain .align)
  match c.task with
  | none => return c.setX d 0
  | some t =>
    let m := t.msg
    return c.setX d (word (if o == 256 then m.headerLow else if o == 264 then m.headerHigh
      else bytesToNat ((m.payload.drop o).take 8)))

/-- SEND (R273). -/
def execSend (g : Guard) (a : Fin 32) (b : Fin 32) (s : State) : Host.Outcome State Fault Refusal :=
  runOn (.send g a b) (sendMsg a b) s

/-- SENDV (R273). -/
def execSendv (g : Guard) (a : Fin 32) (b : Fin 32) (s : State) : Host.Outcome State Fault Refusal :=
  runOn (.sendv g a b) (sendVec a b) s

/-- REPLY (R273). -/
def execReply (g : Guard) (a : Fin 32) (b : Fin 32) (s : State) : Host.Outcome State Fault Refusal :=
  runOn (.reply g a b) (replyMsg a b) s

/-- DEC (R274). -/
def execDec (g : Guard) (a : Fin 32) (b : Fin 32) (s : State) : Host.Outcome State Fault Refusal :=
  runOn (.dec g a b) (decMsg a b) s

/-- MSGRD (R276). -/
def execMsgrd (g : Guard) (d : Fin 32) (b : Fin 32) (s : State) : Host.Outcome State Fault Refusal :=
  runOn (.msgrd g d b) (onCore (msgRead d b)) s

/-- SPAWN (R275). -/
def execSpawn (g : Guard) (k : Fin 8) (a : Fin 32) (b : Fin 32) (v : Fin 16) (s : State) : Host.Outcome State Fault Refusal :=
  runOn (.spawn g k a b v) (spawnMsg k a b v) s

end Sys2Proof.Machine
end

