-- ==== Sys2Proof/Machine/Rings.lean ====
section
/-! DEFINITION. Ring instructions (R129 to R133, R236 to R239) and residency instructions at issue (R240). -/

namespace Sys2Proof.Machine

/-- The ring a descriptor word defines (R129). -/
def ringOfWord (w : Word) : Ring :=
  ⟨0, 0, wbits w 63 62, wbits w 61 44, wbits w 43 40, wbits w 39 36, wbits w 35 30, wbits w 29 27, wbit w 26, 0⟩

/-- The placement checks of RDEF, BUF_BOUNDS (R130, R236). -/
def Ring.placed (r : Ring) : Bool :=
  decide (4 ≤ r.slog) && decide (r.slog ≤ 12) && decide (1 ≤ r.clog) && decide (r.clog ≤ 8) && r.buf != 3 &&
    r.base % r.slotBytes == 0 && decide (r.base + r.slots * r.slotBytes ≤ bufSize r.buf) &&
    !(r.buf == 0 && decide (r.base < 0x800))
/-- The role and format checks of RDEF, FMT_MISMATCH (R130, R131). -/
def Ring.typed (r : Ring) : Bool :=
  decide (r.role ≤ 4) && fmtAssigned r.fmt && !(r.role == 1 && r.buf != 0) && !(r.role == 2 && r.buf != 1)

/-- End every binding of a ring; the registers then read zero (R130, R236). -/
def Core.unbindRing (c : Core) (r : Nat) : Core :=
  match c.task with
  | none => c
  | some t =>
    let lost := t.binds.filter fun p => p.2.ring == r
    let c := lost.foldl (fun c p => c.putV (Fin.ofNat 32 p.1) 0) c
    c.modTask fun t => { t with binds := t.binds.filter fun p => p.2.ring != r }

/-- Replace a ring and discard the task's moves on it that no other agent sees (R236). -/
def Core.putRing (c : Core) (h : Fin 16) (r : Ring) : Core :=
  { c.modTask (fun t => { t with heads := t.heads.set h 0, tails := t.tails.set h 0 }) with rings := c.rings.set h r }

/-- RDEF (R236). A descriptor that breaks checks of both codes raises BUF_BOUNDS: no rule gives their order (log 90). -/
def ringDefine (h : Fin 16) (a : Fin 32) (c : Core) : Run Core := do
  let w := c.x a
  let r := ringOfWord w
  let busy := c.filled h != 0 || (c.rings[h]).reserved != 0
  if wbit w 26 then
    orTrap r.placed (trapPlain .bufBounds)
    orTrap (wbits w 25 0 == 0 && r.typed && !busy) (trapPlain .fmtMismatch)
    return (c.unbindRing h.val).putRing h r
  else
    orTrap (wbits w 25 0 == 0 && !busy) (trapPlain .fmtMismatch)
    return (c.unbindRing h.val).putRing h Ring.zero

/-- Whether a bound register has a nonzero cursor on a side of a ring (R237). -/
def Core.cursorOpen (c : Core) (h : Fin 16) (reading : Bool) : Bool := match c.task with
  | some t => t.binds.any fun p => p.2.ring == h.val && (if reading then p.2.rcur else p.2.wcur) != 0
  | none => false

/-- RADV.hd (R237): HEAD of a GEN, WIN or RECV ring (R131). -/
def advanceHead (h : Fin 16) (a : Fin 32) (c : Core) : Run Core := do
  let r := c.rings[h]
  let k := c.xN a
  orTrap (r.valid && (r.role == 0 || r.role == 3 || r.role == 4) && !c.cursorOpen h true) (trapPlain .bufAccess)
  orTrap (decide (k ≤ c.popsLeft h)) (trapPlain .ringUnderrun)
  return if k == 0 then c else c.popSlots h k
/-- RADV.tl (R237): TAIL of a GEN, MXA, MXB or WIN ring (R131). -/
def advanceTail (h : Fin 16) (a : Fin 32) (c : Core) : Run Core := do
  let r := c.rings[h]
  let k := c.xN a
  orTrap (r.valid && decide (r.role ≤ 3) && !c.cursorOpen h false) (trapPlain .bufAccess)
  orTrap (decide (k ≤ c.pushesLeft h)) (trapPlain .ringOverrun)
  return if k == 0 then c else c.pushSlots h k

/-- RQRY's word (R238). -/
def ringWord (c : Core) (h : Fin 16) : Word :=
  if !(c.rings[h]).valid then 0
  else
    let lim : Bool := match c.task with
      | some t => (t.popAllow.find h.val).isSome || (t.pushAllow.find h.val).isSome
      | none => false
    word (lim.toNat * 2 ^ 55 + c.pushesLeft h * 2 ^ 46 + c.popsLeft h * 2 ^ 37 + c.free h * 2 ^ 28 + c.filled h * 2 ^ 19
      + c.tailOf h * 2 ^ 10 + c.headOf h * 2 + 1)

/-- BIND (R239). -/
def bindWindow (v : Fin 32) (h : Fin 16) (c : Core) : Run Core := do
  let r := c.rings[h]
  let taken : Bool := match c.task with
    | some t => t.binds.any fun p => p.2.ring == h.val
    | none => false
  orTrap (r.valid && (r.role == 3 || r.role == 4) && !c.bound v && !taken) (trapPlain .bufAccess)
  return (c.putV v 0).setBinding v ⟨h.val, 0, 0⟩

/-- Settle a binding's partial cursors: a slot begun counts as popped or pushed (R133). -/
def Core.settleBinding (c : Core) (b : Binding) : Core :=
  let h : Fin 16 := Fin.ofNat 16 b.ring
  let c := if b.rcur == 0 then c else c.popSlots h 1
  if b.wcur == 0 then c else c.pushSlots h 1

/-- UNBIND (R239). -/
def unbindWindow (v : Fin 32) (c : Core) : Core :=
  match c.binding v with
  | none => c
  | some b => ((c.settleBinding b).modTask fun t => { t with binds := t.binds.drop v.val }).putV v 0

/-- HPIN, HDEM and HEVT at issue (R240): a record pointer of FMT 0, 32-byte aligned. One that is neither raises FMT_MISMATCH:
no rule gives the order of the two (log 90). -/
def residencyOp (a : Fin 32) (op : ReqOp) (dest : Option RegName) (c : Core) : Run Core := do
  let p := c.x a
  orTrap (wbits p 63 52 == 0) (trapGlobal .fmtMismatch 1 p)
  orTrap (wbits p 51 0 % 32 == 0) (trapGlobal .align 1 p)
  let (_, c') ← issueReq c p op dest false 0 false
  return c'

/-- RDEF (R236). -/
def execRdef (g : Guard) (h : Fin 16) (a : Fin 32) (s : State) : Host.Outcome State Fault Refusal :=
  runOn (.rdef g h a) (onCore (ringDefine h a)) s

/-- RADV.hd (R237). -/
def execRadvHd (g : Guard) (h : Fin 16) (a : Fin 32) (s : State) : Host.Outcome State Fault Refusal :=
  runOn (.radvHd g h a) (onCore (advanceHead h a)) s

/-- RADV.tl (R237). -/
def execRadvTl (g : Guard) (h : Fin 16) (a : Fin 32) (s : State) : Host.Outcome State Fault Refusal :=
  runOn (.radvTl g h a) (onCore (advanceTail h a)) s

/-- RQRY (R238). -/
def execRqry (g : Guard) (d : Fin 32) (h : Fin 16) (s : State) : Host.Outcome State Fault Refusal :=
  runOn (.rqry g d h) (onCorePure fun c => c.setX d (ringWord c h)) s

/-- BIND (R239). -/
def execBind (g : Guard) (w : Fin 4) (h : Fin 16) (s : State) : Host.Outcome State Fault Refusal :=
  runOn (.bind g w h) (onCore (bindWindow (Word.windowReg w) h)) s

/-- UNBIND (R239). -/
def execUnbind (g : Guard) (w : Fin 4) (s : State) : Host.Outcome State Fault Refusal :=
  runOn (.unbind g w) (onCorePure (unbindWindow (Word.windowReg w))) s

/-- HPIN (R240): xd is pending until every slice has answered. -/
def execHpin (g : Guard) (d : Fin 32) (a : Fin 32) (s : State) : Host.Outcome State Fault Refusal :=
  runOn (.hpin g d a) (onCore (residencyOp a (.residency .pin) (some (.x d)))) s

/-- HDEM (R240). -/
def execHdem (g : Guard) (a : Fin 32) (b : Fin 32) (s : State) : Host.Outcome State Fault Refusal :=
  runOn (.hdem g a b) (onCore fun c => residencyOp a (.residency (.demote (wbits (c.x b) 2 0))) none c) s

/-- HEVT (R240). -/
def execHevt (g : Guard) (a : Fin 32) (s : State) : Host.Outcome State Fault Refusal :=
  runOn (.hevt g a) (onCore (residencyOp a (.residency .evict) none)) s

end Sys2Proof.Machine
end

