-- ==== Sys2Proof/Machine/Matrix.lean ====
section
/-! DEFINITION. The matrix instructions at issue (R295, R298 to R305, R307 to R311). -/

namespace Sys2Proof.Machine

/-- Ring bits per element of an operand format (R298). -/
def ringBits (f : Nat) : Nat :=
  if f == 1 || f == 2 then 32 else if f == 3 || f == 4 then 16 else if fmtBits f ≤ 4 then 4 else 8
/-- K of an operand format (R298). -/
def classK (f : Nat) : Nat := if ringBits f == 4 then 128 else if ringBits f == 8 then 64 else 32
/-- K of an operation (R298). -/
def pairK (fa fb : Nat) : Nat := min (classK fa) (classK fb)

/-- Formats of MMA and MMAT operands (R304). -/
def plainOperand (f : Nat) : Bool := (decide (1 ≤ f) && decide (f ≤ 9)) || (decide (19 ≤ f) && decide (f ≤ 26))

/-- The right of a buffer's BUFACL byte (R125). -/
def Core.right (c : Core) (b i : Nat) : Bool := aclBit c.acl b i

/-- Slots of a ring that queued operations hold (R304, R305). -/
def Core.takenSlots (c : Core) (r : Nat) : Nat :=
  (c.mxq.filter fun o => match o.work with
    | .product _ _ _ _ _ _ _ _ _ ra rb pa pb _ =>
      ra == r || rb == r || (pa.map (·.1)) == some r || (pb.map (·.1)) == some r
    | _ => false).length

/-- A product takes the slot at HEAD + p of a ring: one pop counts, and moves that the task made on the ring become
visible to every agent where the slot is one it pushed itself (R305). -/
def Core.takeSlot (c : Core) (r : Fin 16) : Core :=
  let p := c.takenSlots r.val
  let c := c.modTask fun t => { t with pops := t.pops.set r (t.pops[r] + 1) }
  let g := c.rings[r]
  match c.task with
  | none => c
  | some t =>
    if p + t.heads[r] < filledOf g.head g.tail then c
    else
      let g' := { g with head := c.headOf r, tail := c.tailOf r }
      { c.modTask (fun t => { t with heads := t.heads.set r 0, tails := t.tails.set r 0 }) with rings := c.rings.set r g' }

/-- Queue an operation, stalling while 16 entries are taken (R295) or the power limit keeps it back (R36). -/
def Core.queueMx (c : Core) (w : MxWork) : Run Core :=
  if 16 ≤ c.mxq.length then .error (.stall .mxuFull)
  else if c.throttled then .error (.stall .throttle)
  else .ok { c with mxq := c.mxq ++ [⟨w, false⟩] }
/-- A tile is free of preserved bytes: an instruction that writes it may issue (R294, log 63). -/
def Core.tileOpen (c : Core) (t : Fin 64) : Bool := !c.preservedBytes 2 (2048 * t.val) 2048

/-- The partner ring of a scaled operand, or none where it breaks R300. -/
def Core.partner (c : Core) (r : Fin 16) (f rows k : Nat) : Option (Fin 16) :=
  let q : Fin 16 := Fin.ofNat 16 (r.val + 1)
  let g := c.rings[q]
  let bk := fmtBlock f
  if r.val % 2 == 0 && g.valid && g.role == (c.rings[r]).role && g.fmt == (if fmtMx f then 37 else 6)
      && decide (rows * k / bk ≤ g.slotBytes) then some q else none

/-- MMA, MMAS and MMAT at issue (R304, R305). -/
def productOp (scaled transposed : Bool) (a b : Fin 16) (t : Fin 64) (zc : Bool) (c : Core) : Run Core := do
  let ra := c.rings[a]
  let rb := c.rings[b]
  orTrap (ra.valid && ra.role == 1 && rb.valid && rb.role == 2) (trapPlain .bufAccess)
  orTrap (c.right 0 5 && c.right 1 5 && c.right 2 4 && (zc || c.right 2 5) && c.tileOpen t) (trapPlain .bufAccess)
  let sa := scaled && fmtScaled ra.fmt
  let sb := scaled && fmtScaled rb.fmt
  let formats := if scaled then fmtOperand ra.fmt && fmtOperand rb.fmt && (sa || sb)
    else plainOperand ra.fmt && plainOperand rb.fmt
  orTrap formats (trapPlain .fmtMismatch)
  let k := pairK ra.fmt rb.fmt
  let pa := if sa then c.partner a ra.fmt 16 k else none
  let pb := if sb then c.partner b rb.fmt 32 k else none
  orTrap ((!sa || pa.isSome) && (!sb || pb.isSome) && decide (2 * k * ringBits ra.fmt ≤ ra.slotBytes)
    && decide (4 * k * ringBits rb.fmt ≤ rb.slotBytes)) (trapPlain .fmtMismatch)
  let used := [a, b] ++ pa.toList ++ pb.toList
  let ready (r : Fin 16) : Bool := decide (c.takenSlots r.val < c.filled r) && (match c.task with
    | some t => match t.popAllow.find r.val with
      | some n => decide (t.pops[r] < n)
      | none => true
    | none => true)
  orTrap (used.all ready) (trapPlain .ringUnderrun)
  let off (r : Fin 16) : Nat := (c.rings[r]).slotAt (c.headOf r + c.takenSlots r.val)
  let part (r : Fin 16) : Nat × Nat × Nat := (r.val, off r, (c.rings[r]).slotBytes)
  let work : MxWork := .product transposed t.val zc ra.fmt rb.fmt ra.slotBytes rb.slotBytes (off a) (off b) a.val b.val
    (pa.map part) (pb.map part) c.table
  (used.foldl (fun c r => c.takeSlot r) c).queueMx work

/-- A tile operation at issue: its rights on C, then its place in the queue (R307). -/
def tileOp (rights : Bool) (work : MxWork) (c : Core) : Run Core := do
  orTrap rights (trapPlain .bufAccess)
  c.queueMx work

/-- CSCL at issue: vQ holds α, β, a control word and zero (R307). -/
def scaleTile (t : Fin 64) (q : Fin 32) (c : Core) : Run Core := do
  orTrap (c.right 2 5 && c.right 2 4 && c.tileOpen t) (trapPlain .bufAccess)
  let (v, c') ← readV q c
  let ctl := lane v 32 2
  orTrap (ctl / 4 == 0 && lane v 32 3 == 0) (trapPlain .fmtMismatch)
  c'.queueMx (.cscl t.val (lane v 32 0) (lane v 32 1) (bitN ctl 0) (bitN ctl 1))

/-- Whether a queued operation writes a tile (R308). -/
def MxWork.writes (w : MxWork) (t : Nat) : Bool :=
  match w with
  | .product _ u _ _ _ _ _ _ _ _ _ _ _ _ => u == t
  | .czero u => u == t
  | .cscl u _ _ _ _ => u == t
  | .cadd u _ => u == t

/-- The FP32 code of element `e` of a tile (R301). -/
def tileElem (m : Memory) (t e : Nat) : Nat := m.readNat (locKey 2 (2048 * t + 4 * e)) 4

/-- A list of codes of `w` bits packed by R39 into bytes. -/
def packCodes (w : Nat) (codes : List Nat) : Nat := codes.foldr (fun x acc => x % 2 ^ w + 2 ^ w * acc) 0

/-- Formats CCVT writes (R308). -/
def ccvtFormat (f : Nat) : Bool := [1, 2, 3, 4, 5, 6, 9, 19, 20, 21, 22, 25, 26].contains f

/-- CCVT (R308): its checks, with the BUF_ACCESS of a slot in a preserved range (R294) behind those that R308 orders, naming
the slot in FADDR (log 63), the stall for the tile's writers and for a held slot, then the conversion and the push. -/
def convertTile (t : Fin 64) (h : Fin 16) (c : Core) : Run Core := do
  acquireHold c
  let r := c.rings[h]
  orTrap (r.valid && decide (r.role ≤ 3) && !c.cursorOpen h false && c.right r.buf 6) (trapPlain .bufAccess)
  let n := 64 * fmtBits r.fmt
  orTrap (ccvtFormat r.fmt && decide (n ≤ r.slotBytes)) (trapPlain .fmtMismatch)
  orTrap (decide (1 ≤ c.pushesLeft h)) (trapPlain .ringOverrun)
  let off := r.slotAt (c.tailOf h)
  orTrap (!c.preservedBytes r.buf off n) (trapLocal .bufAccess (r.buf * 2 ^ 30 + off))
  if c.mxq.any fun o => o.work.writes t.val then .error (.stall .mxuHeld)
  else
    heldStall c r.buf off n
    let sat := r.fmt == 5 || r.fmt == 6 || r.fmt == 9
    let codes := (List.range 512).map fun e =>
      (encodeElem c.table r.fmt .rne sat (fp32.decode (tileElem c.loc t.val e))).1
    return { c with loc := c.loc.writeNat (locKey r.buf off) n (packCodes (fmtBits r.fmt) codes) }.pushSlots h 1

/-- MDRAIN (R309). -/
def drainMx (c : Core) : Run Core := if c.mxq.isEmpty then .ok c else .error (.stall .mxuHeld)

/-- MQRY's snapshot (R310). -/
def queueWord (c : Core) : Vec :=
  BitVec.ofNat 128 ((c.mxRetired + c.mxq.length) % 2 ^ 64 * 2 ^ 64 + c.mxRetired % 2 ^ 32 * 2 ^ 32
    + c.weight * 2 ^ 12 + c.mxq.length)

/-- MXCFG (R311). -/
def setWeight (a : Fin 32) (c : Core) : Run Core := do
  let (v, c') ← readV a c
  orTrap (decide (1 ≤ v.toNat) && decide (v.toNat ≤ 15)) (trapPlain .fmtMismatch)
  return { c' with weight := v.toNat }

/-- MMA (R304, R305). -/
def execMma (g : Guard) (a : Fin 16) (b : Fin 16) (t : Fin 64) (zc : Bool) (s : State) : Host.Outcome State Fault Refusal :=
  runOn (.mma g a b t zc) (onCore (productOp false false a b t zc)) s

/-- MMAS (R304, R305). -/
def execMmas (g : Guard) (a : Fin 16) (b : Fin 16) (t : Fin 64) (zc : Bool) (s : State) : Host.Outcome State Fault Refusal :=
  runOn (.mmas g a b t zc) (onCore (productOp true false a b t zc)) s

/-- MMAT (R304, R305). -/
def execMmat (g : Guard) (a : Fin 16) (b : Fin 16) (t : Fin 64) (zc : Bool) (s : State) : Host.Outcome State Fault Refusal :=
  runOn (.mmat g a b t zc) (onCore (productOp false true a b t zc)) s

/-- CZERO (R307). -/
def execCzero (g : Guard) (t : Fin 64) (s : State) : Host.Outcome State Fault Refusal :=
  runOn (.czero g t) (onCore fun c => tileOp (c.right 2 4 && c.tileOpen t) (.czero t.val) c) s

/-- CSCL (R307). -/
def execCscl (g : Guard) (t : Fin 64) (q : Fin 32) (s : State) : Host.Outcome State Fault Refusal :=
  runOn (.cscl g t q) (onCore (scaleTile t q)) s

/-- CCVT (R308). -/
def execCcvt (g : Guard) (t : Fin 64) (h : Fin 16) (s : State) : Host.Outcome State Fault Refusal :=
  runOn (.ccvt g t h) (onCore (convertTile t h)) s

/-- CADD (R307). -/
def execCadd (g : Guard) (t : Fin 64) (q : Fin 64) (s : State) : Host.Outcome State Fault Refusal :=
  runOn (.cadd g t q) (onCore fun c => tileOp (c.right 2 5 && c.right 2 4 && c.tileOpen t) (.cadd t.val q.val) c) s

/-- MDRAIN (R309). -/
def execMdrain (g : Guard) (s : State) : Host.Outcome State Fault Refusal :=
  runOn (.mdrain g) (onCore drainMx) s

/-- MQRY (R310). -/
def execMqry (g : Guard) (d : Fin 32) (s : State) : Host.Outcome State Fault Refusal :=
  runOn (.mqry g d) (onCore fun c => writeV d (queueWord c) c) s

/-- MXCFG (R311). -/
def execMxcfg (g : Guard) (a : Fin 32) (s : State) : Host.Outcome State Fault Refusal :=
  runOn (.mxcfg g a) (onCore (setWeight a)) s

end Sys2Proof.Machine
end

