-- ==== Sys2Proof/Machine/System.lean ====
section
/-! DEFINITION. Control registers, system instructions and containment domains (R79 to R84, R91, R180, R181, R288 to
R294). -/

namespace Sys2Proof.Machine

/-- Effective priority of a channel: its base priority and one step for each 2^16 of WAIT, at most 7 (R83, R93). -/
def Channel.eprio (ch : Channel) : Nat := min 7 (wbits ch.ctl 26 24 + ch.wait / 65536)

/-- CHSTAT (R83). -/
def Channel.stat (ch : Channel) : Word :=
  word (ch.wait % 2 ^ 32 * 2 ^ 32 + ch.jnext % 16 * 2 ^ 16 + ch.eprio * 2 ^ 8 + min 32 ch.queue.length)

/-- HEALTH of a core's die (R365). -/
def State.health (s : State) (core : Nat) : Word :=
  word (s.sp.rr.toNat * 2 ^ 63 + (s.die (dieOf core)).csUsed.length % 256 * 2 ^ 8 + s.sp.spares.length % 4)

/-- DBGSTAT as it reads (R384). -/
def Debug.stat (d : Debug) (lateHeld : Bool) : Word :=
  word (d.halted.toNat * 2 ^ 63 + d.cause * 2 ^ 60 + lateHeld.toNat * 2 ^ 59) ||| (d.next &&& 0x000FFFFFFFFFFFF8#64)

/-- A channel register by its block: 0 CHHND, 1 CHCTL, 2 CHCOND, 3 CHTILL, 4 CHSTAT (R180). -/
def Channel.reg (ch : Channel) (k : Nat) : Word :=
  match k with
  | 0 => ch.hnd
  | 1 => ch.ctl
  | 2 => ch.cond
  | 3 => ch.till
  | _ => ch.stat

/-- A channel register as its core reads it (R84, R180): the value last written, or the one in force. -/
def Core.chanReg (c : Core) (num : Nat) : Word :=
  (c.written.find num).getD ((c.chans[Fin.ofNat 16 num]).reg ((num - 0x100) / 16))

/-- The value CSRR reads from a control register (R180, R181), from before the bundle. On a core with no task, which only the
debug path reads, MSGID, BUDGET, TASKCTL and FPATH read 0 (log 62). -/
def State.csrRead (s : State) (core num : Nat) : Word :=
  let c := s.core core
  let t := c.task
  if 0x100 ≤ num && num < 0x150 then c.chanReg num
  else match num with
    | 0x000 => word devId
    | 0x001 => word core
    | 0x002 => word (dieOf core * 1024 + rowOf core * 32 + colOf core)
    | 0x003 => c.mapgen + (s.die (dieOf core)).mapgen
    | 0x004 => if c.jobattr then 1 else 0
    | 0x008 => c.cycles
    | 0x009 => word s.iod.ptime
    | 0x00A => word (s.iod.sync.toNat * 2 + s.iod.step.toNat)
    | 0x010 => c.fstat.setWidth 64
    | 0x011 => c.taskCount.setWidth 64
    | 0x012 => word c.msgId
    | 0x013 => word ((t.map (·.left)).getD 0)
    | 0x014 => word (((t.map (·.retire)).getD false).toNat * 2 + ((t.map (·.spawned)).getD false).toNat)
    | 0x015 => word c.spcred
    | 0x016 => (t.map (·.path)).getD 0
    | 0x018 => word c.outstanding
    | 0x019 => c.ackcfg.setWidth 64
    | 0x01A => c.acl.setWidth 64
    | 0x020 => c.old.lb[0]
    | 0x021 => c.old.le[0]
    | 0x022 => c.old.lc[0]
    | 0x023 => c.old.lb[1]
    | 0x024 => c.old.le[1]
    | 0x025 => c.old.lc[1]
    | 0x200 => c.dbg.dbgctl
    | 0x201 => c.dbg.stat (c.dbg.halted && !c.late.isEmpty)
    | 0x202 => c.dbg.bp0
    | 0x203 => c.dbg.bp1
    | 0x208 => c.dbg.trcctl
    | 0x209 => c.dbg.trcbase
    | 0x20A => c.dbg.trcwr
    | 0x20B => word c.dbg.trcdrop
    | 0x210 => c.dbg.evsel
    | 0x211 => c.dbg.evcnt
    | 0x218 => c.dbg.slctl
    | 0x219 => c.dbg.slbase
    | 0x21A => c.dbg.slwr
    | 0x220 => c.dbg.drptime
    | 0x221 => c.dbg.drpaddr
    | 0x240 => c.fault.fcause
    | 0x241 => c.fault.fmsg
    | 0x242 => c.fault.fpc
    | 0x243 => c.fault.fstop
    | 0x244 => c.fault.faddr
    | 0x245 => c.fault.fseq
    | 0x246 => word c.fault.fcount
    | 0x247 => s.health core
    | _ => 0

/-- CHCTL after a write: res0 bits read zero, PRIO of channel 15 stays 7, and in reproducible mode WLOCK is never cleared
(R80, R116). -/
def Core.chctl (c : Core) (n : Fin 16) (w : Word) : Word :=
  let v := w &&& 0xFFFFFFFFE7007FFF#64
  let v := if n = 15 then v ||| 0x07000000#64 else v
  if c.jobattr then v ||| (c.chanReg (0x110 + n.val) &&& 0x40000000#64) else v

/-- CHCOND may be written: no reserved slot count (R81, R84). -/
def chcondOk (w : Word) : Bool := decide (wbits w 23 15 ≤ 256) && decide (wbits w 8 0 ≤ 256)
/-- CHTILL may be written: an enabled condition names a Till outside the constant window and inside A (R82, R84). -/
def chtillOk (w : Word) : Bool := !wbit w 31 || (decide (0x80 ≤ wbits w 17 4) && decide (wbits w 17 4 ≤ 0x2FFF))

/-- The value a write leaves in a channel register, or none where the write is refused (R79 to R82, R84). -/
def Core.chanWrite (c : Core) (num : Nat) (w : Word) : Option Word :=
  match (num - 0x100) / 16 with
  | 0 => some (w &&& 0x000FFFFFFFFFFFF8#64)
  | 1 => some (c.chctl (Fin.ofNat 16 num) w)
  | 2 => if chcondOk w then some (w &&& 0x3FFFFFFF#64) else none
  | 3 => if chtillOk w then some (w &&& 0xFFFFFFFF8003FFF0#64) else none
  | _ => some (c.chanReg num)

/-- CSRW to a control register (R84, R180, R288): RW fields take the value, W1C bits are cleared, RO fields stay. What is
written to a channel register is in force from the next choice of task on. -/
def State.csrWrite (s : State) (core num : Nat) (w : Word) : Run State :=
  let c := s.core core
  if 0x100 ≤ num && num < 0x150 then
    match c.chanWrite num w with
    | some v => .ok (if num < 0x140 then s.setCore core { c with written := c.written.put num v } else s)
    | none => .error (trapPlain .bufBounds)
  else match num with
    | 0x00A => .ok { s with iod := { s.iod with step := s.iod.step && !wbit w 0 } }
    | 0x010 => .ok (s.setCore core { c with fstat := clearFlags c.fstat w })
    | 0x014 => .ok (s.setCore core (c.modTask fun t => { t with retire := wbit w 1 }))
    | 0x01A => .ok (s.setCore core { c with bufacl := (w.setWidth 24 &&& 0xFFEFEF#24) ||| 0x808080#24 })
    | 0x240 => .ok (s.setCore core { c with fault :=
        { c.fault with fcause := c.fault.fcause &&& ~~~ (w &&& 0xC000000000000000#64) } })
    | _ => .ok s

/-- A heartbeat of a core reaches its die's monitor with TASKID and the bundle address (R290, R358). -/
def State.beat (s : State) (core : Nat) : State :=
  let c := s.core core
  s.modDie (dieOf core) fun d =>
    { d with beats := d.beats.put core 0, heard := d.heard.put core (c.taskCount.setWidth 64, c.pc) }

/-- TRAP (R289). -/
def trapInstr (a : Fin 32) (c : Core) : Run Core := .error (trapWith .trapInstr (c.x a))

/-- BRK stops the core after its bundle where the debug module is enabled (R291). -/
def breakBundle (c : Core) : Core := if wbit c.dbg.dbgctl 0 then { c with brkSeen := true } else c

/-- The current instance of a domain of a gang: the newest one still taking members (R349). -/
def Gang.current (x : Gang) (dom : Nat) : Option DomInstance :=
  x.insts.find? fun i => i.dom == dom && !i.isSealed && !i.done && !i.replaying
/-- The charges a new instance of a domain starts with: those of the instance whose replay it reruns (R353). -/
def Gang.chargesOf (x : Gang) (dom : Nat) : Nat :=
  (x.insts.filter fun i => i.dom == dom && i.done && i.replaying).foldl (fun n i => max n i.charges) 0
/-- The number a new instance of a domain takes. -/
def Gang.nextInst (x : Gang) (dom : Nat) : Nat := (x.insts.filter fun i => i.dom == dom).length

/-- A root's header and payload are written to the replay log of its instance, in the job's save area: at a free place of
that area (R350, R370, log 22). -/
def State.writeRoot (s : State) (b : Launch) (m : Msg) : State :=
  let bytes := natToBytes 8 m.headerLow ++ natToBytes 8 m.headerHigh ++ m.payload
  let places := b.ng * b.size * saveBytes - bytes.length
  { s.applyAll (b.save + Config.rootPlace s.fresh % places) bytes with fresh := s.fresh + 1 }

/-- CDO (R293, R349, R350): push the domain and enrol the task in its current instance, its trigger a root unless marked,
which is logged. -/
def openDomain (a : Fin 32) (s : State) : Run State := do
  let c := s.core s.cur
  let w := c.x a
  let id := wbits w 11 0
  orTrap (wbits w 63 12 == 0 && id != 0) (trapPlain .fmtMismatch)
  match c.task with
  | none => return s
  | some t =>
    orTrap (decide (t.domains.length < 4) && !t.domains.any fun d => d.1 == id) (trapPlain .protFault)
    let push (inst : Nat) (s : State) : State := s.modCore s.cur fun c => c.modTask fun t =>
      { t with domains := (id, inst) :: t.domains, enrolled := (id, inst) :: t.enrolled }
    match c.gang with
    | none => return push 0 s
    | some (j, g) => match s.gang j g with
      | none => return push 0 s
      | some x =>
        let (i, x) : DomInstance × Gang := match x.current id with
          | some i => (i, x)
          | none =>
            let i : DomInstance :=
              ⟨id, x.nextInst id, false, false, false, [], [], t.domains.head?, false, x.chargesOf id⟩
            (i, { x with insts := x.insts ++ [i] })
        let isRoot := !t.msg.marks.contains ⟨j, g, id, i.inst⟩ &&
          !(i.roots.any fun p => p.1 == s.cur && p.2.src == t.msg.src && p.2.seq == t.msg.seq)
        orTrap (!isRoot || decide (i.roots.length < 64)) (trapPlain .protFault)
        let i' : DomInstance := { i with
          members := i.members ++ [⟨s.cur, t.serial, true⟩]
          roots := if isRoot then i.roots ++ [(s.cur, t.msg)] else i.roots }
        let x' := { x with insts := x.insts.map fun k => if k.dom == id && k.inst == i.inst then i' else k }
        let s := match isRoot, s.job j with
          | true, some b => s.writeRoot b.launch t.msg
          | _, _ => s
        return push i.inst (s.modGang j g fun _ => x')

/-- CDC (R293, R294): pop the named top entry, release its preserved ranges, and with SEAL stop the instance: the one the popped
entry names, also where a newer instance of the id is open (DESIGN CHOICE, log 102). -/
def closeDomain (a : Fin 32) (s : State) : Run State := do
  let c := s.core s.cur
  let w := c.x a
  let id := wbits w 11 0
  orTrap (wbits w 63 13 == 0 && id != 0) (trapPlain .fmtMismatch)
  match c.task with
  | none => .error (trapPlain .protFault)
  | some t => match t.domains with
    | [] => .error (trapPlain .protFault)
    | (top, inst) :: rest =>
      orTrap (top == id) (trapPlain .protFault)
      let depth := t.domains.length
      let c' := c.modTask fun t => { t with domains := rest, preserved := t.preserved.filter fun p => p.depth != depth }
      let s := s.setCore s.cur c'
      match c.gang with
      | none => return s
      | some (j, g) => return s.modGang j g fun x => { x with insts := x.insts.map fun i =>
          if i.dom == id && i.inst == inst then
            { i.withdraw s.cur t.serial with isSealed := i.isSealed || wbit w 12 }
          else i }

/-- CDP (R294): a global range issues a request, a local range is preserved. Of a global pointer FMT and BLG are checked and
no alignment; of a local endpoint its place, and neither FMT nor BLG (log 35). The order of a local range's checks is a DESIGN
CHOICE (log 104). -/
def preserveRange (a b : Fin 32) (s : State) : Run State := onCore (fun c => do
  let p := c.x a
  let len := c.xN b
  orTrap (decide (1 ≤ len) && decide (len ≤ 2 ^ 40)) (trapPlain .fmtMismatch)
  match wbits p 53 52 with
  | 0 =>
    orTrap (fmtAssigned (wbits p 63 58) && wbits p 57 54 == fmtBlg (wbits p 63 58)) (trapPlain .fmtMismatch)
    let (_, c') ← issueReq c p (.preserve len) none false 0 false
    return c'
  | 1 =>
    let la := wbits p 31 0
    let bf := bitsN la 31 30
    let off := bitsN la 17 0
    orTrap (wbits p 51 47 == 0) (trapPlain .fmtMismatch)
    orTrap (wbits p 46 32 == s.cur && bf != 3) (trapLocal .bufAccess la)
    orTrap (bitsN la 29 18 == 0 && decide (off + len ≤ bufSize bf)) (trapLocal .bufBounds la)
    orTrap (off % 16 == 0 && len % 16 == 0) (trapLocal .align la)
    orTrap (decide (((c.task.map fun t => t.preserved.length).getD 0) < 8)) (trapPlain .protFault)
    return c.modTask fun t => { t with preserved := t.preserved ++ [⟨bf, off, len, t.domains.length⟩] }
  | _ => .error (trapPlain .fmtMismatch)) s

/-- CSRR (R288). -/
def execCsrr (g : Guard) (d : Fin 32) (num : Fin 1024) (s : State) : Host.Outcome State Fault Refusal :=
  runOn (.csrr g d num) (fun s => .ok (s.modCore s.cur fun c => c.setX d (s.csrRead s.cur num.val))) s

/-- CSRW (R288). -/
def execCsrw (g : Guard) (d : Fin 32) (num : Fin 1024) (s : State) : Host.Outcome State Fault Refusal :=
  runOn (.csrw g d num) (fun s => s.csrWrite s.cur num.val ((s.core s.cur).x d)) s

/-- TRAP (R289). -/
def execTrap (g : Guard) (a : Fin 32) (s : State) : Host.Outcome State Fault Refusal :=
  runOn (.trap g a) (onCore (trapInstr a)) s

/-- HBT (R290). -/
def execHbt (g : Guard) (s : State) : Host.Outcome State Fault Refusal :=
  runOn (.hbt g) (fun s => .ok (s.beat s.cur)) s

/-- BRK (R291). -/
def execBrk (g : Guard) (s : State) : Host.Outcome State Fault Refusal :=
  runOn (.brk g) (onCorePure breakBundle) s

/-- TRC (R292). -/
def execTrc (g : Guard) (a : Fin 32) (s : State) : Host.Outcome State Fault Refusal :=
  runOn (.trc g a) (onCorePure fun c => c.trace 1 c.pc (c.x a)) s

/-- CDO (R293). -/
def execCdo (g : Guard) (a : Fin 32) (s : State) : Host.Outcome State Fault Refusal :=
  runOn (.cdo g a) (openDomain a) s

/-- CDC (R293). -/
def execCdc (g : Guard) (a : Fin 32) (s : State) : Host.Outcome State Fault Refusal :=
  runOn (.cdc g a) (closeDomain a) s

/-- CDP (R294). -/
def execCdp (g : Guard) (a : Fin 32) (b : Fin 32) (s : State) : Host.Outcome State Fault Refusal :=
  runOn (.cdp g a b) (preserveRange a b) s

end Sys2Proof.Machine
end

