-- ==== Sys2Proof/Machine/Sched.lean ====
section
/-! DEFINITION. Readiness and the choice of the next task (R83, R85, R88 to R93), the states of the state log (R394) and the
passing of core cycles (R29, R93, R96, R358, R391). -/

namespace Sys2Proof.Machine

/-- A ring requirement as seen by the scheduler (R89): the ring is defined, the count is within it and holds. -/
def Core.needHolds (c : Core) (en free : Bool) (h n : Nat) : Bool :=
  let r := c.rings[Fin.ofNat 16 h]
  let filled := filledOf r.head r.tail
  !en || (r.valid && decide (n ≤ r.slots) &&
    (if free then decide (n ≤ r.slots - filled - r.reserved) else decide (n ≤ filled)))
/-- Both requirements of CHCOND (R81, R89). -/
def Core.condHolds (c : Core) (w : Word) : Bool :=
  c.needHolds (wbit w 29) (wbit w 28) (wbits w 27 24) (wbits w 23 15) &&
    c.needHolds (wbit w 14) (wbit w 13) (wbits w 12 9) (wbits w 8 0)
/-- The Till condition of CHTILL (R82, R89). -/
def Core.tillHolds (c : Core) (w : Word) : Bool :=
  !wbit w 31 ||
    decide ((c.loc.readNat (locKey 0 (wbits w 17 4 * 16 + 8)) 4 + 2 ^ 32 - wbits w 63 32) % 2 ^ 32 < 2 ^ 31)

/-- Whether a channel is ready (R89). A channel 15 with HADDR 0 is unhandled and dispatches nothing (R346). -/
def Core.ready (c : Core) (n : Fin 16) : Bool :=
  let ch := c.chans[n]
  wbit ch.ctl 31 && ch.head.isSome && c.condHolds ch.cond && c.tillHolds ch.till &&
    !(n == 15 && wbits ch.hnd 51 3 == 0)

/-- Channels 0 to 14 in the order LAST + 1, LAST + 2, ... modulo 16, 15 left out (R92). -/
def scanOrder (last : Nat) : List (Fin 16) :=
  ((List.range 16).map fun i => Fin.ofNat 16 (last + 1 + i)).filter fun n => n != 15

/-- The scheduler's choice (R92). -/
def Core.choose (c : Core) : Option (Fin 16) :=
  if c.ready 15 then some 15
  else
    let rs := (scanOrder c.lastChan).filter c.ready
    let top := rs.foldl (fun m n => max m (c.chans[n]).eprio) 0
    rs.find? fun n => (c.chans[n]).eprio == top

/-- The state of a core in the state log (R394): 0 running, 1 waiting for a message, 2 waiting for memory, 3 idle. -/
def State.condition (s : State) (core : Nat) : Nat :=
  let c := s.core core
  match c.task with
  | some t =>
    if t.ended then (if c.mxq.isEmpty then 0 else 2)
    else match c.stalled with
      | none => 0
      | some .fetch => 0
      | some _ => 2
  | none =>
    if c.gang.isNone then 3
    else if (c.choose).isSome then 0
    else if c.slotsUsed != 0 || s.inBarrow core then 1 else 3

/-- Whether the cycles of a core run: not halted, the physical core working (R29, R386, R358). -/
def Core.clocked (c : Core) : Bool := !c.dbg.halted && c.life == .alive

/-- Aging: WAIT of each channel below 15 while ready and not dispatched, else zero (R93). -/
def Core.age (c : Core) (n : Nat) : Core :=
  { c with chans := Vector.ofFn fun i =>
      let ch := c.chans[i]
      if i == 15 then ch
      else if c.ready i then { ch with wait := min 0xFFFFFFFF (ch.wait + n) } else { ch with wait := 0 } }

/-- PLIM throttling keeps back a start of this core's MXU (R36, R391): an operation at the head of its queue has not started,
or an instruction waits to queue one. -/
def Core.mxDelayed (c : Core) : Bool :=
  c.throttled && ((c.mxq.head?.any fun o => !o.started) || c.stalled == some .throttle)

/-- `n` cycles pass for a core: CYCLES, the budget of a task that has not executed END, WAIT, the cycle events of a reading,
and a heartbeat where CYCLES crosses a multiple of 2^16 (R29, R93, R96, R358, R391). -/
def State.runCycles (s : State) (core n : Nat) : State :=
  let c := s.core core
  if !c.clocked || n == 0 then s
  else
    let cond := s.condition core
    let crossed := c.cycles.toNat / 65536 != (c.cycles.toNat + n) / 65536
    let c1 := ((c.countEvent cond n).countEvent 0x0B (if c.mxDelayed then n else 0)).age n
    let c2 := c1.modTask fun t => if t.ended then t else { t with left := t.left - n }
    let s := s.setCore core { c2 with cycles := c2.cycles + word n }
    if crossed then s.beat core else s

/-- `n` cycles pass for a core in which a bank conflict stalls its bundle; a reading counts them (R20, R391, log 96). -/
def State.conflict (s : State) (core n : Nat) : State :=
  let c := s.core core
  if c.clocked && c.task.isSome && c.stalled.isNone then (s.modCore core (·.countEvent 7 n)).runCycles core n else s

/-- A channel that has ceased to be ready starts WAIT again, however short the time (R93). -/
def Core.restWaits (c : Core) : Core :=
  { c with chans := Vector.ofFn fun i =>
      let ch := c.chans[i]
      if i == 15 || ch.wait == 0 || c.ready i then ch else { ch with wait := 0 } }

/-- Record a change of a core's state in its log queue (R394, R395). -/
def Core.logState (c : Core) (cond : Nat) : Core :=
  let d := c.dbg
  if !wbit d.slctl 0 || d.halted || d.slState == cond then c
  else if 64 ≤ d.slQ.length then { c with dbg := { d with slState := cond, slLost := true } }
  else
    let delta := (c.cycles - d.slSince).toNat % 2 ^ 48
    { c with dbg := { d with
        slQ := d.slQ ++ [word (cond * 2 ^ 62 + d.slLost.toNat * 2 ^ 61 + delta)]
        slState := cond, slSince := c.cycles, slLost := false } }

/-- Halt a core with a cause, remembering the bundle that runs at resume (R384, R385). -/
def Core.halt (c : Core) (cause : Nat) (next : Word) : Core :=
  { c with dbg := { c.dbg with halted := true, cause := cause, next := next } }
/-- A halt is requested of a core, by HALTREQ or by a halt of its die (R385, R387). -/
def Core.haltAsked (c : Core) : Bool := wbit c.dbg.dbgctl 2 || c.dbg.dieHalt

/-- An idle core halts at once for HALTREQ or a halt of its die; NEXT is 0 (R385, R387). -/
def Core.haltIdle (c : Core) : Core :=
  if c.haltAsked && c.task.isNone && !c.dbg.halted then c.halt 3 0 else c

end Sys2Proof.Machine
end

