-- ==== Sys2Proof/Machine/Delivery.lean ====
section
/-! DEFINITION. Messages reaching a core's network interface, and dependence counters (R24, R85 to R88, R100, R101, R107,
R113, R115, R272, R281, R397). -/

namespace Sys2Proof.Machine

/-! ### Dependence words (R100, R101) -/

/-- Apply a DEC at its core (R101). -/
def State.applyDec (s : State) (m : Msg) : State :=
  let n := bytesToNat (m.payload.take 4)
  let off := bytesToNat ((m.payload.drop 4).take 4)
  let c := s.core m.dest
  let w := c.loc.readNat (locKey 0 off) 8
  let count := bitsN w 31 0
  if count < n then s.statusTo m.src m.job 3 (m.src * 2 ^ 24 + m.seq) 0 []
  else
    let fire := count == n && bitN w 63
    let w' := w - n - (if fire then 2 ^ 63 else 0)
    let s := s.setCore m.dest { c with loc := c.loc.writeNat (locKey 0 off) 8 w' }
    if fire then s.post m.dest 4 (bitsN w 51 48) (natToBytes 4 off ++ natToBytes 2 (bitsN w 47 32) ++ [0, 0]) else s

/-- Take a message out of the network. -/
def State.takeMsg (s : State) (idx : Nat) : State := { s with net := { s.net with msgs := s.net.msgs.eraseIdx idx } }

/-- Whether an earlier message of the same source is still on its way to the same channel (R87). -/
def Net.overtakes (n : Net) (idx : Nat) (m : Msg) : Bool :=
  (n.msgs.take idx).any fun k => k.kind != 3 && k.src == m.src && k.dest == m.dest && k.chan == m.chan

/-- Posts of the core's own that enter its queue at once wait for a number: a completion record waits behind them (R281). -/
def Core.postsFirst (c : Core) : Bool := c.posts.any fun p => p.1

/-- MESSAGE_ARRIVAL (R85 to R88, R24, R107, R113, R272, R281, R397): a message reaches its core. -/
def arriveMsg (idx : Nat) (s : State) : State :=
  match s.net.msgs[idx]? with
  | none => s
  | some m =>
    if m.kind == 3 || s.net.overtakes idx m || (m.record && (s.core m.dest).postsFirst) then s
    else
      let s := s.takeMsg idx
      (s.turnedAway m (m.kind == 4 && !m.record)).getD (s.enqueue m)

/-- DEC_ARRIVAL (R101): a DEC reaches the A port of its core. -/
def arriveDec (idx : Nat) (s : State) : State :=
  match s.net.msgs[idx]? with
  | none => s
  | some m =>
    if m.kind != 3 then s
    else
      let s := s.takeMsg idx
      (s.turnedAway m false).getD (s.applyDec m)

/-- MESSAGE_ARRIVAL (R85). -/
def execMessageArrival (idx : Nat) (s : State) : Host.Outcome State Fault Refusal := .next (arriveMsg idx s)

/-- DEC_ARRIVAL (R101). -/
def execDecArrival (idx : Nat) (s : State) : Host.Outcome State Fault Refusal := .next (arriveDec idx s)

end Sys2Proof.Machine
end

