-- ==== Sys2Proof/Machine/Tasks.lean ====
section
/-! DEFINITION. Dispatch and end of tasks, the release of their buffered operations, barriers, aging, budgets and halts
between bundles (R78, R89 to R99, R103, R107, R132, R133, R271, R348, R349, R384, R385). -/

namespace Sys2Proof.Machine

/-! ### Dispatch (R90) -/

/-- A task with nothing but its budget: what a dispatch makes of a message (R90, R91, R99). -/
def Task.start (serial chan : Nat) (m : Msg) (budget : Nat) (path : Word) : Task :=
  { serial := serial, chan := chan, msg := m, budget := budget, left := budget, retire := false, spawned := m.kind == 2,
    path := path, spawns := 0, popAllow := [], pushAllow := [], pops := Vector.replicate 16 0,
    pushes := Vector.replicate 16 0, heads := Vector.replicate 16 0, tails := Vector.replicate 16 0, buffered := [],
    domains := [], enrolled := [], preserved := [], binds := [], ended := false,
    dead := [] }

/-- The requirements of CHCOND in force: free or filled, ring, count (R81). -/
def requirements (w : Word) : List (Bool × Nat × Nat) :=
  (if wbit w 29 then [(wbit w 28, wbits w 27 24, wbits w 23 15)] else []) ++
    (if wbit w 14 then [(wbit w 13, wbits w 12 9, wbits w 8 0)] else [])

/-- The allowances of one kind: of two requirements on one ring the larger count (R90). -/
def allowances (free : Bool) (l : List (Bool × Nat × Nat)) : Assoc Nat :=
  (l.filter fun r => r.1 == free).foldl (fun m r => m.put r.2.1 (max r.2.2 ((m.find r.2.1).getD 0))) []

/-- The budget of a channel's task (R96). -/
def Core.budgetOf (c : Core) (ch : Channel) : Nat :=
  if wbits ch.ctl 63 32 != 0 then wbits ch.ctl 63 32 else if c.jobBudget != 0 then c.jobBudget else 2 ^ 20

/-- The address a message's task begins at (R79, R90, R275). -/
def handlerOf (ch : Channel) (m : Msg) : Word :=
  if m.kind == 2 then word (bytesToNat (m.payload.take 8)) else word (wbits ch.hnd 51 3 * 8)

/-- Dispatch a channel's head message on a core (R78, R90, R92, R96, R99). -/
def Core.dispatch (c : Core) (n : Fin 16) (m : Msg) : Core :=
  let ch := c.chans[n]
  let path := if m.kind == 2 then m.path else word (c.rank * 2 ^ 48)
  let reqs := requirements ch.cond
  let t := { Task.start c.serials n.val m (c.budgetOf ch) path with
    popAllow := allowances false reqs
    pushAllow := allowances true reqs }
  let handler := handlerOf ch m
  let c1 := { c with
    regs := Regs.zero
    before := none
    pc := handler
    target := none
    endSeen := false
    brkSeen := false
    stalled := none
    fstat := 0
    table := identityTable
    weight := 1
    mxRetired := 0
    task := some t
    serials := c.serials + 1
    taskCount := c.taskCount + 1
    chans := c.chans.set n { ch.popHead with wait := 0 }
    lastChan := if n = 15 then c.lastChan else n.val }
  let c2 := (c1.countEvent 5 1).trace 3 handler (word c1.msgId)
  if wbit c2.dbg.dbgctl 1 then c2.halt 2 handler else c2

/-- Roots of an instance under replay, which no channel dispatches until they are restored (R354). -/
def State.heldRoots (s : State) (core : Nat) : List Msg := match s.gangOf (s.core core) with
  | some x => (x.insts.filter fun i => i.replaying && !i.done).flatMap fun i => (i.roots.filter fun p => p.1 == core).map (·.2)
  | none => []
/-- A core as the scheduler sees it: a channel whose head is a held root is not ready. -/
def Core.withhold (c : Core) (roots : List Msg) : Core :=
  { c with chans := mapChans c.chans fun ch => match ch.head with
      | some m => if roots.any (fun r => r.src == m.src && r.seq == m.seq && r.kind == m.kind) then
          { ch with ctl := ch.ctl &&& ~~~ (0x80000000#64) } else ch
      | none => ch }

/-- Whether a core may take a task: held by a running gang from which it has not retired, working, not halted, without a
task, its MXU queue empty (R95, R107, R113, R295), and after a resume once its Barrow records have moved in, as far as slots
are free (R114). -/
def State.mayDispatch (s : State) (core : Nat) : Bool :=
  let c := s.core core
  c.clocked && c.task.isNone && c.mxq.isEmpty && (match s.gangOf c with
    | some x => x.state == .running && !x.retired.contains c.rank && !(x.resuming.contains c.rank && s.canRefill core)
    | none => false)
/-- A core of a resumed gang has chosen a task again: its dispatch has resumed (R114). -/
def State.resumed (s : State) (core : Nat) : State := match (s.core core).gang with
  | some (j, g) => s.modGang j g fun x => { x with resuming := x.resuming.filter fun r => r != (s.core core).rank }
  | none => s

/-- Note that a gang has dispatched a message from a source outside it (R353). -/
def State.noteOutside (s : State) (core : Nat) (m : Msg) : State :=
  match s.gangOf (s.core core) with
  | none => s
  | some x => match s.job x.job with
    | none => s
    | some b => if x.covers b.launch m.src then s else s.modGang x.job x.g fun y => { y with outside := true }

/-- TASK_DISPATCH (R89 to R92, R98): the scheduler's choice begins; where a halt is requested the idle core halts
instead (R385). -/
def dispatch (core : Nat) (s : State) : State :=
  let c := s.core core
  if !s.mayDispatch core then s
  else if c.haltAsked then s.setCore core c.haltIdle
  else match (c.withhold (s.heldRoots core)).choose with
    | none => s
    | some n => match (c.chans[n]).head with
      | none => s
      | some m =>
        let m' := { m with credit := false }
        (((s.setCore core (c.dispatch n m')).returnCredit m).noteOutside core m).resumed core

/-! ### Barriers (R102, R103) -/

/-- The posts of a phase to the cores that arrived by BARA (R103, R269), each by way of its core's network interface. -/
def State.barrierPosts (s : State) (x : Gang) (gw chan b phase : Nat) : List Nat → State
  | [] => s
  | r :: rs =>
    (s.postFar (x.coreOf gw r) 4 chan (natToBytes 4 b ++ natToBytes 4 phase) x.job).barrierPosts x gw chan b phase rs

/-- An arrival takes effect: by BARA, or by BARD where `leaving`, which sets DROPPED; a phase whose arrivals reach E
completes (R103). -/
def State.arriveBarrier (s : State) (core b : Nat) (leaving : Bool) : State :=
  let c := s.core core
  match s.gangOf c with
  | none => s
  | some x => match s.job x.job with
    | none => s
    | some j =>
      let n : Fin 8 := Fin.ofNat 8 b
      let y : Barrier := x.bars[n]
      let y1 : Barrier :=
        if leaving then { y with leaving := y.leaving ++ [c.rank], dropped := y.dropped ++ [c.rank] }
        else { y with arrived := y.arrived ++ [c.rank] }
      if y1.arrived.length + y1.leaving.length < y1.expected then
        s.modGang x.job x.g fun z => { z with bars := z.bars.set n y1 }
      else
        let y2 : Barrier := { y1 with
          expected := y1.expected - y1.leaving.length
          arrived := []
          leaving := []
          phase := (y1.phase + 1) % 2 ^ 32 }
        (s.modGang x.job x.g fun z => { z with bars := z.bars.set n y2 }).barrierPosts x j.launch.gw y1.chan b y1.phase
          y1.arrived

/-! ### Task end (R95) -/

/-- Window bindings end: a slot with an open cursor counts as popped or pushed (R133). -/
def Core.settleAll (c : Core) : Core := match c.task with
  | none => c
  | some t => (t.binds.foldl (fun c p => c.settleBinding p.2) c).modTask fun t => { t with binds := [] }

/-- The task's ring moves become visible to every agent (R132). -/
def Core.commitRings (c : Core) : Core := match c.task with
  | none => c
  | some t => { c with rings := Vector.ofFn fun i =>
      let r := c.rings[i]
      { r with head := (r.head + t.heads[i]) % 512, tail := (r.tail + t.tails[i]) % 512 } }

/-- The instances a task enrolled in that have not ended, which mark its messages (R349). -/
def State.openMarks (s : State) (c : Core) : List InstanceId :=
  match s.gangOf c, c.task with
  | some x, some t => (t.enrolled.filter fun (d, i) => ((x.inst d i).map fun n => !n.done).getD false).map fun (d, i) =>
      ⟨x.job, x.g, d, i⟩
  | _, _ => []

/-- Release one buffered operation (R95, R103, R271). -/
def State.releaseOp (core : Nat) (marks : List InstanceId) (s : State) (o : Buffered) : State :=
  match o with
  | .msg m => s.modCore core fun c =>
      { c.countEvent 9 1 with outbox := c.outbox ++ [⟨{ m with marks := marks }, c.positions, c.readFrom⟩] }
  | .bara b => s.arriveBarrier core b false
  | .bard b => s.arriveBarrier core b true

/-- Return every queued message to its sender and count it: the core has retired (R107). -/
def State.discardQueued (s : State) (j : Nat) : List Msg → State
  | [] => s
  | m :: ms =>
    let s := if m.kind == 4 || m.kind == 5 then s else s.countDiscard j
    (s.returnMsg m 1).discardQueued j ms

/-- A core retires from its gang (R107). -/
def State.retire (s : State) (core : Nat) : State :=
  let c := s.core core
  match s.gangOf c with
  | none => s
  | some x =>
    let queued := c.chans.toList.flatMap (·.queue)
    let mine (r : BarrowRec) : Bool := r.dest == core && r.msg?.isSome
    let spilled := (x.barrow.filter mine).filterMap BarrowRec.msg?
    let s := s.setCore core { c with chans := mapChans c.chans fun ch => { ch with queue := [] } }
    (s.modGang x.job x.g fun y => { y with
      retired := y.retired ++ [c.rank]
      barrow := y.barrow.filter fun r => !mine r }).discardQueued x.job (queued ++ spilled)

/-- The halt of a core whose task has ended: a requested halt, or a step; NEXT is 0 (R385, log 61). -/
def Core.haltAtEnd (c : Core) : Core :=
  if c.haltAsked then c.halt 3 0 else if wbit c.dbg.dbgctl 1 then c.halt 2 0 else c

/-- TASK_END_RELEASE (R95): once the MXU queue is empty, a task that executed END releases its buffered operations in issue
order, frees its slot, its core retires where DONE is set, and the scheduler sees the channel registers it wrote (R84). -/
def endTask (core : Nat) (s : State) : State :=
  let c := s.core core
  match c.task with
  | none => s
  | some t =>
    if !t.ended || !c.mxq.isEmpty || !c.clocked then s
    else
      let c1 := (c.settleAll.commitRings).trace 4 c.pc 0
      let marks := s.openMarks c
      let s := (c1.task.map (·.buffered)).getD [] |>.foldl (State.releaseOp core marks) (s.setCore core c1)
      let s := (s.withdraw core).countRoot core t.msg 0
      let s := s.modCore core fun c => { c.settleWrites with task := none, stalled := none }
      let s := if t.retire then s.retire core else s
      (s.modCore core Core.haltAtEnd).sweep15 core 64

/-- Every engine command of a core before a program position has reached its engine (R272). -/
def Core.commandsLeft (c : Core) (pos : Nat) : Bool := c.cmds.all fun m => decide (pos ≤ m.pos) || m.stage != .issued

/-- BUFFERED_MESSAGE_SEND (R271, R272, R24): a released message leaves its core once every earlier access has performed for
the observers of its scope and every earlier command has reached its engine; one to a unit that is DOWN returns. -/
def sendReleased (core idx : Nat) (s : State) : State :=
  let c := s.core core
  match c.outbox[idx]? with
  | none => s
  | some o =>
    let earlier := (c.outbox.take idx).any fun k =>
      k.msg.kind != 3 && o.msg.kind != 3 && k.msg.dest == o.msg.dest && k.msg.chan == o.msg.chan
    if earlier || !c.commandsLeft o.pos || !s.releaseClear core o.pos o.msg.scope o.reads then s
    else
      let s := s.setCore core { c with outbox := c.outbox.eraseIdx idx }
      if !o.msg.remote && s.targetDown o.msg.src o.msg.dest then s.returnMsg o.msg 1 else s.send o.msg

/-! ### Cycles, budgets, stalls and halts -/

/-- WAIT_AGING (R93): the cycles pass in which a ready channel's WAIT reaches its next multiple of 2^16. -/
def ageChannel (core : Nat) (n : Fin 16) (s : State) : State :=
  let c := s.core core
  if n = 15 || !c.ready n then s else s.runCycles core (65536 - (c.chans[n]).wait % 65536)

/-- The TASK_BUDGET trap; FADDR holds the budget (R96, R343). -/
def budgetTrap (t : Task) : Trap := ⟨TrapCode.taskBudget.code, 0, 7, 0, 0, word t.budget⟩

/-- TASK_BUDGET (R96): a task whose LEFT is zero and that has not executed END traps at the bundle in progress, even if it
is stalled. -/
def expireBudget (core : Nat) (s : State) : State :=
  let c := s.core core
  match c.task with
  | none => s
  | some t => if t.ended || t.left != 0 || !c.clocked then s
    else (s.takeTrap core (budgetTrap t)).modCore core Core.haltIdle

/-- STALLED_ISSUE_RESUME (R156, R200, R225, R232, R242, R267, R295, R303): a stalled bundle is tried again; it is the
model's next action. -/
def resumeIssue (core : Nat) (s : State) : State :=
  if (s.core core).stalled.isSome then { s with agenda := .bundle core :: s.agenda } else s

/-- Whether the bundle at the pc is at an enabled breakpoint (R384, R385): its number. -/
def Core.breakpointAt (c : Core) : Option Nat :=
  let d := c.dbg
  let hit (b : Word) : Bool := wbit b 63 && wbits b 51 3 * 8 == c.pc.toNat
  if !wbit d.dbgctl 0 || d.skipBp then none
  else if hit d.bp0 then some 0
  else if hit d.bp1 then some 1
  else none

/-- Whether a core stands between two bundles of a task. -/
def Core.betweenBundles (c : Core) : Bool :=
  c.clocked && c.stalled.isNone && (match c.task with
    | some t => !t.ended
    | none => false)

/-- BREAKPOINT_HALT (R385): a core halts before the bundle at an enabled breakpoint. -/
def breakHere (core : Nat) (n : Fin 2) (s : State) : State :=
  let c := s.core core
  if c.betweenBundles && c.breakpointAt == some n.val then s.setCore core (c.halt (4 + n.val) c.pc) else s

/-- DEBUG_HALT (R385, R387): a requested halt takes effect between bundles, or at once on an idle core. -/
def haltNow (core : Nat) (s : State) : State :=
  let c := s.core core
  if c.betweenBundles && !c.dbg.skipBp && c.haltAsked then s.setCore core (c.halt 3 c.pc)
  else if c.clocked then s.setCore core c.haltIdle
  else s

/-! ### Late faults (R348) -/

/-- The late fault delivered first: a program fault of the running task goes before a detected error charged to it
(R367). -/
def State.nextLate (s : State) (core : Nat) : Option Late :=
  match (s.core core).late with
  | [] => none
  | l :: ls =>
    if s.chargesTask core l then some ((ls.find? fun k => !k.trap.detected && k.serial == l.serial).getD l) else some l

/-- Deliver a late fault between bundles (R346, R348, R351, R367): a detected error is charged; a program fault aborts its
task where it still runs, clears EN, and is recorded and reported. -/
def deliverLate (core : Nat) (s : State) : State :=
  let c := s.core core
  if c.dbg.halted || c.life != .alive then s
  else match s.nextLate core with
    | none => s
    | some l =>
      let c1 : Core := { c with late := c.late.erase l }
      let s := s.setCore core ((l.ordered.map c1.dropUnsent).getD c1)
      if l.trap.detected then
        let s := if l.trap.code == 0x11 && s.scopeReplaying core l.serial l.marks then s.logSp (.lateAckLost core l.seq) else s
        (s.chargeIssuer core l.serial l.marks).modCore core Core.haltIdle
      else if c.running l.serial then
        let s := (s.absorbErrors core).abortTask core true c.pc l.trap.code
        (s.reportFault core l.trap true l.exact l.chan l.msgId l.fpc c.pc l.seq c.jobNo).modCore core Core.haltIdle
      else s.reportFault core l.trap true l.exact l.chan l.msgId l.fpc 0 l.seq c.jobNo

/-- Meanings of the events of this file: an event whose core does not exist faults. -/
def onRealCore (core : Nat) (f : State → State) (s : State) : Host.Outcome State Fault Refusal :=
  if coreCount ≤ core then .fault .noSuchUnit else .next (f s)

/-- TASK_DISPATCH (R90). -/
def execTaskDispatch (core : Nat) (s : State) : Host.Outcome State Fault Refusal := onRealCore core (dispatch core) s

/-- TASK_END_RELEASE (R95). -/
def execTaskEndRelease (core : Nat) (s : State) : Host.Outcome State Fault Refusal := onRealCore core (endTask core) s

/-- BUFFERED_MESSAGE_SEND (R271). -/
def execBufferedMessageSend (core : Nat) (idx : Nat) (s : State) : Host.Outcome State Fault Refusal :=
  onRealCore core (sendReleased core idx) s

/-- WAIT_AGING (R93). -/
def execWaitAging (core : Nat) (chan : Fin 16) (s : State) : Host.Outcome State Fault Refusal :=
  onRealCore core (ageChannel core chan) s

/-- TASK_BUDGET (R96). -/
def execTaskBudget (core : Nat) (s : State) : Host.Outcome State Fault Refusal := onRealCore core (expireBudget core) s

/-- STALLED_ISSUE_RESUME (R225). -/
def execStalledIssueResume (core : Nat) (s : State) : Host.Outcome State Fault Refusal :=
  onRealCore core (resumeIssue core) s

/-- BREAKPOINT_HALT (R385). -/
def execBreakpointHalt (core : Nat) (bp : Fin 2) (s : State) : Host.Outcome State Fault Refusal :=
  onRealCore core (breakHere core bp) s

/-- DEBUG_HALT (R385). -/
def execDebugHalt (core : Nat) (s : State) : Host.Outcome State Fault Refusal := onRealCore core (haltNow core) s

/-- LATE_FAULT (R348). -/
def execLateFault (core : Nat) (s : State) : Host.Outcome State Fault Refusal := onRealCore core (deliverLate core) s

end Sys2Proof.Machine
end

