-- ==== Sys2Proof/Machine/Translate.lean ====
section
/-! DEFINITION. Translation of virtual addresses (R137 to R140, R330, R361 to R363) and the host's fault ring (R375). -/

namespace Sys2Proof.Machine

/-- The right of a leaf that an access needs (R138, R140). -/
inductive Right
  | load
  | store
  | fetch
  deriving DecidableEq, Repr

/-- Whether a leaf entry allows an access. -/
def Right.allowed (r : Right) (leaf : Word) : Bool :=
  match r with
  | .load => wbit leaf 3
  | .store => wbit leaf 4
  | .fetch => wbit leaf 5

/-- The lowest VA bit a level indexes: log2 of the bytes an entry of the level covers (R137). -/
def levelShift (level : Nat) : Nat :=
  match level with
  | 0 => 16
  | 1 => 21
  | 2 => 30
  | 3 => 39
  | _ => 48
/-- The VA bits a level indexes (R137). -/
def levelBits (level : Nat) : Nat :=
  match level with
  | 0 => 5
  | 1 => 9
  | 2 => 9
  | 3 => 9
  | _ => 4
/-- Bytes of a table of a level (R137). -/
def tableSize (level : Nat) : Nat := 8 * 2 ^ levelBits level

/-- The page or table address of an entry: physical address bits [47:8] (R138). -/
def entryAddr (e : Word) : Nat := wbits e 47 8 * 256

/-- Whether an entry at a level is present (R138). -/
def entryPresent (level : Nat) (e : Word) : Bool :=
  let leaf := wbit e 2
  wbit e 0 && !(leaf && decide (3 ≤ level)) && !(!leaf && level == 0) &&
    wbits e 61 48 == 0 && wbits e 7 6 == 0 && !wbit e 1 &&
    (if leaf then entryAddr e % 2 ^ levelShift level == 0 else entryAddr e % tableSize (level - 1) == 0)

/-- How a walk ends: at a leaf of a level, or at an entry that is not present (R140). -/
inductive WalkEnd
  | leaf (level : Nat) (e : Word)
  | absent (level : Nat)
  deriving DecidableEq, Repr

/-- Walk the tables from a level down (R137). The indices hold 52 bits of the address: a command's byte at or beyond VA 2^52
is walked modulo 2^52 (log 83). -/
def walkFrom (m : Memory) (va : Nat) : Nat → Nat → WalkEnd
  | 0, base =>
    let e := word (m.readNat (base + 8 * (va / 2 ^ levelShift 0 % 2 ^ levelBits 0)) 8)
    if entryPresent 0 e then .leaf 0 e else .absent 0
  | level + 1, base =>
    let e := word (m.readNat (base + 8 * (va / 2 ^ levelShift (level + 1) % 2 ^ levelBits (level + 1))) 8)
    if !entryPresent (level + 1) e then .absent (level + 1)
    else if wbit e 2 then .leaf (level + 1) e
    else walkFrom m va level (entryAddr e)

/-- The walk of a job's tables; a core that no job holds has no tables, and nothing is present. A table holds entries for a VA
of 52 bits only; what a command's bytes outside that range find is log 83's. -/
def State.walk (s : State) (j va : Nat) : WalkEnd :=
  match s.job j with
  | some b => walkFrom s.mem va 4 b.launch.tbase
  | none => .absent 4

/-- The physical addresses of the entries that a walk reads, from a level down (R137). -/
def walkReads (m : Memory) (va : Nat) : Nat → Nat → List Nat
  | 0, base => [base + 8 * (va / 2 ^ levelShift 0 % 2 ^ levelBits 0)]
  | level + 1, base =>
    let a := base + 8 * (va / 2 ^ levelShift (level + 1) % 2 ^ levelBits (level + 1))
    let e := word (m.readNat a 8)
    a :: (if !entryPresent (level + 1) e || wbit e 2 then [] else walkReads m va level (entryAddr e))

/-- What keeps a read of HBM from its bytes: its MD is DOWN or its unit not rebuilt, and it waits; or its granule has an
uncorrectable error (R361 to R363). -/
inductive Barred
  | waits (pa : Nat)
  | unreadable (pa : Nat)
  deriving DecidableEq, Repr
/-- A request at an address reaches a home that takes it: its MD is not DOWN in the requester's map, its unit is whole (R360
to R362). -/
def State.homeTakes (s : State) (core : Nat) (pa : Nat) : Bool := !s.mdDown (dieOf core) (homeOf pa) && !s.unitLost pa
/-- What keeps a walk for a core from one of the entries it reads; the walker itself is an MD's (R139). -/
def State.walkBarred (s : State) (core j va : Nat) : Option Barred :=
  ((s.job j).map fun b => walkReads s.mem va 4 b.launch.tbase).bind fun l => l.findSome? fun a =>
    if !s.homeTakes core a || s.mdDown (dieOf core) (va / 2 ^ 21 % 8) then some (.waits a)
    else if s.errorAt a 8 && !s.dataUnit a then some (.unreadable a)
    else none

/-- The cached entry of a job for an address (R139). -/
def tlbFind (t : List TlbEntry) (j va : Nat) : Option TlbEntry :=
  t.find? fun e => e.job == j && e.page == va / 2 ^ e.log

/-- The level of the table an entry's page size belongs to. -/
def TlbEntry.level (e : TlbEntry) : Nat := if e.log == 30 then 2 else if e.log == 21 then 1 else 0
/-- The physical address of a virtual address under a cached leaf. -/
def TlbEntry.place (e : TlbEntry) (va : Nat) : Nat := entryAddr e.leaf + va % 2 ^ e.log

/-- A leaf maps its page to where it may: with ECP set, to data units only (R330). -/
def State.ecpOk (s : State) (e : TlbEntry) : Bool :=
  !wbit e.leaf 62 || (List.range (2 ^ e.log / 65536)).all fun i => s.dataUnit (entryAddr e.leaf + 65536 * i)

/-- A translation's end: a physical address with its leaf, a fault with its level and cause (R140, R342), or a table entry
that cannot be read (R361 to R363). -/
inductive Lookup
  | hit (pa : Nat) (leaf : Word)
  | fault (level cause : Nat)
  | barred (b : Barred)
  deriving DecidableEq, Repr

/-- Judge a leaf against the access. An ECP leaf outside the data units was refused, and maps nothing (R330, R364, log 69). -/
def State.judge (s : State) (e : TlbEntry) (right : Right) (va : Nat) : Lookup :=
  if !s.ecpOk e then .fault e.level 0
  else if right.allowed e.leaf then .hit (e.place va) e.leaf
  else .fault e.level 1

/-- Bytes a slice may hold pinned (R144). -/
def pinLimit : Nat := 128 * 2 ^ 20
/-- Bytes that count against the pin limit of a slice: what handles pin, those under two handles twice (log 70), and the
copies of replicated pages (R144, R145). -/
def State.pinnedIn (s : State) (md : Nat) : Nat :=
  (s.resid.map fun r => r.pinned.getD md 0).sum + (s.replicas.map fun r => if r.slices.contains md then r.len else 0).sum
/-- A replicated page is mapped: the slices that have room hold a copy of it (R145). -/
def State.noteReplica (s : State) (e : TlbEntry) : State :=
  let base := entryAddr e.leaf
  if !wbit e.leaf 63 || s.replicas.any (fun r => r.job == e.job && r.base == base) then s
  else { s with replicas := s.replicas ++
    [⟨e.job, base, 2 ^ e.log, (List.range 8).filter fun md => decide (s.pinnedIn md + 2 ^ e.log ≤ pinLimit)⟩] }

/-- Put an entry into the TLBs of a core and its die: 64 and 8,192 entries (R139). Which entry leaves is not stated and
affects only timing. -/
def State.fillTlb (s : State) (core : Nat) (e : TlbEntry) : State :=
  let s := s.modCore core fun c => { c with tlb := (e :: c.tlb).take 64 }
  (s.modDie (dieOf core) fun d => { d with tlb := (e :: d.tlb).take 8192 }).noteReplica e

/-- Translate an address for a core: its TLB, its die's TLB, then a walk, which fills both (R139). -/
def State.translate (s : State) (core j va : Nat) (right : Right) : Lookup × State :=
  match tlbFind (s.core core).tlb j va with
  | some e => (s.judge e right va, s)
  | none => match tlbFind (s.die (dieOf core)).tlb j va with
    | some e => (s.judge e right va, s.modCore core fun c => { c with tlb := (e :: c.tlb).take 64 })
    | none => match s.walkBarred core j va, s.walk j va with
      | some b, _ => (.barred b, s)
      | none, .absent level => (.fault level 0, s)
      | none, .leaf level leaf =>
        let e : TlbEntry := ⟨j, va / 2 ^ levelShift level, levelShift level, leaf⟩
        let s := if s.ecpOk e then s else s.logSp (.ecpLeafRefused (e.place va))
        (s.judge e right va, s.fillTlb core e)

/-- The trap code of a translation fault by its cause (R140). -/
def faultCode (cause : Nat) : TrapCode := if cause == 1 then .protFault else .xlateFault
/-- The trap of a translation fault (R342, R343): KIND, level, demand service outcome, cause and pointer. -/
def translationTrap (kind level svc cause : Nat) (ptr : Word) : Trap :=
  ⟨(faultCode cause).code, kind, level, svc, cause, ptr⟩

/-- Whether the job of a number asks for demand service (R140). -/
def State.demand (s : State) (j : Nat) : Bool := match s.job j with
  | some b => b.launch.demand
  | none => false
/-- The service limit of a job in nanoseconds (R140, R370). -/
def State.serviceLimit (s : State) (j : Nat) : Nat := match s.job j with
  | some b => (if b.launch.svclim == 0 then 1000 else b.launch.svclim) * 1000
  | none => 1000000

/-- A token that no outstanding fault has, from a starting number on (R375). -/
def freeToken (used : List Nat) : Nat → Nat → Nat
  | 0, t => t
  | k + 1, t => if used.contains t then freeToken used k ((t + 1) % 65536) else t

/-- Send a translation fault to the host (R140, R375): a record at FQTAIL, a token and a vector; or nothing where the
ring is off or full, and the fault is refused at once; so is one that finds all 65,536 tokens outstanding (DESIGN CHOICE, log 103). -/
def State.sendFault (s : State) (who : WalkRef) (j : Nat) (ptr : Word) (src kind level cause : Nat) :
    Option (Nat × State) :=
  let q := s.iod.fq
  if !q.en || (q.tail + 256 - q.head) % 256 == 255 || decide (65536 ≤ s.iod.tokens.length) then none
  else
    let token := freeToken (s.iod.tokens.map (·.token)) s.iod.tokens.length s.iod.nextToken
    let jobId := match s.job j with
      | some b => b.launch.jobId.toNat
      | none => 0
    let record := natToBytes 8 jobId ++ natToBytes 8 ptr.toNat
      ++ natToBytes 8 (token * 2 ^ 48 + q.phase.toNat * 2 ^ 47 + src * 2 ^ 32 + kind * 2 ^ 27 + level * 2 ^ 24
        + cause * 2 ^ 20) ++ natToBytes 8 s.iod.ptime
    let s := s.applyAll (q.base + 32 * q.tail) record
    let tail := (q.tail + 1) % 256
    let fq := { q with tail := tail, phase := if tail == 0 then !q.phase else q.phase }
    some (token, { s with iod := { s.iod with
      fq := fq
      tokens := s.iod.tokens ++ [⟨token, who, j, level, cause, 0⟩]
      nextToken := (token + 1) % 65536
      vectors := s.iod.vectors ++ [q.vec] } })

/-- Drop a token. -/
def State.dropToken (s : State) (token : Nat) : State :=
  { s with iod := { s.iod with tokens := s.iod.tokens.filter fun t => t.token != token } }

end Sys2Proof.Machine
end

