-- ==== Sys2Proof/Machine/HomePath.lean ====
section
/-! DEFINITION. The way of a global request: translation, die cache, home, atomic unit, Crier, response and timeout
(R139 to R161, R225 to R231, R240, R294, R331, R332, R361 to R363). -/

namespace Sys2Proof.Machine

/-! ### Requests -/

/-- A request of a core by its place among its unanswered ones. -/
def State.req (s : State) (core nth : Nat) : Option Req := (s.core core).reqs[nth]?
/-- Change a request of a core. -/
def State.modReq (s : State) (core nth : Nat) (f : Req → Req) : State :=
  s.modCore core fun c => { c with reqs := c.reqs.modify nth f }
/-- Remove a request of a core: it is acknowledged, refused or has failed. -/
def State.dropReq (s : State) (core nth : Nat) : State := s.modCore core fun c => { c with reqs := c.reqs.eraseIdx nth }

/-- The KIND of a request in a fault record (R342): 1 load, 2 store, 3 atomic; CDP moves no data. -/
def ReqOp.kind : ReqOp → Nat
  | .load _ => 1
  | .store _ _ => 2
  | .atomic _ _ _ _ => 3
  | .residency _ => 1
  | .preserve _ => 0
/-- The right a request needs (R140). -/
def ReqOp.right : ReqOp → Right
  | .load _ => .load
  | .store _ _ => .store
  | .atomic _ _ _ _ => .store
  | .residency _ => .load
  | .preserve _ => .load
/-- Bytes a request covers at its address. -/
def ReqOp.size : ReqOp → Nat
  | .load n => n
  | .store d _ => d.length
  | .atomic _ n _ _ => n
  | .residency _ => 32
  | .preserve _ => 0
/-- A `.gack` store (R151). -/
def ReqOp.gack : ReqOp → Bool
  | .store _ g => g
  | _ => false
/-- A store or an atomic, which later fences and releases order as a store. -/
def ReqOp.writes : ReqOp → Bool
  | .store _ _ => true
  | .atomic _ _ _ _ => true
  | _ => false

/-- The virtual address of a request's pointer. -/
def Req.va (r : Req) : Nat := wbits r.ptr 51 0
/-- The leaf of a request maps a replicated page (R138). -/
def Req.replicated (r : Req) : Bool := wbit r.leaf 63
/-- Its physical address, while it is on its way home. -/
def Req.onWay (r : Req) : Option Nat := match r.phase with
  | .translated pa => some pa
  | _ => none

/-- The trap of a request ended with a code: FADDR is its pointer for a late refusal, 0 for a detected error (R343). -/
def Req.trap (r : Req) (t : TrapCode) : Trap :=
  ⟨t.code, r.op.kind, 7, 0, 0, if t = .lateRefusal then r.ptr else 0⟩
/-- A request ended as a late fault. -/
def Req.late (r : Req) (t : Trap) : Late :=
  ⟨t, r.seq, r.serial, r.chan, r.msgId, r.fpc, r.marks, r.exact, if r.op.ordered then some r.pos else none⟩

/-! ### Translation (R139, R140, R227) -/

/-- Where the next lookup of a core's address would end (R139). -/
def State.lookupVia (s : State) (core j va : Nat) : WalkVia :=
  if (tlbFind (s.core core).tlb j va).isSome then .coreTlb
  else if (tlbFind (s.die (dieOf core)).tlb j va).isSome then .dieTlb
  else .walk

/-- Walk the pages of a range from an address on: the leaf, first address and length of each part (at most `n` pages), or
none where one is absent, lies beyond the virtual addresses, or may not map where it does (R137, R330). -/
def State.pagesOf (s : State) (j : Nat) : Nat → Nat → Nat → Option (List (Word × Nat × Nat))
  | 0, _, len => if len == 0 then some [] else none
  | n + 1, va, len =>
    if len == 0 then some []
    else if 2 ^ 52 ≤ va then none
    else match s.walk j va with
      | .absent _ => none
      | .leaf level e =>
        let part := min len (2 ^ levelShift level - va % 2 ^ levelShift level)
        if !s.ecpOk ⟨j, va / 2 ^ levelShift level, levelShift level, e⟩ then none
        else (s.pagesOf j n (va + part) (len - part)).map fun ps => (e, va, part) :: ps
/-- The pages of a range of bytes. -/
def State.pages (s : State) (j va len : Nat) : Option (List (Word × Nat × Nat)) := s.pagesOf j (len / 65536 + 2) va len
/-- What keeps the walks of a range of bytes from an entry. -/
def State.rangeBarred (s : State) (core j va len : Nat) : Option Barred :=
  (List.range ((min (2 ^ 52) (va + len) + 65535) / 65536 - va / 65536)).findSome? fun i =>
    s.walkBarred core j (va / 65536 * 65536 + 65536 * i)

/-- CDP's condition on a global range: every page is erasure-protected or may not be written (R294). -/
def State.preservable (s : State) (j va len : Nat) : Bool := match s.pages j va len with
  | some ps => ps.all fun p => wbit p.1 62 || !wbit p.1 4
  | none => false

/-- A request meets a translation fault (R140): under demand service it waits for the host, unless the record cannot be
sent; else it is refused. -/
def State.faultReq (s : State) (core nth : Nat) (r : Req) (level cause : Nat) : State :=
  let refuse (svc : Nat) : State :=
    s.modReq core nth fun r => { r with phase := .refused (translationTrap r.op.kind level svc cause r.ptr) }
  if !s.demand r.job then refuse 0
  else match s.sendFault (.request core r.seq) r.job r.ptr core r.op.kind level cause with
    | some (token, s) => s.modReq core nth fun r => { r with phase := .serviced token }
    | none => refuse 1

/-- A walk for a request stops at an entry it cannot read (R361 to R363): it waits, or the request ends with ECC_UNCORR. -/
def State.barReq (s : State) (core nth : Nat) (r : Req) (b : Barred) : State :=
  match b with
  | .waits pa => s.wantUnit pa
  | .unreadable _ => s.modReq core nth fun k => { k with phase := .refused (r.trap .eccUncorr) }

/-- A request is translated (R139): a physical address, a fault, or CDP's answer. -/
def walkRequest (core nth : Nat) (via : WalkVia) (s : State) : State :=
  match s.req core nth with
  | none => s
  | some r =>
    if r.phase != .issued then s
    else match r.op with
      | .preserve len => match s.rangeBarred core r.job r.va len with
        | some b => s.barReq core nth r b
        | none =>
        let ok := s.preservable r.job r.va len
        s.modReq core nth fun r => { r with phase := if ok then .answered 0 else .refused (r.trap .lateRefusal) }
      | _ =>
        if s.lookupVia core r.job r.va != via then s
        else match s.translate core r.job r.va r.op.right with
          | (.hit pa leaf, s) => s.modReq core nth fun r =>
              { r with phase := .translated pa, leaf := leaf, epoch := (s.die (dieOf core)).applied }
          | (.fault level cause, s) => s.faultReq core nth r level cause
          | (.barred b, s) => s.barReq core nth r b

/-! ### Order on the way (R147, R151, R152, R226, R232) -/

/-- The physical address that a request of a core is for: of one not translated yet the one that the core's TLB, its die's, or
the tables give it now. -/
def State.leadsTo (s : State) (core : Nat) (r : Req) : Option Nat :=
  r.onWay.orElse fun _ =>
    let cached := (tlbFind (s.core core).tlb r.job r.va).orElse fun _ => tlbFind (s.die (dieOf core)).tlb r.job r.va
    (cached.map (·.place r.va)).orElse fun _ => match s.walk r.job r.va with
      | .leaf level e => some (entryAddr e + r.va % 2 ^ levelShift level)
      | .absent _ => none
/-- Two requests of a core are for one granule (R28, R152): by physical address; where a page is absent, by virtual one
(log 18). -/
def State.sameGranule (s : State) (core : Nat) (a b : Req) : Bool :=
  match s.leadsTo core a, s.leadsTo core b with
  | some p, some q => shareGranule p a.op.size q b.op.size
  | _, _ => a.job == b.job && shareGranule a.va a.op.size b.va b.op.size

/-- Earlier accesses of the core to the same granule have performed, or, for `near`, are seen by their own die (R147,
R152). -/
def State.granuleClear (s : State) (core : Nat) (r : Req) (near : Bool) : Bool :=
  (s.core core).reqs.all fun e => decide (r.pos ≤ e.pos) || !e.isAccess || e.performedAtHome || (near && e.cached) ||
    !s.sameGranule core e r

/-- What a request waits for in its core's network interface: earlier accesses to its granule, its own release, and the fences
before it, for a load those that order loads (R147 to R149, R152, R226, R232). -/
def State.mayLeave (s : State) (core : Nat) (r : Req) (near : Bool) : Bool :=
  s.granuleClear core r near && (!r.release || s.releaseClear core r.pos r.scope r.reads) &&
    (if r.op.writes then s.holdsClear core r.pos else !r.isAccess || s.fullClear core r.pos)

/-! ### At the home (R28, R158, R161, R362, R363) -/

/-- A byte of a symbol of a stripe: this package's own stands in its memory, the others in the group's map. -/
def State.symbolByte (s : State) (e : Erasure) (unit sym b : Nat) : Byte :=
  if sym == symbolAt e.position unit then s.mem.read (e.byteAt unit b)
  else e.symbols.read ((unit * 12 + sym) * 65536 + b)
/-- Change a byte of a symbol of a stripe. -/
def State.setSymbol (s : State) (e : Erasure) (unit sym b : Nat) (v : Byte) : State :=
  if sym == symbolAt e.position unit then { s with mem := s.mem.write (e.byteAt unit b) v }
  else { s with erasure := some { e with symbols := e.symbols.write ((unit * 12 + sym) * 65536 + b) v } }

/-- A frame belongs to another job (R161). -/
def State.foreign (s : State) (pa j : Nat) : Bool := match s.iod.frames.find (pa / 65536) with
  | some k => k != j
  | none => false

/-- Record a granule in the error map (R363). -/
def State.noteError (s : State) (pa : Nat) : State :=
  if s.iod.errMap.contains (granule pa) then s
  else { s with iod := { s.iod with errMap := s.iod.errMap ++ [granule pa] } }

/-- The delta of a change to a data unit, on its way to both parities (R332). -/
def State.sendDelta (s : State) (stamp : Nat) (a : Author) (pa : Nat) (old new : List Byte) : State :=
  { s with net := { s.net with
    parity := s.net.parity ++ [⟨stamp, a, pa, old.zipWith (· ^^^ ·) new, false, false⟩] } }

/-- Whether parity updates of a request are still on their way (R332). -/
def Net.codes (n : Net) (core seq : Nat) : Bool :=
  n.parity.any fun d => d.author.core == core && d.author.seq == seq && !d.author.engine
/-- Whether an update of a request waits for the Crier or its replicas (R145, R151). -/
def Net.updating (n : Net) (core pos : Nat) : Bool :=
  n.updates.any fun u => u.author.core == core && u.author.pos == pos && !u.author.engine

/-- The die-cache copy of a store that its own die has taken early (R151). -/
def Net.earlyOf (n : Net) (core pos : Nat) : Option Early := n.early.find? fun e => e.core == core && e.pos == pos
/-- Forget it: the home has applied the store, or the die drops the line (R151, R159). -/
def Net.dropEarly (n : Net) (core pos : Nat) : Net :=
  { n with early := n.early.filter fun e => !(e.core == core && e.pos == pos) }

/-- A store that a die's cache has taken covers a range of bytes. -/
def Early.covers (e : Early) (pa len : Nat) : Bool := decide (e.pa ≤ pa) && decide (pa + len ≤ e.pa + e.bytes.length)
/-- The first entry of each die. -/
def firstOfDies : List Early → List Early
  | [] => []
  | e :: l => e :: (firstOfDies l).filter fun k => k.die != e.die
/-- The oldest store to a granule that each die's cache shows. -/
def Net.oldestEarly (n : Net) (pa len : Nat) : List Early :=
  firstOfDies (n.early.filter fun e => shareGranule e.pa e.bytes.length pa len)
/-- A store may enter the coherence order of its granule ahead of what other dies' caches show of it (R152, R153): their oldest
store there covers all its bytes, so that no core reads a later value and then an earlier one. -/
def Net.admits (n : Net) (die : Option Nat) (pa len : Nat) : Bool :=
  (n.oldestEarly pa len).all fun e => some e.die == die || e.covers pa len
/-- A store or atomic enters the coherence order of its granule behind what its die's cache has shown of the granule: a store
that the cache took before it, or, for one the cache has not taken, any; and ahead of another die's only where `Net.admits` says
so (R152). -/
def Net.inTurn (n : Net) (core pos pa len : Nat) : Bool :=
  let own := n.earlyOf core pos
  n.admits (some (dieOf core)) pa len &&
  n.early.all fun e => e.die != dieOf core || e.core == core || !shareGranule e.pa e.bytes.length pa len ||
    (match own with
    | some o => decide (o.stamp < e.stamp)
    | none => false)
/-- The same of an update that the home applies after it has waited for the Crier. -/
def Net.updateInTurn (n : Net) (u : Update) : Bool :=
  if u.author.engine then n.admits none u.pa u.bytes.length else n.inTurn u.author.core u.author.pos u.pa u.bytes.length

/-- A die's cache may take a store (R152): the die sees every store that the home has applied to the granule, but for bytes
that the cache's own oldest store there, or this one, covers; and of what other dies' caches show of it, each covers this one's
bytes or is covered by them, so that one order serves every reader. -/
def Net.mayTake (n : Net) (die pa len : Nat) : Bool :=
  let own := (n.oldestEarly pa len).find? fun e => e.die == die
  n.lags.all (fun l => !l.unseen.contains die || !shareGranule l.pa l.old.length pa len ||
    (match own with
    | some e => e.covers l.pa l.old.length
    | none => decide (pa ≤ l.pa) && decide (l.pa + l.old.length ≤ pa + len))) &&
  n.early.all fun e => e.die == die || !shareGranule e.pa e.bytes.length pa len || e.covers pa len ||
    (decide (pa ≤ e.pa) && decide (e.pa + e.bytes.length ≤ pa + len))

/-- A load is served in its die's view (R150, R153, R363): its value, or an uncorrectable error of an unprotected frame. -/
def State.serveLoad (s : State) (core nth : Nat) (r : Req) (pa n : Nat) (ecc : Bool) : State :=
  if (ecc || s.errorAt pa n) && !s.dataUnit pa then
    (if ecc then s.noteError pa else s).modReq core nth fun r => { r with phase := .refused (r.trap .eccUncorr) }
  else
    let d := dieOf core
    let value := s.view (some d) pa n
    let stamps := s.net.stampsRead d pa n
    (s.modReq core nth fun r => { r with phase := .applied pa value }).modCore core (·.noteReads r.pos stamps)

/-- A store is applied at its home (R149, R151, R332): at once where it is `.fwd` and its page not replicated; else it
waits for the Crier. -/
def State.serveStore (s : State) (core nth : Nat) (r : Req) (pa : Nat) (data : List Byte) (gack : Bool) : State :=
  let a : Author := ⟨r.job, core, r.pos, r.seq, false⟩
  let (stamp, s) : Nat × State := match s.net.earlyOf core r.pos with
    | some e => (e.stamp, s)
    | none => s.newStamp
  if gack || r.replicated then
    if s.net.updating core r.pos then s
    else
      let u : Update := ⟨stamp, a, pa, data, [], gack, r.replicated, none, false, s.dataUnit pa⟩
      { s with net := { s.net with updates := s.net.updates ++ [u] } }
  else
    let old := s.mem.readList pa data.length
    let s := s.applyFwd stamp r.job core r.pos (some (dieOf core)) pa data none
    let s := { s with net := s.net.dropEarly core r.pos }
    let s := if s.dataUnit pa then s.sendDelta stamp a pa old data else s
    s.modReq core nth fun r => { r with phase := .applied pa [] }

/-- GLOBAL_REQUEST_AT_HOME (R158): a load or store is applied at most once at its home. `ecc` is what the check of the
granule's stored bits finds. -/
def requestAtHome (core nth : Nat) (ecc : Bool) (s : State) : State :=
  match s.req core nth with
  | none => s
  | some r => match r.onWay with
    | none => s
    | some pa =>
      if !s.homeTakes core pa then s.wantUnit pa
      else if s.foreign pa r.job then s.logSp (.discarded core r.seq)
      else match r.op with
        | .load n => if s.mayLeave core r true then s.serveLoad core nth r pa n ecc else s
        | .store data gack =>
          if s.mayLeave core r false && s.net.inTurn core r.pos pa data.length then s.serveStore core nth r pa data gack else s
        | _ => s

/-- ORDERED_ATOMIC_SEND (R231): an ordered atomic leaves once every earlier ordered atomic of its core has performed; one that
ended otherwise holds it until its late fault is delivered (log 66). -/
def sendOrdered (core nth : Nat) (s : State) : State :=
  let c := s.core core
  match s.req core nth with
  | none => s
  | some r =>
    let clear := c.reqs.all (fun e => decide (r.pos ≤ e.pos) || !e.op.ordered || match e.phase with
        | .applied _ _ => true
        | _ => false) &&
      c.late.all fun l => l.ordered.all fun p => decide (r.pos < p)
    if r.op.ordered && r.onWay.isSome && clear then s.modReq core nth fun r => { r with sent := true } else s

/-- No update that holds a Crier position is still to be exposed or applied by a replica. -/
def Net.crierIdle (n : Net) : Bool := n.updates.all fun u => u.crier.isNone

/-- Dies come to see every replicated update that has been applied at its home before now (R145: Crier order). -/
def Net.catchCrier (n : Net) (dies : List Nat) : Net :=
  ({ n with lags := n.lags.map fun (l : Lag) =>
      if l.crier.isSome then { l with unseen := l.unseen.filter fun d => !dies.contains d } else l }).prune

/-- Perform an atomic at its home (R145, R154, R230, R332): one step, visible to every die at one moment; one that stores
nothing shows its die the home's value, with what comes before it in Crier order. -/
def State.serveAtomic (s : State) (core nth : Nat) (r : Req) (pa : Nat) (op : AtomicOp) (n operand : Nat) : State :=
  let old := s.mem.readList pa n
  let done (s : State) : State := s.modReq core nth fun r => { r with phase := .applied pa old }
  match op.apply n (bytesToNat old) operand with
  | none =>
    let d := dieOf core
    let stamps := (s.net.lags.filter fun l => !l.unseen.isEmpty && overlaps pa n l.pa l.old.length).map (·.stamp)
    let net := if r.replicated then s.net.catchCrier [d] else s.net
    (done { s with net := (net.catchUp [d] pa n).prune }).modCore core (·.noteReads r.pos stamps)
  | some v =>
    let new := natToBytes n v
    let s := s.applyAll pa new
    let s := if r.replicated then { s with net := s.net.catchCrier allDies } else s
    let (stamp, s) := s.newStamp
    done (if s.dataUnit pa then s.sendDelta stamp ⟨r.job, core, r.pos, r.seq, false⟩ pa old new else s)

/-- ATOMIC_PERFORM (R154, R230). -/
def performAtomic (core nth : Nat) (ecc : Bool) (s : State) : State :=
  match s.req core nth with
  | none => s
  | some r => match r.onWay, r.op with
    | some pa, .atomic op n operand ordered =>
      if !s.homeTakes core pa then s.wantUnit pa
      else if s.foreign pa r.job then s.logSp (.discarded core r.seq)
      else if !s.mayLeave core r false || (ordered && !r.sent) || (r.replicated && !s.net.crierIdle) ||
          !s.net.inTurn core r.pos pa n then s
      else if (ecc || s.errorAt pa n) && !s.dataUnit pa then
        (if ecc then s.noteError pa else s).modReq core nth fun r => { r with phase := .refused (r.trap .eccUncorr) }
      else s.serveAtomic core nth r pa op n operand
    | _, _ => s

/-- DIE_CACHE_TAKES_STORE (R142, R150 to R152): the issuing die sees a `.fwd` store before its home applies it. -/
def cacheStore (core nth : Nat) (s : State) : State :=
  match s.req core nth with
  | none => s
  | some r => match r.onWay, r.op with
    | some pa, .store data false =>
      if r.cached || s.net.updating core r.pos || s.foreign pa r.job || !s.mayLeave core r true ||
          !s.net.mayTake (dieOf core) pa data.length then s
      else
        let (stamp, s) := s.newStamp
        let e : Early := ⟨stamp, dieOf core, core, r.pos, pa, data⟩
        let s : State := { s with net := { s.net with early := s.net.early ++ [e] } }
        s.modReq core nth fun r => { r with cached := true }
    | _, _ => s

/-! ### The Crier (R145, R151) -/

/-- Change an update. -/
def Net.modUpdate (n : Net) (i : Nat) (f : Update → Update) : Net := { n with updates := n.updates.modify i f }
/-- The place of a core's request at a program position. -/
def State.reqAt (s : State) (core pos : Nat) : Option Nat := (s.core core).reqs.findIdx? fun r => r.pos == pos
/-- A request whose update is in force at its home is applied. -/
def State.settleAuthor (s : State) (a : Author) (pa : Nat) : State :=
  if a.engine then s
  else match s.reqAt a.core a.pos with
    | some i => s.modReq a.core i fun r => { r with phase := .applied pa [] }
    | none => s
/-- The delta of an update to a protected page (R332: only the home's copy is coded). -/
def State.deltaOf (s : State) (u : Update) (old : List Byte) : State :=
  if u.ecp then s.sendDelta u.stamp u.author u.pa old u.bytes else s

/-- The bytes an update writes, the bits it does not write as they stand. -/
def Update.filled (u : Update) (m : Memory) : List Byte :=
  if u.keep.isEmpty then u.bytes else keptOver u.keep u.bytes (m.readList u.pa u.bytes.length)

/-- The core whose later releases and fences order a store: an engine's writes are ordered by no core (R155, R287). -/
def Author.orderer (a : Author) : Nat := if a.engine then coreCount else a.core

/-- CRIER_ORDER (R145, R151): the Crier gives an update its position; the home applies a `.fwd` update of a replicated
page. -/
def orderUpdate (rec : Nat) (s : State) : State :=
  match s.net.updates[rec]? with
  | none => s
  | some u =>
    if u.crier.isSome || (!u.gack && !s.net.updateInTurn u) then s
    else
      let k := s.net.crierNext
      let n := s.net.modUpdate rec fun u => { u with crier := some k, atHome := !u.gack }
      let s := { s with net := { n with crierNext := k + 1 } }
      if u.gack then s
      else
        let die : Option Nat := if u.author.engine then none else some (dieOf u.author.core)
        let old := s.mem.readList u.pa u.bytes.length
        let s := { s with net := s.net.catchCrier die.toList }
        let u := { u with bytes := u.filled s.mem }
        let s := State.keepErrors u.keep s
          (s.applyFwd u.stamp u.author.job u.author.orderer u.author.pos die u.pa u.bytes (some k))
        let s := if u.author.engine then s else { s with net := s.net.dropEarly u.author.core u.author.pos }
        (s.deltaOf u old).settleAuthor u.author u.pa

/-- Remove the `.fwd` updates that every replica has applied. -/
def Net.retireUpdates (n : Net) : Net :=
  { n with updates := n.updates.filter fun u => !(u.atHome && match u.crier with
      | some k => n.replPos.toList.all fun p => decide (k < p)
      | none => false) }

/-- REPLICA_UPDATE (R145): the replica of an MD applies the next update in Crier order. -/
def replicaUpdate (md : Fin 8) (s : State) : State :=
  if s.net.replPos[md] < s.net.crierNext then
    { s with net := ({ s.net with replPos := s.net.replPos.set md (s.net.replPos[md] + 1) }).retireUpdates }
  else s

/-- GACK_EXPOSE (R151): a `.gack` store that its home and every replica have acknowledged is exposed in Crier order,
visible to every die at one moment. -/
def expose (rec : Nat) (s : State) : State :=
  match s.net.updates[rec]? with
  | none => s
  | some u => match u.crier with
    | none => s
    | some k =>
      let earlier := s.net.updates.any fun v => v.gack && match v.crier with
        | some c => decide (c < k)
        | none => false
      let acked := !u.replicated || s.net.replPos.toList.all fun p => decide (k < p)
      if !u.gack || earlier || !acked || !s.net.updateInTurn u then s
      else
        let old := s.mem.readList u.pa u.bytes.length
        let u := { u with bytes := u.filled s.mem }
        let s := { s with net := { s.net.catchCrier allDies with updates := s.net.updates.eraseIdx rec } }
        ((State.keepErrors u.keep s (s.applyAll u.pa u.bytes)).deltaOf u old).settleAuthor u.author u.pa

/-! ### Responses and timeouts (R157 to R159, R225 to R227) -/

/-- Write a response's value to its destination where the issuing task still runs (R225). -/
def Core.writeBack (c : Core) (r : Req) (v : Nat) : Core :=
  if !(match c.task with
    | some t => t.serial == r.serial
    | none => false) then c
  else match r.dest with
    | some (.x d) => c.setX d (word v)
    | some (.v d) => c.putV d (BitVec.ofNat 128 v)
    | _ => c

/-- No value comes for the destination of a request that has failed: it stays pending for its task (R225, R348, R351). -/
def Core.failDest (c : Core) (r : Req) : Core :=
  match r.dest with
  | some d => c.modTask fun t => if t.serial == r.serial then { t with dead := d :: t.dead } else t
  | none => c

/-- GLOBAL_RESPONSE (R156, R225, R227): the acknowledgement, value or refusal of a request reaches its core. -/
def respond (core nth : Nat) (s : State) : State :=
  match s.req core nth with
  | none => s
  | some r =>
    if s.net.codes core r.seq || s.net.updating core r.pos then s
    else match r.phase with
      | .applied _ value =>
        (s.modCore core fun c => if r.returnsValue then c.writeBack r (bytesToNat value) else c).dropReq core nth
      | .answered v => (s.modCore core fun c => c.writeBack r v).dropReq core nth
      | .refused t => (s.modCore core fun c => { c.failDest r with late := c.late ++ [r.late t] }).dropReq core nth
      | _ => s

/-- The address of a `.fwd` store to a page that is not replicated, once it is translated. -/
def Req.plainStore (r : Req) : Option (Nat × Nat) :=
  match r.op, r.phase with
  | .store d false, .translated pa => if r.replicated then none else some (pa, d.length)
  | .store d false, .applied pa _ => if r.replicated then none else some (pa, d.length)
  | _, _ => none
/-- Every die reads the home's value from here on, where a `.fwd` store to a page that is not replicated is lost (R159). -/
def Net.homeValue (n : Net) (r : Req) : Net := match r.plainStore with
  | some (pa, len) => (n.catchUp allDies pa len).prune
  | none => n
/-- A die drops its cache line of a store that is lost (R159): what the cache has taken of it, of whatever core of the die, is
seen no more until its home applies it. -/
def State.dropLine (s : State) (die pa len : Nat) : State :=
  let hit (r : Req) : Bool := r.cached && (match r.onWay with
    | some p => shareGranule p r.op.size pa len
    | none => false)
  { s with
    net := { s.net with early := s.net.early.filter fun e => e.die != die || !shareGranule e.pa e.bytes.length pa len }
    cores := s.cores.map fun (n, c) => if dieOf n == die then
        (n, { c with reqs := c.reqs.map fun r => if hit r then { r with cached := false } else r })
      else (n, c) }
/-- A request is given up as lost (R159, R361): its die drops what a `.fwd` store left in its cache, with the line of one to a
page that is not replicated; every die then reads the home's value, and an update no Crier position orders yet is applied
nowhere. -/
def State.loseReq (s : State) (core nth : Nat) (r : Req) : State :=
  let n := (s.net.dropEarly core r.pos).homeValue r
  let gone (u : Update) : Bool := u.author.core == core && u.author.pos == r.pos && !u.author.engine && u.crier.isNone
  let s := { s with net := { n with updates := n.updates.filter fun u => !gone u } }
  let s := match r.plainStore with
    | some (pa, len) => s.dropLine (dieOf core) pa len
    | none => s
  (s.modCore core fun c => { c.failDest r with late := c.late ++ [r.late (r.trap .ackLost)] }).dropReq core nth

/-- The timeout and the retries of a core in force (R157). -/
def Core.ackTime (c : Core) : Nat := (if bitsN c.ackcfg.toNat 15 0 == 0 then 20 else bitsN c.ackcfg.toNat 15 0) * 1000
/-- Retries, at most 7 (R157). -/
def Core.ackRetries (c : Core) : Nat := min 7 (bitsN c.ackcfg.toNat 19 16)

/-- A request's time does not count: its walk waits for demand service, or it is an ordered atomic held behind one whose walk
does (R157, R231, log 67). -/
def Core.serviceHeld (c : Core) (r : Req) : Bool :=
  let served (k : Req) : Bool := match k.phase with
    | .serviced _ => true
    | _ => false
  served r || (r.op.ordered && !r.sent && c.reqs.any fun k => k.op.ordered && decide (k.pos < r.pos) && served k)

/-- ACK_TIMEOUT (R157, R159): an overdue request is sent again with its number, or after its last retry is lost. -/
def timeout (core nth : Nat) (s : State) : State :=
  let c := s.core core
  match s.req core nth with
  | none => s
  | some r =>
    let waiting := c.serviceHeld r
    if c.dbg.halted || waiting || decide (r.elapsed < c.ackTime) then s
    else if r.retries < c.ackRetries then s.modReq core nth fun r => { r with retries := r.retries + 1, elapsed := 0 }
    else s.loseReq core nth r

/-! ### Parity, zeroing, residency (R143, R144, R161, R240, R331, R332) -/

/-- Multiplication by x in GF(2^8) reduced by x^8 + x^4 + x^3 + x^2 + 1 (R331). -/
def gdouble (a : Byte) : Byte := if a.getLsbD 7 then (a <<< 1) ^^^ 0x1D else a <<< 1
/-- Multiplication in GF(2^8) by a power of alpha (R331). -/
def gpow : Nat → Byte → Byte
  | 0, a => a
  | n + 1, a => gpow n (gdouble a)

/-- Add bytes into a symbol of a stripe. -/
def State.addSymbol (s : State) (unit sym b : Nat) : List Byte → State
  | [] => s
  | v :: vs => match s.erasure with
    | none => s
    | some e => (s.setSymbol e unit sym b (s.symbolByte e unit sym b ^^^ v)).addSymbol unit sym (b + 1) vs

/-- PARITY_UPDATE (R332): the engine of P0 or P1 applies a delta, once, in the granule's coherence order. -/
def applyDelta (idx : Nat) (p : Fin 2) (s : State) : State :=
  match s.net.parity[idx]?, s.erasure with
  | some d, some e => match e.unitOf d.pa with
    | none => { s with net := { s.net with parity := s.net.parity.eraseIdx idx } }
    | some u =>
      let applied (d : ParityDelta) : Bool := if p = 0 then d.applied0 else d.applied1
      let before := (s.net.parity.take idx).any fun k => !applied k && shareGranule k.pa k.delta.length d.pa d.delta.length
      if applied d || before then s
      else
        let i := symbolAt e.position u
        let add := if p = 0 then d.delta else d.delta.map (gpow i)
        let s := s.addSymbol u (10 + p.val) (d.pa % 65536) add
        let d' := if p = 0 then { d with applied0 := true } else { d with applied1 := true }
        let rest := if d'.applied0 && d'.applied1 then s.net.parity.eraseIdx idx else s.net.parity.set idx d'
        { s with net := { s.net with parity := rest } }
  | some _, none => { s with net := { s.net with parity := s.net.parity.eraseIdx idx } }
  | none, _ => s

/-- The parities of a data unit follow its zeroing (R331, R332): the change is on its way to both, as of an engine. -/
def State.zeroDelta (s : State) (a : Nat) : State :=
  if !s.dataUnit a then s
  else
    let (stamp, s) := s.newStamp
    s.sendDelta stamp ⟨0, coreCount, 0, 0, true⟩ a (s.mem.readList a 65536) (List.replicate 65536 0)
/-- FRAME_ZERO (R161, R331, R362): a frame passes to a job: it is zeroed and every cached copy of it dropped; a unit lost and
not rebuilt holds the request. A parity unit's frame holds the sums of R331 and is no page frame: it passes to no job (R330). -/
def zeroFrame (frame job : Nat) (s : State) : State :=
  let a := frame * 65536
  let outside (pa n : Nat) : Bool := !overlaps a 65536 pa n
  if s.parityUnit a then s
  else if s.unitLost a then s.wantUnit a
  else let s := s.zeroDelta a; { s with
    replicas := s.replicas.filter fun r => outside r.base r.len
    mem := s.mem.zero a 65536
    net := { s.net with
      early := s.net.early.filter fun e => outside e.pa e.bytes.length
      lags := s.net.lags.filter fun l => outside l.pa l.old.length
      updates := s.net.updates.filter fun u => outside u.pa u.bytes.length }
    iod := { s.iod with
      frames := s.iod.frames.put frame job
      errMap := s.iod.errMap.filter fun g => outside (g * 64) 64 } }

/-- Lines below a line number that live in a slice: four lines of every 32 (R28). -/
def sliceLines (n md : Nat) : Nat := n / 32 * 4 + min 4 (n % 32 - 4 * md)
/-- Bytes of a range that live in a slice; a replicated page counts whole in every slice (R145). -/
def sliceBytes (md : Nat) (p : Word × Nat × Nat) : Nat :=
  let a := p.2.1 / 64
  let b := (p.2.1 + p.2.2 + 63) / 64
  64 * (if wbit p.1 63 then b - a else sliceLines b md - sliceLines a md)

/-- A tensor header record (R143): BASE, LEN and the word of HANDLE and PRIO. -/
structure TensorHeader where
  base : Word
  len : Nat
  word : Nat
  deriving DecidableEq, Repr

/-- Read a tensor header. -/
def tensorHeader (b : List Byte) : TensorHeader :=
  ⟨word (bytesToNat (b.take 8)), bytesToNat ((b.drop 8).take 8), bytesToNat ((b.drop 24).take 8)⟩
/-- The handle a record names. -/
def TensorHeader.handle (t : TensorHeader) : Nat := bitsN t.word 15 0
/-- A record with LEN out of its limits or a res0 bit set (R143, R240). -/
def TensorHeader.malformed (t : TensorHeader) : Bool :=
  t.len % 64 != 0 || decide (2 ^ 40 < t.len) || bitsN t.word 63 19 != 0 || wbits t.base 53 52 != 0

/-- A job's residency entry for a handle. -/
def State.resident (s : State) (j h : Nat) : Option Resident := s.resid.find? fun r => r.job == j && r.handle == h
/-- Change a job's residency entry for a handle. -/
def State.modResident (s : State) (j h : Nat) (f : Resident → Resident) : State :=
  { s with resid := s.resid.map fun r => if r.job == j && r.handle == h then f r else r }
/-- HPIN once every slice has answered (R240): its status and effect. A malformed record leaves the handle's range unfixed
(log 71); a replicated page's copy counts once. -/
def State.pinHandle (s : State) (j : Nat) (t : TensorHeader) : Nat × State :=
  if t.handle == 0 then (2, s)
  else if t.malformed then (3, s)
  else
    let fresh := (s.resident j t.handle).isNone
    let r : Resident := (s.resident j t.handle).getD ⟨j, t.handle, wbits t.base 51 0, t.len, bitsN t.word 18 16, []⟩
    let s := if fresh then { s with resid := s.resid ++ [r] } else s
    if !r.pinned.isEmpty then (0, s)
    else match s.pages j r.base r.len with
      | none => (4, s)
      | some ps =>
        let held (md : Nat) (p : Word × Nat × Nat) : Bool := wbit p.1 63 && s.replicas.any fun r =>
          r.job == j && r.base == entryAddr p.1 && r.slices.contains md
        let need := (List.range 8).map fun md => (ps.map fun p => if held md p then 0 else sliceBytes md p).sum
        if (List.range 8).any fun md => decide (pinLimit < s.pinnedIn md + need.getD md 0) then (1, s)
        else (0, s.modResident j t.handle fun r => { r with pinned := need })

/-- The effect of a residency instruction once every slice has answered (R144, R240), and HPIN's status. -/
def State.reside (s : State) (j : Nat) (op : Residency) (t : TensorHeader) : Nat × State :=
  match op with
  | .pin => s.pinHandle j t
  | .demote n =>
    if t.malformed then (0, s)
    else (0, s.modResident j t.handle fun r => { r with pinned := [], prio := min r.prio n })
  | .evict => if t.malformed then (0, s) else (0, s.modResident j t.handle fun r => { r with pinned := [] })

/-- What keeps the walks of a pin from a table entry (R361 to R363). -/
def State.pinBarred (s : State) (core j : Nat) (op : Residency) (t : TensorHeader) : Option Barred :=
  match op, s.resident j t.handle with
  | .pin, some r => if t.malformed || !r.pinned.isEmpty then none else s.rangeBarred core j r.base r.len
  | .pin, none => if t.handle == 0 || t.malformed then none else s.rangeBarred core j (wbits t.base 51 0) t.len
  | _, _ => none

/-- RESIDENCY_REQUEST_AT_SLICE (R144, R240): an LLC slice answers, unless its MD is DOWN (R361); the last answer settles the
instruction, whose record is read as any load reads it (R161, R361 to R363). -/
def resideAtSlice (core nth : Nat) (md : Fin 8) (s : State) : State :=
  match s.req core nth with
  | none => s
  | some r => match r.op, r.onWay with
    | .residency op, some pa =>
      if r.slices.contains md.val || s.mdDown (dieOf core) md.val then s
      else if r.slices.length < 7 then s.modReq core nth fun r => { r with slices := r.slices ++ [md.val] }
      else if !s.homeTakes core pa then s.wantUnit pa
      else if s.foreign pa r.job then s.logSp (.discarded core r.seq)
      else if s.errorAt pa 32 && !s.dataUnit pa then
        s.modReq core nth fun r => { r with phase := .refused (r.trap .eccUncorr) }
      else
        let t := tensorHeader (s.view (some (dieOf core)) pa 32)
        match s.pinBarred core r.job op t with
        | some b => s.barReq core nth r b
        | none =>
          let (status, s) := s.reside r.job op t
          s.modReq core nth fun r => { r with phase := .answered status, slices := r.slices ++ [md.val] }
    | _, _ => s

/-! ### The events -/

/-- GLOBAL_REQUEST_AT_HOME (R158). -/
def execGlobalRequestAtHome (core : Nat) (nth : Nat) (ecc : Bool) (s : State) : Host.Outcome State Fault Refusal :=
  onRealCore core (requestAtHome core nth ecc) s

/-- ATOMIC_PERFORM (R230). -/
def execAtomicPerform (core : Nat) (nth : Nat) (ecc : Bool) (s : State) : Host.Outcome State Fault Refusal :=
  onRealCore core (performAtomic core nth ecc) s

/-- ORDERED_ATOMIC_SEND (R231). -/
def execOrderedAtomicSend (core : Nat) (nth : Nat) (s : State) : Host.Outcome State Fault Refusal :=
  onRealCore core (sendOrdered core nth) s

/-- GLOBAL_RESPONSE (R225). -/
def execGlobalResponse (core : Nat) (nth : Nat) (s : State) : Host.Outcome State Fault Refusal :=
  onRealCore core (respond core nth) s

/-- ACK_TIMEOUT (R157). -/
def execAckTimeout (core : Nat) (nth : Nat) (s : State) : Host.Outcome State Fault Refusal :=
  onRealCore core (timeout core nth) s

/-- DIE_CACHE_TAKES_STORE (R151). -/
def execDieCacheTakesStore (core : Nat) (nth : Nat) (s : State) : Host.Outcome State Fault Refusal :=
  onRealCore core (cacheStore core nth) s

/-- CRIER_ORDER (R145). -/
def execCrierOrder (rec : Nat) (s : State) : Host.Outcome State Fault Refusal := .next (orderUpdate rec s)

/-- REPLICA_UPDATE (R145). -/
def execReplicaUpdate (md : Nat) (s : State) : Host.Outcome State Fault Refusal :=
  if h : md < 8 then .next (replicaUpdate ⟨md, h⟩ s) else .fault .noSuchUnit

/-- GACK_EXPOSE (R151). -/
def execGackExpose (rec : Nat) (s : State) : Host.Outcome State Fault Refusal := .next (expose rec s)

/-- FWD_STORE_REMOTE_VISIBLE (R151). -/
def execFwdStoreRemoteVisible (die : Nat) (rec : Nat) (s : State) : Host.Outcome State Fault Refusal :=
  if dieCount ≤ die then .fault .noSuchUnit else .next { s with net := s.net.show die rec }

/-- PARITY_UPDATE (R332). -/
def execParityUpdate (idx : Nat) (parity : Fin 2) (s : State) : Host.Outcome State Fault Refusal :=
  .next (applyDelta idx parity s)

/-- FRAME_ZERO (R161). -/
def execFrameZero (frame : Nat) (job : Nat) (s : State) : Host.Outcome State Fault Refusal := .next (zeroFrame frame job s)

/-- RESIDENCY_REQUEST_AT_SLICE (R240). -/
def execResidencyRequestAtSlice (core : Nat) (nth : Nat) (md : Fin 8) (s : State) : Host.Outcome State Fault Refusal :=
  onRealCore core (resideAtSlice core nth md) s

end Sys2Proof.Machine
end

