-- ==== Sys2Proof/Machine/Blocks.lean ====
section
/-! DEFINITION. What an engine command moves (R39, R40, R279 to R285, R298, R312, R316 to R322): its endpoints, elements,
blocks, the bytes each block carries and where they go. -/

namespace Sys2Proof.Machine

/-! ### Endpoints and records (R279, R280, R282 to R286) -/

/-- Format of an endpoint. -/
def epFmt (e : Nat) : Nat := bitsN e 63 58
/-- An endpoint in a local buffer (R279). -/
def epLocal (e : Nat) : Bool := bitsN e 53 52 == 1
/-- An endpoint in global memory. -/
def epGlobal (e : Nat) : Bool := bitsN e 53 52 == 0
/-- The core of a local endpoint. -/
def epCore (e : Nat) : Nat := bitsN e 46 32
/-- The buffer of a local endpoint. -/
def epBuf (e : Nat) : Nat := bitsN e 31 30
/-- The offset of a local endpoint. -/
def epOff (e : Nat) : Nat := bitsN e 17 0
/-- The address an endpoint's bytes count from: a place in the core's local memory, or a virtual address. -/
def epBase (e : Nat) : Nat := if epLocal e then locKey (epBuf e) (epOff e) else bitsN e 51 0

/-- A field of a command's record. -/
def Cmd.field (m : Cmd) (off n : Nat) : Nat := bytesToNat ((m.payload.drop off).take n)
/-- SRCE. -/
def Cmd.src (m : Cmd) : Nat := m.field 0 8
/-- DSTE; a GMASK's stands at offset 16 (R286). -/
def Cmd.dst (m : Cmd) : Nat := if m.eop == 5 then m.field 16 8 else m.field 8 8
/-- CTL. -/
def Cmd.ctl (m : Cmd) : Nat := m.field 24 8
/-- The word at offset 16. -/
def Cmd.word16 (m : Cmd) : Nat := m.field 16 8
/-- N, the elements a record names. -/
def Cmd.count (m : Cmd) : Nat := bitsN m.word16 39 0
/-- RING: the destination is a ring. -/
def Cmd.toRing (m : Cmd) : Bool := bitN m.ctl 24
/-- RH: the ring's handle. -/
def Cmd.ringNo (m : Cmd) : Fin 16 := Fin.ofNat 16 (bitsN m.ctl 28 25)
/-- RND. -/
def Cmd.rnd (m : Cmd) : Nat := bitsN m.ctl 30 29
/-- SAT. -/
def Cmd.sat (m : Cmd) : Bool := bitN m.ctl 31
/-- XFORM. -/
def Cmd.xform (m : Cmd) : Nat := bitsN m.ctl 23 20
/-- GACK. -/
def Cmd.gack (m : Cmd) : Bool := bitN m.ctl 18
/-- The A offset of the Till, 0 for none. -/
def Cmd.till (m : Cmd) : Nat := bitsN m.ctl 17 4 * 16

/-- GID of a COLL (R285). -/
def Cmd.gid (m : Cmd) : Nat := bitsN (m.field 32 8) 63 48
/-- NP. -/
def Cmd.np (m : Cmd) : Nat := bitsN (m.field 32 8) 47 32
/-- POS. -/
def Cmd.place (m : Cmd) : Nat := bitsN (m.field 32 8) 31 16
/-- ROOT. -/
def Cmd.root (m : Cmd) : Nat := bitsN (m.field 32 8) 15 0
/-- COP. -/
def Cmd.cop (m : Cmd) : Nat := bitsN (m.field 40 8) 3 0
/-- ROP. -/
def Cmd.rop (m : Cmd) : Nat := bitsN (m.field 40 8) 5 4
/-- Whether a command's data leaves through error feedback: EFQ, or a COLL with EFQ set. -/
def Cmd.efq (m : Cmd) : Bool := m.eop == 3 || (m.eop == 4 && bitN (m.field 40 8) 6)
/-- PAIR. -/
def Cmd.pair (m : Cmd) : Nat := if m.eop == 3 then m.field 32 8 else m.field 48 8
/-- STEP. -/
def Cmd.step (m : Cmd) : Nat := if m.eop == 3 then m.field 40 8 else m.field 56 8

/-- RANK of a CPYS (R283). -/
def Cmd.rank (m : Cmd) : Nat := bitsN m.word16 2 0
/-- PERM of a destination dimension. -/
def Cmd.perm (m : Cmd) (j : Nat) : Nat := bitsN m.word16 (6 + 3 * j + 2) (6 + 3 * j)
/-- EXT of a source dimension. -/
def Cmd.ext (m : Cmd) (d : Nat) : Nat := m.field (32 + 4 * d) 4
/-- SSTR of a source dimension. -/
def Cmd.sstr (m : Cmd) (d : Nat) : Int := sintN 64 (m.field (64 + 8 * d) 8)
/-- DSTR of a destination dimension. -/
def Cmd.dstr (m : Cmd) (j : Nat) : Int := sintN 64 (m.field (120 + 8 * j) 8)

/-- The elements a command writes at its destination (R282 to R285). -/
def Cmd.total (m : Cmd) : Nat :=
  match m.eop with
  | 2 => ((List.range m.rank).map m.ext).foldl (· * ·) 1
  | 4 => match m.cop with
    | 1 => m.count / m.np
    | 2 => m.count * m.np
    | _ => m.count
  | 5 => 0
  | 6 => 0
  | _ => m.count

/-- The destination dimensions, innermost first: extent, source stride, destination stride. -/
def Cmd.dims (m : Cmd) : List (Nat × Int × Int) :=
  if m.eop == 2 then
    ((List.range m.rank).map fun j => (m.ext (m.perm j), m.sstr (m.perm j), m.dstr j)).reverse
  else [(m.total, 1, 1)]

/-- The source and destination index of an element in destination order (R283). -/
def unravel : List (Nat × Int × Int) → Nat → Int × Int
  | [], _ => (0, 0)
  | (n, a, b) :: rest, e =>
    let r := unravel rest (e / n)
    (r.1 + (e % n : Nat) * a, r.2 + (e % n : Nat) * b)
/-- The source index of a destination element. -/
def Cmd.srcIndex (m : Cmd) (e : Nat) : Int := (unravel m.dims e).1
/-- The destination index of a destination element. -/
def Cmd.dstIndex (m : Cmd) (e : Nat) : Int := (unravel m.dims e).2

/-- The least and greatest index of a shape along one side. -/
def indexSpan (l : List (Nat × Int)) : Int × Int :=
  l.foldl (fun r d => (r.1 + min 0 (((d.1 : Int) - 1) * d.2), r.2 + max 0 (((d.1 : Int) - 1) * d.2))) (0, 0)

/-! ### Places of elements (R39, R40) -/

/-- The bit of an element counted from its endpoint (R39, R40). -/
def elemBit (f : Nat) (i : Int) : Int :=
  if fmtScaled f then
    let b : Int := fmtBlock f
    let grp := i / (16 * b)
    let blk := i / b % 16
    8 * (grp * fmtGroupBytes f + 16 + blk * fmtBlockBytes f) + i % b * fmtBits f
  else i * fmtBits f
/-- The byte of an element's scale counted from its endpoint (R40). -/
def scaleByte (f : Nat) (i : Int) : Int :=
  let b : Int := fmtBlock f
  i / (16 * b) * fmtGroupBytes f + i / b % 16

/-- The bytes from an endpoint that the elements of an index range occupy: first, and one past the last. -/
def byteSpan (f : Nat) (span : Int × Int) : Int × Int :=
  (if fmtScaled f then scaleByte f span.1 else elemBit f span.1 / 8, (elemBit f span.2 + fmtBits f + 7) / 8)

/-- The byte span of a command's source. A reduction's source holds N elements. -/
def Cmd.srcSpan (m : Cmd) : Int × Int :=
  byteSpan (epFmt m.src) (if m.eop == 2 then indexSpan (m.dims.map fun d => (d.1, d.2.1)) else (0, (m.count : Int) - 1))
/-- The byte span of a command's destination that is no ring. -/
def Cmd.dstSpan (m : Cmd) : Int × Int :=
  if m.eop == 5 then (0, ((bitsN m.ctl 50 32 + 127) / 128 * 16 : Nat))
  else byteSpan (epFmt m.dst) (indexSpan (m.dims.map fun d => (d.1, d.2.2)))

/-! ### Reading the source (R282, R316, R398) -/

/-- The die in whose view a command's engine reads global memory (R398). -/
def Cmd.viewer (m : Cmd) (core : Nat) : Option Nat :=
  if m.eop ≤ 2 then (if bitN m.engine 7 then none else some (bitsN m.engine 6 2)) else some (dieOf core)

/-- The page of a command that maps a virtual address. -/
def Cmd.page (m : Cmd) (va : Nat) : Option TlbEntry := m.pages.find? fun p => p.page == va / 2 ^ p.log
/-- The physical address of a virtual one. -/
def Cmd.phys (m : Cmd) (va : Nat) : Option Nat := (m.page va).map (·.place va)

/-- A source byte of a memmove in its snapshot (R282), counted from SRCE. -/
def Cmd.snapAt (m : Cmd) (d : Int) : Option Snap := m.snapshot[(d - m.srcSpan.1).toNat]?
/-- The place in local memory, or virtual address, of a byte of a memmove's snapshot: what lies below VA 0 counts as VA 0
(log 83). -/
def Cmd.snapVa (m : Cmd) (i : Nat) : Nat := ((epBase m.src : Int) + m.srcSpan.1 + (i : Int)).toNat
/-- A byte of a granule that a command has read already (R153). -/
def Cmd.fetchedByte (m : Cmd) (pa : Nat) : Option Byte := (m.fetched.find (granule pa)).bind fun l => l[pa % 64]?
/-- A source byte of a command, counted from SRCE, as it stands: from the snapshot of a memmove, the buffer, a granule it has
read, or the engine's view of global memory. -/
def State.srcByte (s : State) (core : Nat) (m : Cmd) (d : Int) : Option Byte :=
  match m.snapAt d with
  | some (.byte b) => some b
  | _ =>
    let a := ((epBase m.src : Int) + d).toNat
    if epLocal m.src then some ((s.core (epCore m.src)).loc.read a)
    else (m.phys a).bind fun pa => (m.fetchedByte pa).orElse fun _ => (s.view (m.viewer core) pa 1).head?

/-- An element's code and scale code at a source index. -/
def State.srcCode (s : State) (core : Nat) (m : Cmd) (i : Int) : Option (Nat × Nat) := do
  let f := epFmt m.src
  let bit := elemBit f i
  let sh := (bit % 8).toNat
  let bytes ← (List.range ((sh + fmtBits f + 7) / 8)).mapM fun (k : Nat) => s.srcByte core m (bit / 8 + (k : Int))
  let scale ← if fmtScaled f then (s.srcByte core m (scaleByte f i)).map (·.toNat) else some 0
  return (bytesToNat bytes / 2 ^ sh % 2 ^ fmtBits f, scale)

/-- The source bytes an element needs, counted from SRCE. -/
def srcBytesOf (f : Nat) (i : Int) : List Int :=
  let bit := elemBit f i
  let n := ((bit % 8).toNat + fmtBits f + 7) / 8
  ((List.range n).map fun (k : Nat) => bit / 8 + (k : Int)) ++ (if fmtScaled f then [scaleByte f i] else [])

/-- The value of an element of a format (R42, R46 to R48). -/
def codeVal (t : DecodeTable) (f : Nat) (c : Nat × Nat) : Val :=
  if fmtScaled f then decodeScaled t f c.2 c.1 else decodeElem t f c.1

/-- What a destination element is made from: the bits of a source element, or a value to encode (R317). -/
inductive Elem
  | raw (code scale : Nat)
  | val (v : Val)
  deriving DecidableEq, Repr

/-- The value of an element for a format. -/
def Elem.toVal (t : DecodeTable) (f : Nat) : Elem → Val
  | .raw c sc => codeVal t f (c, sc)
  | .val v => v

/-! ### Encoding the destination (R316 to R318) -/

/-- The job seed of a command (R370). -/
def State.seedOf (s : State) (j : Nat) : Nat := match s.job j with
  | some b => b.launch.seed.toNat
  | none => 0

/-- The rounding of a destination element (R318): RND, with the draw of round_sto. -/
def State.roundingOf (s : State) (core : Nat) (m : Cmd) (e : Nat) : Rounding :=
  match m.rnd with
  | 0 => .rne
  | 1 => .rtz
  | _ =>
    let x := if m.eop ≤ 2 then m.dst else m.step
    .sto (mix (mixKey 0x05 core (s.seedOf m.job)) (x * 2 ^ 64 + e) % 65536)

/-- The code of an unscaled destination element. -/
def State.encodeOne (s : State) (core : Nat) (m : Cmd) (e : Nat) (x : Elem) : Nat :=
  match x with
  | .raw c _ => c
  | .val v => (encodeElem m.table (epFmt m.dst) (s.roundingOf core m e) m.sat v).1

/-- The scale that every element of a list is copied under, where all are copied under one. -/
def oneScale : List Elem → Option Nat
  | [.raw _ sc] => some sc
  | .raw _ sc :: rest => if oneScale rest == some sc then some sc else none
  | _ => none
/-- The scale and codes of a scale block of the destination from its elements (R58, R59, R317): bits that all come under one
scale are copied with it; else the block's values are encoded together (log 65). -/
def State.encodeBlock (s : State) (core : Nat) (m : Cmd) (q : Nat) (xs : List Elem) : Nat × List Nat :=
  let f := epFmt m.dst
  match oneScale xs with
  | some sc => (sc, xs.map fun x => match x with
      | .raw c _ => c
      | .val _ => 0)
  | none =>
    let r := scaleBlock m.table f (fun i => s.roundingOf core m (q * fmtBlock f + i)) (xs.map (·.toVal m.table f))
    (r.1, r.2.1)

/-! ### Error feedback (R284, R322 to R325) -/

/-- The regions of PAIR (R198): EVEN and ODD offsets in A, and bytes. -/
def pairRegions (p : Nat) : Nat × Nat × Nat := (bitsN p 17 0, bitsN p 35 18, bitsN p 49 36 * 16)
/-- The A offsets a step reads and writes: r_in, r_out. -/
def Cmd.residuals (m : Cmd) : Nat × Nat :=
  let (even, odd, _) := pairRegions m.pair
  if m.step % 2 == 0 then (odd, even) else (even, odd)

/-- One EFQ block (R322): its scale, codes and residuals, and whether it is a NaN block. -/
def State.efqBlock (s : State) (core : Nat) (m : Cmd) (j : Nat) : Nat × List Nat × List Nat × Bool :=
  let loc := (s.core core).loc
  let f := epFmt m.dst
  let (rin, _) := m.residuals
  let word (i : Nat) (base : Nat) : Nat := loc.readNat (base + 4 * (32 * j + i)) 4
  let y := (List.range 32).map fun i =>
    (rneF32 ((fp32.decode (word i (epBase m.src))).add (fp32.decode (word i (locKey 0 rin))))).1
  let ys := y.map fp32.decode
  if ys.any fun v => !v.isFinite then (0xFF, y.map fun _ => 0, y.map fun _ => 0, true)
  else
    let r := scaleBlock m.table f (fun i => s.roundingOf core m (32 * j + i)) ys
    let out := (ys.zip r.2.1).map fun (v, c) => (rneF32 (v.add (decodeScaled m.table f r.1 c).neg)).1
    (r.1, r.2.1, out, false)

/-- Write an EFQ block's residuals and count a NaN block (R322, R324). -/
def State.efqStore (s : State) (core pos j : Nat) (r : Nat × List Nat × List Nat × Bool) (m : Cmd) : State :=
  let (_, rout) := m.residuals
  let (_, _, out, nan) := r
  let bytes := out.flatMap (natToBytes 4)
  s.modCore core fun c => { c with
    loc := c.loc.writeList (locKey 0 (rout + 128 * j)) bytes
    cmds := c.cmds.map fun k => if k.pos == pos && nan then
      { k with nans := k.nans + 1, firstNan := if k.nans == 0 then j else k.firstNan } else k }

/-! ### Blocks (R312, R319) -/

/-- Bits an element takes in a ring (R298, R319). -/
def ringWidth (f : Nat) : Nat := if fmtOperand f then ringBits f else fmtBits f

/-- The ring a command writes, as its core holds it. -/
def State.destRing (s : State) (m : Cmd) : Ring := (s.core (epCore m.dst)).rings[m.ringNo]
/-- The partner ring of the destination (R300, R319). -/
def Cmd.partnerNo (m : Cmd) : Fin 16 := Fin.ofNat 16 (m.ringNo.val + 1)
/-- Elements of a slot. -/
def Ring.elems (r : Ring) (f : Nat) : Nat := r.slotBytes * 8 / ringWidth f
/-- The bytes of a block's part of a slot (R312). -/
def Ring.part (r : Ring) : Nat := min 256 r.slotBytes

/-- The element at a flat position of a slot (R319). -/
def slotElem (r : Ring) (f p : Nat) : Nat :=
  if r.role == 2 && fmtScaled f then
    let b := fmtBlock f
    let row := p / 32
    (row / b * 32 + p % 32) * b + row % b
  else p

/-- Bytes of the destination that are no ring and not scaled. -/
def Cmd.streamBytes (m : Cmd) : Nat := if m.eop == 5 then (bitsN m.ctl 50 32 + 127) / 128 * 16
  else (m.total * fmtBits (epFmt m.dst) + 7) / 8

/-- The number of blocks of a command. -/
def State.blockCount (s : State) (m : Cmd) : Nat :=
  let f := epFmt m.dst
  if m.eop == 6 then 0
  else if m.eop != 5 && m.toRing then
    let r := s.destRing m
    m.total * ringWidth f / 8 / r.part
  else if m.eop != 5 && fmtScaled f then (m.total + 16 * fmtBlock f - 1) / (16 * fmtBlock f)
  else (m.streamBytes + 255) / 256

/-- The elements a block carries, in their order within it. -/
def State.blockElems (s : State) (m : Cmd) (k : Nat) : List Nat :=
  let f := epFmt m.dst
  let upTo (a b : Nat) : List Nat := (List.range (b - a)).map (a + ·)
  if m.eop == 5 then []
  else if m.toRing then
    let r := s.destRing m
    let slot := k * r.part / r.slotBytes
    let p0 := k * r.part % r.slotBytes * 8 / ringWidth f
    (List.range (r.part * 8 / ringWidth f)).map fun i => slot * r.elems f + slotElem r f (p0 + i)
  else if fmtScaled f then upTo (16 * fmtBlock f * k) (min m.total (16 * fmtBlock f * (k + 1)))
  else
    let w := fmtBits f
    upTo (2048 * k / w) (min m.total ((2048 * (k + 1) + w - 1) / w))

/-- The scale blocks whose scale bytes a block carries: numbered over the command. -/
def State.blockScales (s : State) (m : Cmd) (k : Nat) : List Nat :=
  let f := epFmt m.dst
  if m.eop == 5 || !fmtScaled f then []
  else ((s.blockElems m k).filter fun e => e % fmtBlock f == 0).map fun e => e / fmtBlock f

/-- The elements a block's bytes depend on: for a scaled destination the whole scale blocks (R313). -/
def State.blockDeps (s : State) (m : Cmd) (k : Nat) : List Nat :=
  let f := epFmt m.dst
  if !fmtScaled f then s.blockElems m k
  else (((s.blockElems m k).map fun e => e / fmtBlock f).eraseDups).flatMap fun q =>
    (List.range (min (fmtBlock f) (m.total - q * fmtBlock f))).map fun i => q * fmtBlock f + i

/-- A write to one byte: its place in the destination core's local memory or its virtual address, the bits written, and
their values. -/
structure ByteWrite where
  addr : Nat
  mask : Nat
  val : Nat
  deriving DecidableEq, Repr

/-- Set the bits a write names; the others keep their value (R39). -/
def ByteWrite.on (w : ByteWrite) (old : Byte) : Byte :=
  BitVec.ofNat 8 (old.toNat - (old.toNat &&& w.mask) + (w.val &&& w.mask))

/-- Join a bit to the byte it falls in. -/
def joinBit (bit : Nat) (v : Bool) : List ByteWrite → List ByteWrite
  | w :: ws =>
    if w.addr == bit / 8 then { w with mask := w.mask + 2 ^ (bit % 8), val := w.val + v.toNat * 2 ^ (bit % 8) } :: ws
    else ⟨bit / 8, 2 ^ (bit % 8), v.toNat * 2 ^ (bit % 8)⟩ :: w :: ws
  | [] => [⟨bit / 8, 2 ^ (bit % 8), v.toNat * 2 ^ (bit % 8)⟩]

/-- The writes of a byte of the stream of element codes that begins at a bit of it: whole bytes where elements occupy
bytes, else bit by bit. -/
def Cmd.streamByte (m : Cmd) (base : Int) (bit : Nat) (b : Byte) : List ByteWrite :=
  let f := epFmt m.dst
  let w := fmtBits f
  let place (x : Nat) : Nat := (base * 8 + elemBit f (m.dstIndex (x / w)) + (x % w : Nat)).toNat
  if w % 8 == 0 then [⟨place bit / 8, 255, b.toNat⟩]
  else (((List.range 8).filter fun i => decide ((bit + i) / w < m.total)).foldl
    (fun ws i => joinBit (place (bit + i)) (b.getLsbD i) ws) []).reverse

/-- The writes that the bytes of a block make (R312, R319). -/
def State.blockWrites (s : State) (m : Cmd) (k : Nat) (bytes : List Byte) : List ByteWrite :=
  let f := epFmt m.dst
  let base : Int := epBase m.dst
  let whole (l : List (Nat × Byte)) : List ByteWrite := l.map fun p => ⟨p.1, 255, p.2.toNat⟩
  let stream (bit0 : Nat) (l : List Byte) : List ByteWrite := (l.zipIdx.map fun (b, i) => m.streamByte base (bit0 + 8 * i) b).flatten
  if m.eop == 5 then whole (bytes.zipIdx.map fun (b, i) => (epBase m.dst + 256 * k + i, b))
  else if m.toRing then
    let r := s.destRing m
    let p := (s.core (epCore m.dst)).rings[m.partnerNo]
    let slot := k * r.part / r.slotBytes
    let first := (m.resv.head?.map (·.first)).getD 0
    let firstP := ((m.resv.drop 1).head?.map (·.first)).getD 0
    let off := k * r.part % r.slotBytes
    let per := r.elems f / fmtBlock f
    whole (((bytes.take r.part).zipIdx.map fun (b, i) => (locKey r.buf (r.slotAt (first + slot) + off + i), b)) ++
      ((s.blockScales m k).zip (bytes.drop r.part)).map fun (q, b) =>
        (locKey p.buf (p.slotAt (firstP + slot) + q % per), b))
  else if fmtScaled f then
    let qs := s.blockScales m k
    whole ((qs.zip bytes).map fun (q, b) => ((base + scaleByte f (m.dstIndex (q * fmtBlock f))).toNat, b)) ++
      stream ((s.blockElems m k).headD 0 * fmtBits f) (bytes.drop qs.length)
  else stream (2048 * k) bytes

/-- Bytes of a block as it travels. -/
def State.blockLen (s : State) (m : Cmd) (k : Nat) : Nat :=
  if m.eop == 5 then min 256 (m.streamBytes - 256 * k)
  else if m.toRing then (s.destRing m).part + (s.blockScales m k).length
  else if fmtScaled (epFmt m.dst) then
    (s.blockScales m k).length + ((s.blockElems m k).length * fmtBits (epFmt m.dst) + 7) / 8
  else min 256 (m.streamBytes - 256 * k)

/-- Where the bytes of a block go. -/
def State.blockPlaces (s : State) (m : Cmd) (k : Nat) : List Nat :=
  (s.blockWrites m k (List.replicate (s.blockLen m k) 0)).map (·.addr)

/-- The bytes of a block from the scale and codes of its scale blocks, or from the codes of its elements. -/
def State.packBlock (s : State) (m : Cmd) (k : Nat) (code : Nat → Nat) (scale : Nat → Nat) : List Byte :=
  let f := epFmt m.dst
  let es := s.blockElems m k
  let scales := (s.blockScales m k).map fun q => BitVec.ofNat 8 (scale q)
  if m.toRing then natToBytes (s.destRing m).part (packCodes (ringWidth f) (es.map code)) ++ scales
  else if fmtScaled f then
    scales ++ natToBytes ((es.length * fmtBits f + 7) / 8) (packCodes (fmtBits f) (es.map code))
  else
    let w := fmtBits f
    natToBytes (min 256 (m.streamBytes - 256 * k)) (packCodes w (es.map code) / 2 ^ (2048 * k - es.headD 0 * w))

/-- The scale blocks whose elements a block carries. -/
def State.blockParts (s : State) (m : Cmd) (k : Nat) : List Nat :=
  ((s.blockElems m k).map fun e => e / fmtBlock (epFmt m.dst)).eraseDups
/-- The scale and codes of the scale blocks of a block whose elements are given: each is converted once (R316). A last scale
block that N leaves short is formed from the elements present, and no more of its bytes are written (log 84). -/
def State.codeBlocks (s : State) (core : Nat) (m : Cmd) (k : Nat) (elem : Nat → Option Elem) :
    Option (Assoc (Nat × List Nat)) :=
  let b := fmtBlock (epFmt m.dst)
  (s.blockParts m k).mapM fun q => match m.coded.find q with
    | some r => some (q, r)
    | none => do
      let xs ← (List.range (min b (m.total - q * b))).mapM fun i => elem (q * b + i)
      return (q, s.encodeBlock core m q xs)
/-- A command keeps the scale blocks that its ring's blocks share. -/
def Cmd.keepCoded (m : Cmd) (l : Assoc (Nat × List Nat)) : Cmd :=
  if m.toRing && fmtScaled (epFmt m.dst) then { m with coded := l.foldl (fun c p => c.put p.1 p.2) m.coded } else m
/-- The bytes of a block whose elements are given: encoded one by one, or scale block by scale block (R318). -/
def State.encodeElems (s : State) (core : Nat) (m : Cmd) (k : Nat) (elem : Nat → Option Elem) : Option (List Byte) := do
  let f := epFmt m.dst
  if fmtScaled f then
    let coded ← s.codeBlocks core m k elem
    let block (q : Nat) : Nat × List Nat := ((coded.find? fun p => p.1 == q).map (·.2)).getD (0, [])
    return s.packBlock m k (fun e => (block (e / fmtBlock f)).2.getD (e % fmtBlock f) 0) fun q => (block q).1
  else
    let coded ← (s.blockElems m k).mapM fun e => do return (e, s.encodeOne core m e (← elem e))
    return s.packBlock m k (fun e => ((coded.find? fun p => p.1 == e).map (·.2)).getD 0) fun _ => 0

/-- A destination element of a copy: the source element's bits where the formats are the same, else its value (R317). -/
def State.copyElem (s : State) (core : Nat) (m : Cmd) (e : Nat) : Option Elem := do
  let (c, sc) ← s.srcCode core m (m.srcIndex e)
  return if epFmt m.src == epFmt m.dst then .raw c sc else .val (codeVal m.table (epFmt m.src) (c, sc))

end Sys2Proof.Machine
end

