-- ==== Sys2Proof/Machine/EngineAccept.lean ====
section
/-! DEFINITION. Acceptance and refusal of engine commands (R126, R127, R131, R278 to R287, R294, R317, R320, R323, R327,
R328) and their end (R268, R278, R281, R324). -/

namespace Sys2Proof.Machine

/-! ### Commands of a core -/

/-- A command of a core by its place among its live ones. -/
def State.cmd (s : State) (core nth : Nat) : Option Cmd := (s.core core).cmds[nth]?
/-- Change the command of a core that stands at a program position. -/
def State.modCmd (s : State) (core pos : Nat) (f : Cmd → Cmd) : State :=
  s.modCore core fun c => { c with cmds := c.cmds.map fun m => if m.pos == pos then f m else m }
/-- A command has ended and its completion, if any, is posted; or it is cancelled. -/
def Cmd.isEnded (m : Cmd) : Bool := match m.stage with
  | .ended _ => true
  | .cancelled => true
  | _ => false

/-- Statuses of engine commands (R268). -/
inductive CmdStatus
  | done
  | bufAccess
  | ringOverrun
  | copyOverlap
  | fmtMismatch
  | xlateFault
  | protFault
  | crcLimit
  | bufBounds
  | illegalToken
  | groupMismatch
  | eccUncorr
  deriving DecidableEq, Repr
/-- The STATUS code (R268). -/
def CmdStatus.code : CmdStatus → Nat
  | .done => 0x00
  | .bufAccess => 0x10
  | .ringOverrun => 0x11
  | .copyOverlap => 0x12
  | .fmtMismatch => 0x13
  | .xlateFault => 0x14
  | .protFault => 0x15
  | .crcLimit => 0x16
  | .bufBounds => 0x17
  | .illegalToken => 0x18
  | .groupMismatch => 0x19
  | .eccUncorr => 0x1A

/-- The instances among some marks that have not ended. -/
def State.liveMarks (s : State) (marks : List InstanceId) : List InstanceId := marks.filter fun i =>
  match (s.gang i.job i.gang).bind fun x => x.inst i.dom i.inst with
  | some n => !n.done
  | none => false

/-- The message id of a command (R91, R278). -/
def Cmd.id (m : Cmd) (core : Nat) : Nat := core * 2 ^ 24 + m.seq

/-- Post the outcome of a command (R268, R269, R278, R281): a completion record where it asks for one; else a status
message, and for DONE nothing. -/
def State.postEnd (s : State) (core : Nat) (m : Cmd) (status detail : Nat) : State :=
  if m.rcen then
    s.send { selfMsg core m.seq 4 m.rch (statusBytes status (m.id core) detail) m.job with
      record := true
      marks := s.liveMarks m.marks }
  else if status == 0 then s
  else s.statusTo core m.job status (m.id core) detail []

/-- The count of NaN blocks, posted before a command's completion (R324). -/
def State.postNans (s : State) (core : Nat) (m : Cmd) : State :=
  if m.nans == 0 then s else s.statusTo core m.job 5 (m.id core) (m.nans * 2 ^ 32 + m.firstNan) []

/-! ### Checks of the record (R279 to R286, R317, R320, R323, R327) -/

/-- The address field of an endpoint, of which its format requires alignment. -/
def epAddr (e : Nat) : Nat := if epLocal e then bitsN e 31 0 else bitsN e 51 0

/-- The form of an endpoint (R38, R119, R120, R279): tag, reserved bits, format, BLG, alignment. -/
def epForm (e : Nat) : Bool :=
  let f := epFmt e
  (epGlobal e || (epLocal e && bitsN e 51 47 == 0)) && fmtAssigned f && bitsN e 57 54 == fmtBlg f &&
    (if fmtScaled f then epAddr e % 16 == 0 else decide (fmtBits f < 8) || epAddr e % (fmtBits f / 8) == 0)

/-- CTL's fields and the conditions on them that name the destination (R280, R286, R318, R320). -/
def Cmd.ctlOk (m : Cmd) : Bool :=
  if m.eop == 6 then m.ctl == 0 && bitsN m.word16 63 32 == 0
  else if m.eop == 5 then
    bitsN m.ctl 63 51 == 0 && decide (1 ≤ bitsN m.ctl 50 32) && decide (bitsN m.ctl 50 32 ≤ 262144) &&
      bitsN m.ctl 31 18 == 0 && bitsN m.ctl 3 0 == 0
  else
    let g := if m.xform == 1 || m.xform == 3 then 16 else if m.xform == 2 || m.xform == 4 then 32 else 1
    bitsN m.ctl 63 32 == 0 && !bitN m.ctl 19 && bitsN m.ctl 3 0 == 0 && m.rnd != 3 && decide (m.xform ≤ 5) &&
      (m.xform == 0 || (epLocal m.dst && epFmt m.dst == 1 && m.total % g == 0)) &&
      (epLocal m.dst || (m.till == 0 && !m.toRing)) && (epGlobal m.dst || !m.gack) &&
      (m.eop == 2 || bitsN m.word16 63 40 == 0)

/-- Formats that decode to a value (R317). -/
def fmtDecodes (f : Nat) : Bool := fmtOperand f || (decide (32 ≤ f) && decide (f ≤ 36))
/-- The format pairs of R317. -/
def pairOk (s d : Nat) : Bool := s == d || (fmtDecodes s && fmtDecodes d)
/-- Formats a collective reads (R327). -/
def collFmt (f : Nat) : Bool := (decide (1 ≤ f) && decide (f ≤ 24)) || (decide (33 ≤ f) && decide (f ≤ 36))
/-- A local endpoint of a core. -/
def epOf (core e : Nat) : Bool := epLocal e && epCore e == core

/-- Elements of a packed format that fill whole bytes: 8 / width, and 4 for six bits (R283, R39). -/
def packedRun (f : Nat) : Nat :=
  if fmtScaled f then 16 * fmtBlock f else if fmtBits f == 2 then 4 else if fmtBits f == 4 then 2 else if fmtBits f == 6 then 4 else 1
/-- The last dimension of an endpoint of a CPYS, by its extent and stride (R283). -/
def lastDimOk (f ext : Nat) (str : Int) : Bool :=
  (decide (8 ≤ fmtBits f) && !fmtScaled f) || (str == 1 && ext % packedRun f == 0)

/-- The shape of a CPYS (R283). -/
def Cmd.shapeOk (m : Cmd) : Bool :=
  let r := m.rank
  let dims := List.range r
  let perms := dims.map m.perm
  let last := r - 1
  decide (1 ≤ r) && bitsN m.word16 5 3 == 0 && bitsN m.word16 63 27 == 0 && m.field 60 4 == 0 &&
    ((List.range 7).all fun d => decide (d < r) || (m.perm d == 0 && m.ext d == 0 && m.sstr d == 0 && m.dstr d == 0)) &&
    (dims.all fun d => perms.contains d && m.ext d != 0) &&
    lastDimOk (epFmt m.src) (m.ext last) (m.sstr last) &&
    lastDimOk (epFmt m.dst) (m.ext (m.perm last)) (m.dstr last)

/-- Two ranges of local memory, by buffer, offset and length, share a byte. -/
def sameBytes (b1 o1 n1 b2 o2 n2 : Nat) : Bool := b1 == b2 && overlaps o1 n1 o2 n2

/-- The limits of error feedback (R284, R285, R323). Bits [29:18] of SRCE stand for bytes beyond any buffer, which no region of
PAIR holds (R123). -/
def Cmd.feedbackOk (m : Cmd) (core : Nat) : Bool :=
  let (even, odd, size) := pairRegions m.pair
  let clear (off : Nat) : Bool :=
    decide (off + size ≤ bufSize 0) && !sameBytes 0 off size (epBuf m.src) (bitsN m.src 29 0) (4 * m.count)
  epOf core m.src && epFmt m.src == 1 && [10, 11, 14].contains (epFmt m.dst) && m.count % 32 == 0 &&
    (m.rnd == 0 || m.rnd == 2) && bitsN m.pair 63 50 == 0 && decide (4 * m.count ≤ size) && clear even && clear odd

/-- The fields of a COLL (R285, R327, R328). -/
def Cmd.collOk (m : Cmd) (core : Nat) : Bool :=
  !m.toRing && bitsN (m.field 40 8) 63 7 == 0 && decide (m.cop ≤ 3) && decide (m.rop ≤ 2) && decide (m.place < m.np) &&
    (m.cop != 3 || decide (m.root < m.np)) && (m.cop != 1 || m.count % (m.np * 256) == 0) &&
    (if m.efq then m.feedbackOk core else m.field 48 8 == 0 && m.field 56 8 == 0 && collFmt (epFmt m.src)) &&
    pairOk (epFmt m.src) (epFmt m.dst) && !fmtTable (epFmt m.src) && !fmtTable (epFmt m.dst)

/-- The ring a command writes (R280, R319): format, whole slots, room for scale blocks, and the partner of a scaled one. An
odd handle, a partner that breaks R300, and a slot without a whole scale block are refused with FMT_MISMATCH (log 38). -/
def State.ringOk (s : State) (m : Cmd) : Bool :=
  let f := epFmt m.dst
  let r := s.destRing m
  let p := (s.core (epCore m.dst)).rings[m.partnerNo]
  let bits := m.total * ringWidth f
  let b := fmtBlock f
  bitsN m.dst 31 0 == 0 && r.fmt == f && bits % (8 * r.slotBytes) == 0 &&
    (!fmtScaled f || (m.ringNo.val % 2 == 0 && p.valid && p.role == r.role && p.fmt == (if fmtMx f then 37 else 6) &&
      r.elems f % (if r.role == 2 then 32 * b else b) == 0 && decide (r.elems f / b ≤ p.slotBytes)))

/-- Every check whose breach is FMT_MISMATCH. -/
def State.formOk (s : State) (core : Nat) (m : Cmd) : Bool :=
  match m.eop with
  | 6 => m.src % 64 == 0 && m.src / 2 ^ 52 == 0 && m.field 8 8 % 64 == 0 && m.field 8 8 / 2 ^ 52 == 0 && m.ctlOk
  | 5 => m.src % 64 == 0 && m.src / 2 ^ 52 == 0 && m.field 8 8 % 64 == 0 && m.field 8 8 / 2 ^ 52 == 0 && m.ctlOk &&
      epForm m.dst && epLocal m.dst && epFmt m.dst == 0 && epBuf m.dst == 0 && epAddr m.dst % 16 == 0
  | e =>
    epForm m.src && epForm m.dst && m.ctlOk &&
    (match e with
      | 1 => pairOk (epFmt m.src) (epFmt m.dst)
      | 2 => pairOk (epFmt m.src) (epFmt m.dst) && m.shapeOk
      | 3 => m.feedbackOk core
      | _ => m.collOk core) &&
    (decide (2 < e) || !(fmtTable (epFmt m.src) || fmtTable (epFmt m.dst)) || epOf core m.src || epOf core m.dst) &&
    (!m.toRing || s.ringOk m)

/-! ### Rights and bounds (R126, R127, R279, R294) -/

/-- The place of a span of a local endpoint: offset in its buffer, as an integer, and length. Bits [29:18] of LADDR stand for
bytes beyond any buffer (R123). -/
def spanAt (e : Nat) (sp : Int × Int) : Int × Nat := ((bitsN e 29 0 : Int) + sp.1, (sp.2 - sp.1).toNat)
/-- The bytes of a span at offset 0 or above, by buffer, offset and length: none lie below. -/
def spanRange (e : Nat) (sp : Int × Int) : Nat × Nat × Nat :=
  let (off, n) := spanAt e sp
  (epBuf e, off.toNat, (off + n).toNat - off.toNat)

/-- The rings a command reserves on: its data ring, and the partner of a scaled one. -/
def Cmd.ringNos (m : Cmd) : List (Fin 16) := if fmtScaled (epFmt m.dst) then [m.ringNo, m.partnerNo] else [m.ringNo]
/-- A local endpoint's core belongs to a gang of the job, its buffer is one, and the rights hold (R126, R279) on the buffers
its bytes lie in. -/
def State.reachable (s : State) (m : Cmd) (e right : Nat) (bufs : List Nat) : Bool :=
  !epLocal e || (decide (epCore e < coreCount) && (s.holder m.job (epCore e)).isSome && epBuf e != 3 &&
    bufs.all fun b => aclBit (s.core (epCore e)).bufacl b right)
/-- The buffers a command's local destination lies in: its own, or those of the rings it pushes (R126). -/
def State.destBufs (s : State) (m : Cmd) : List Nat :=
  if m.eop != 5 && m.toRing then m.ringNos.map fun h => ((s.core (epCore m.dst)).rings[h]).buf else [epBuf m.dst]

/-- Bytes of a core that no engine may write: the constant window and the preserved ranges (R127, R294). -/
def State.guarded (s : State) (core b off n : Nat) : Bool :=
  (b == 0 && decide (off < 0x800) && n != 0) || (s.core core).preservedBytes b off n

/-- Slots a command takes of its ring. -/
def State.slotsOf (s : State) (m : Cmd) : Nat := m.total * ringWidth (epFmt m.dst) / (8 * (s.destRing m).slotBytes)
/-- The next slot a reservation takes (R130, R131). -/
def Ring.nextFree (r : Ring) : Nat := (r.tail + r.reserved) % 512
/-- The byte ranges of `n` slots that a reservation on a ring takes, by buffer, offset and length. -/
def Ring.ranges (r : Ring) (n : Nat) : List (Nat × Nat × Nat) :=
  (List.range n).map fun i => (r.buf, r.slotAt (r.nextFree + i), r.slotBytes)

/-- The byte range of a command's local destination at its core: the span of its endpoint, or the slots it takes. -/
def State.destRange (s : State) (m : Cmd) : List (Nat × Nat × Nat) :=
  if m.eop == 6 || !epLocal m.dst || (m.total == 0 && m.eop != 5) then []
  else if m.eop != 5 && m.toRing then m.ringNos.flatMap fun h => ((s.core (epCore m.dst)).rings[h]).ranges (s.slotsOf m)
  else [spanRange m.dst m.dstSpan]
/-- The bytes that the elements of a strided destination occupy, element by element, with their scale bytes (R40, R283). -/
def Cmd.elemRanges (m : Cmd) : List (Nat × Nat × Nat) :=
  let f := epFmt m.dst
  let at' (first last : Int) : Nat × Nat × Nat := spanRange m.dst (first, last)
  (List.range m.total).flatMap fun e =>
    let i := m.dstIndex e
    at' (elemBit f i / 8) ((elemBit f i + fmtBits f + 7) / 8) ::
      (if fmtScaled f then [at' (scaleByte f i) (scaleByte f i + 1)] else [])
/-- The local byte ranges a command writes at its destination core: a strided copy writes its elements only (R294). -/
def State.writeRanges (s : State) (m : Cmd) : List (Nat × Nat × Nat) :=
  if m.eop == 2 && !m.toRing && epLocal m.dst then m.elemRanges else s.destRange m

/-- Every check whose breach is BUF_ACCESS; a command writes at its Till too (R294). R126 names no right for the local DSTE or ring of an EFQ: the model takes EDGE_W,
the right of what the Edge Codec writes on its own account (log 72). -/
def State.accessOk (s : State) (core : Nat) (m : Cmd) : Bool :=
  let edge := m.eop == 3
  let dst := m.eop == 6 ||
    (s.reachable m m.dst (if edge then 0 else 2) (s.destBufs m) &&
      (!epLocal m.dst || ((m.till == 0 || !s.guarded (epCore m.dst) 0 m.till 16) &&
        (s.writeRanges m).all fun r => !s.guarded (epCore m.dst) r.1 r.2.1 r.2.2)) &&
      (m.eop == 5 || !m.toRing || m.ringNos.all fun h => [1, 2, 4].contains ((s.core (epCore m.dst)).rings[h]).role))
  let src := decide (5 ≤ m.eop) || s.reachable m m.src (if m.efq then 1 else 3) [epBuf m.src]
  let pair := !m.efq ||
    (let acl := (s.core core).bufacl
     aclBit acl 0 1 && aclBit acl 0 0 && !s.guarded core 0 m.residuals.2 (4 * m.count))
  dst && src && pair

/-- A span of a local endpoint lies in its buffer (R123). -/
def spanFits (e : Nat) (sp : Int × Int) : Bool :=
  !epLocal e || (let (off, n) := spanAt e sp
    bitsN e 29 18 == 0 && decide (0 ≤ off) && decide (off.toNat + n ≤ bufSize (epBuf e)))

/-- The Till lies in the A buffer, whatever the command moves (R280). -/
def Cmd.tillFits (m : Cmd) : Bool := m.eop == 6 || decide (m.till ≤ 0x2FFF0)
/-- Every check whose breach is BUF_BOUNDS. -/
def Cmd.boundsOk (m : Cmd) : Bool :=
  m.eop == 6 || (spanFits m.dst (if m.eop != 5 && m.toRing then (0, 0) else m.dstSpan) &&
    (m.eop == 5 || spanFits m.src m.srcSpan))

/-- Whether a list of indices names one twice. -/
def hasTwice : List Int → Bool
  | [] => false
  | a :: l => l.contains a || hasTwice l

/-- The virtual range of a span of a global endpoint: first address and length. What lies below 0 counts as VA 0 (log 83). -/
def globalRange (e : Nat) (sp : Int × Int) : Nat × Nat :=
  let first := ((epBase e : Int) + sp.1).toNat
  (first, max ((epBase e : Int) + sp.2).toNat (first + 1) - first)
/-- Source and destination share a byte of their ranges (R282); the range of a strided copy is its whole span (log 85). -/
def State.overlap (s : State) (m : Cmd) : Bool :=
  if decide (5 ≤ m.eop) then false
  else if epLocal m.src && epLocal m.dst then
    epCore m.src == epCore m.dst &&
      (let src := spanRange m.src m.srcSpan
       (s.destRange m).any fun r => sameBytes src.1 src.2.1 src.2.2 r.1 r.2.1 r.2.2)
  else if epGlobal m.src && epGlobal m.dst then
    let src := globalRange m.src m.srcSpan
    let dst := globalRange m.dst m.dstSpan
    overlaps src.1 src.2 dst.1 dst.2
  else false

/-- An overlapping copy that is done as memmove (R282, R283, R328). -/
def Cmd.movable (m : Cmd) : Bool :=
  match m.eop with
  | 1 => epFmt m.src == epFmt m.dst && m.rnd == 0 && m.xform == 0 && !m.toRing
  | 2 => epFmt m.src == epFmt m.dst && m.rnd == 0 && m.xform == 0 && !m.toRing &&
      (List.range m.rank).all fun j => m.perm j == j && m.sstr j == m.dstr j
  | 4 => m.cop == 0 && m.src == m.dst
  | _ => false

/-- The ring a command writes has too few free slots for its reservation (R130, R131). -/
def State.ringShort (s : State) (m : Cmd) : Bool :=
  m.eop != 5 && m.toRing && m.ringNos.any fun h =>
    let r := (s.core (epCore m.dst)).rings[h]
    decide (r.slots - filledOf r.head r.tail - r.reserved < s.slotsOf m)

/-- The verdict of acceptance: the first check that fails, in the order of log 24. -/
def State.judgeCmd (s : State) (core : Nat) (m : Cmd) : Option CmdStatus :=
  let empty := m.total == 0 && decide (m.eop ≤ 4)
  if !s.formOk core m then some .fmtMismatch
  else if !s.accessOk core m then some .bufAccess
  else if !m.tillFits then some .bufBounds
  else if empty then none
  else if !m.boundsOk then some .bufBounds
  else if (s.overlap m && !m.movable) || (m.eop == 2 && hasTwice ((List.range m.total).map m.dstIndex)) then
    some .copyOverlap
  else if s.ringShort m then some .ringOverrun
  else none

/-! ### Translation needs (R313) -/

/-- Chunks of 256 elements that a collective's command reads of its own contribution (R285, R328). -/
def Cmd.chunks (m : Cmd) : Nat :=
  if m.eop != 4 || (m.cop == 3 && m.place != m.root) then 0 else (m.count + 255) / 256

/-- An item of a command's work in the order of its translation (R313): a chunk of a collective's own contribution, or a block
it writes. -/
inductive WorkItem
  | chunk (c : Nat)
  | block (k : Nat)
  deriving DecidableEq, Repr

/-- The chunks of its own contribution that stand at or before the last element of a block of a collective's result: element
e of the contribution stands at element e of an all-reduce and a broadcast, and at its own part of the others (R285, R328). -/
def State.chunksBefore (s : State) (m : Cmd) (k : Nat) : Nat :=
  let last := (s.blockElems m k).foldl max 0
  let own : Int := match m.cop with
    | 1 => (m.place * (m.count / m.np) + last : Nat)
    | 2 => (last : Int) - (m.place * m.count : Nat)
    | _ => last
  min m.chunks (own / 256 + 1).toNat
/-- The blocks of a command from one on, each behind the chunks that come before it (log 25). -/
def State.itemsFrom (s : State) (m : Cmd) : Nat → Nat → Nat → List WorkItem
  | 0, _, c => (List.range (m.chunks - c)).map fun i => .chunk (c + i)
  | n + 1, k, c =>
    let upto := max c (s.chunksBefore m k)
    (List.range (upto - c)).map (fun i => .chunk (c + i)) ++ .block k :: s.itemsFrom m n (k + 1) upto
/-- The items of a command's translation in their order (R313); a grammar command's reads follow its own evaluation. -/
def State.items (s : State) (m : Cmd) : List WorkItem :=
  if decide (5 ≤ m.eop) then [] else s.itemsFrom m (s.blockCount m) 0 0

/-- The virtual addresses an item of a command needs, with the right each needs: a block's source and destination bytes; of a
collective a chunk's source bytes and a block's destination bytes. An address below 0 counts as VA 0, and one from 2^52 on is
walked modulo 2^52 (log 83). -/
def State.needs (s : State) (m : Cmd) (i : WorkItem) : List (Nat × Right) :=
  let source (es : List Int) : List (Nat × Right) :=
    if epLocal m.src then []
    else es.flatMap fun i => (srcBytesOf (epFmt m.src) i).map fun d => (((epBase m.src : Int) + d).toNat, .load)
  let dest (k : Nat) : List (Nat × Right) :=
    if epLocal m.dst then [] else (s.blockPlaces m k).map fun a => (a, .store)
  match i with
  | .chunk c => source ((List.range (min 256 (m.count - 256 * c))).map fun (i : Nat) => ((256 * c + i : Nat) : Int))
  | .block k => (if m.eop == 4 then [] else source ((s.blockDeps m k).map m.srcIndex)) ++ dest k

/-- A need is covered by a page that the command has translated; an ECP leaf outside the data units maps nothing (R330). -/
def State.covers (s : State) (m : Cmd) (n : Nat × Right) : Bool := match m.page n.1 with
  | some p => n.2.allowed p.leaf && s.ecpOk p
  | none => false
/-- The item at which a command's translation stands. -/
def State.item (s : State) (m : Cmd) (step : Nat) : Option WorkItem := (s.items m)[step]?
/-- The first need of an item that no page covers. -/
def State.missing (s : State) (m : Cmd) (step : Nat) : Option (Nat × Right) :=
  (s.item m step).bind fun i => (s.needs m i).find? fun n => !s.covers m n
/-- Steps of a command's translation. -/
def State.steps (s : State) (m : Cmd) : Nat := (s.items m).length
/-- The first step from one on that the pages do not cover. -/
def State.covered (s : State) (m : Cmd) : Nat → Nat → Nat
  | 0, k => k
  | n + 1, k => if k < s.steps m && (s.missing m k).isNone then s.covered m n (k + 1) else k
/-- Move a command's translation on over the steps its pages cover. -/
def State.advanceCmd (s : State) (m : Cmd) : Cmd := { m with translated := s.covered m (s.steps m) m.translated }
/-- An item has been translated. -/
def State.reached (s : State) (m : Cmd) (i : WorkItem) : Bool := ((s.items m).take m.translated).contains i

/-! ### Acceptance -/

/-- Two commands of one core run on one engine (R277). -/
def Cmd.sameEngine (a b : Cmd) : Bool :=
  if decide (a.eop ≤ 2) && decide (b.eop ≤ 2) then a.engine == b.engine
  else a.eop == b.eop || (decide (5 ≤ a.eop) && decide (5 ≤ b.eop))

/-- A command has left its core's network interface (R278, R287): its release is fulfilled and no earlier command of the
core to the same engine is still on its way. -/
def State.mayAccept (s : State) (core : Nat) (m : Cmd) : Bool :=
  m.stage = .issued && s.releaseClear core m.pos m.scope m.reads &&
    (s.core core).cmds.all fun e => decide (m.pos ≤ e.pos) || e.stage != .issued || !e.sameEngine m

/-- More slots of a ring are reserved. -/
def Core.holdSlots (c : Core) (h : Fin 16) (n : Nat) : Core :=
  let r := c.rings[h]
  { c with rings := c.rings.set h { r with reserved := r.reserved + n } }

/-- The reservations of a command on the rings of its destination core (R131). -/
def State.reserve (s : State) (m : Cmd) : State × List Reservation :=
  if m.eop == 5 || m.eop == 6 || !m.toRing then (s, [])
  else
    let n := s.slotsOf m
    let d := epCore m.dst
    let rs := m.ringNos.map fun h => (⟨d, h.val, ((s.core d).rings[h]).nextFree, n, 0⟩ : Reservation)
    (s.modCore d fun c => m.ringNos.foldl (fun (c : Core) (h : Fin 16) => c.holdSlots h n) c, rs)

/-- The core in whose maps an engine's reads of global memory find their home (R398): one of the engine's die. -/
def Cmd.readerCore (m : Cmd) (core : Nat) : Nat := ((m.viewer core).map (· * 1024)).getD core
/-- A source byte of a memmove as it stands at a physical address (R282): not read from a home that does not answer or from
another job's frame, and bad in a granule of the error map (R161, R361 to R363). -/
def State.snapByte (s : State) (core : Nat) (m : Cmd) (pa : Nat) : Snap :=
  if !s.homeTakes (m.readerCore core) pa || s.foreign pa m.job then .unread
  else if s.errorAt pa 1 && !s.dataUnit pa then .bad
  else .byte ((s.view (m.viewer core) pa 1).headD 0)
/-- The source of a memmove as it stands at acceptance (R282): byte by byte; one that cannot be read yet is read when its page
is translated (`State.fillSnapshot`), or at the latest before a block of the command is written there
(`State.snapBefore`). -/
def State.snapshotOf (s : State) (core : Nat) (m : Cmd) : List Snap :=
  if !s.overlap m || m.eop == 4 then []
  else (List.range (m.srcSpan.2 - m.srcSpan.1).toNat).map fun (i : Nat) =>
    let a := m.snapVa i
    if epLocal m.src then .byte ((s.core (epCore m.src)).loc.read a)
    else match s.walkBarred (m.readerCore core) m.job a, s.walk m.job a with
      | none, .leaf level e =>
        let p : TlbEntry := ⟨m.job, a / 2 ^ levelShift level, levelShift level, e⟩
        if s.ecpOk p && Right.load.allowed e then s.snapByte core m (p.place a) else .unread
      | _, _ => .unread

/-- A gang of the job runs on a core, pre-emption not past its first step, which works and has not retired: its buffers and
rings are the job's (R107, R113, R115). -/
def State.holdsBuffers (s : State) (j core : Nat) : Bool := match s.holder j core with
  | some x => (x.state == .running || x.state == .preempting) && !x.retired.contains (s.rankIn x core) && (s.core core).life == .alive
  | none => false
/-- The local endpoints of a command are at hand: neither is on a core whose gang is pre-empted or gone. -/
def State.atHand (s : State) (core : Nat) (m : Cmd) : Bool :=
  (decide (5 ≤ m.eop) || !epLocal m.src || s.holdsBuffers m.job (epCore m.src)) &&
    (m.eop == 6 || !epLocal m.dst || s.holdsBuffers m.job (epCore m.dst)) &&
    (!m.efq || s.holdsBuffers m.job core)

/-- A collective use whose commands are known to disagree (R285). -/
def State.mismatched (s : State) (m : Cmd) : Bool := m.eop == 4 && (match s.job m.job with
  | some b => b.mismatched.contains (m.gid, m.use)
  | none => false)

/-- ENGINE_COMMAND_ACCEPT (R278): the command is released, which its core counts (R391), and the engine checks its record; it refuses it, completes an empty one at once, or accepts it
and reserves its slots. One of a collective use that is known to disagree stops with GROUP_MISMATCH (R285). -/
def acceptCmd (core nth : Nat) (s : State) : State :=
  match s.cmd core nth with
  | none => s
  | some m =>
    if !s.mayAccept core m then s
    else
      let s := s.modCore core fun c => c.countEvent 9 1
      let drop (s : State) : State := s.modCore core fun c => { c with cmds := c.cmds.filter fun k => k.pos != m.pos }
      match s.judgeCmd core m with
      | some st => (drop s).postEnd core m st.code 0
      | none =>
        if m.total == 0 && decide (m.eop ≤ 4) then (drop s).postEnd core m 0 0
        else
          let snap := s.snapshotOf core m
          let (stamp, s) := s.newStamp
          let (s, resv) := s.reserve m
          let m' := { m with
            stage := .accepted
            accepted := stamp
            snapshot := snap
            resv := resv
            stop := if s.mismatched m then some CmdStatus.groupMismatch.code else none }
          s.modCmd core m.pos fun _ => s.advanceCmd m'

/-- ENGINE_COMMAND_ACCEPT (R278). -/
def execEngineCommandAccept (core : Nat) (nth : Nat) (s : State) : Host.Outcome State Fault Refusal :=
  onRealCore core (acceptCmd core nth) s

end Sys2Proof.Machine
end

