-- ==== Sys2Proof/Machine/EngineBlocks.lean ====
section
/-! DEFINITION. Blocks of engine commands on their way (R131, R135, R136, R281, R285, R298, R312 to R329, R363, R398):
conversion, sending, arrival, rings, Tills, collectives and completion. -/

namespace Sys2Proof.Machine

/-! ### CRC-32C (R314) -/

/-- One bit of the reflected Castagnoli division. -/
def crcBits : Nat → BitVec 32 → BitVec 32
  | 0, c => c
  | n + 1, c => crcBits n (if c.getLsbD 0 then (c >>> 1) ^^^ 0x82F63B78#32 else c >>> 1)
/-- CRC-32C of bytes with the parameters of RFC 3720. -/
def crc32c (bytes : List Byte) : BitVec 32 :=
  ~~~ (bytes.foldl (fun c b => crcBits 8 (c ^^^ b.setWidth 32)) (0xFFFFFFFF#32))
/-- The CRC a block travels with (R314). -/
def blockCrc (id num : Nat) (bytes : List Byte) : BitVec 32 := crc32c (natToBytes 8 id ++ natToBytes 4 num ++ bytes)

/-! ### Source errors (R315, R363) -/

/-- A source of a command that gives no bytes for now: its MD is DOWN, its unit is not rebuilt, or its frame is another job's
(R161, R361, R362). -/
inductive Held
  | waits (pa : Nat)
  | foreign
  deriving DecidableEq, Repr

/-- The physical granules a command is still to read for source elements, each with whether the snapshot of a memmove found an
error in it; what the snapshot holds is read no more (R282). -/
def Cmd.sourceGranules (m : Cmd) (es : List Int) : List (Nat × Bool) :=
  if epLocal m.src then []
  else ((es.flatMap (srcBytesOf (epFmt m.src))).filterMap fun d =>
    let va := ((epBase m.src : Int) + d).toNat
    let at' (bad : Bool) : Option (Nat × Bool) := (m.page va).bind fun p =>
      if !bad && (m.fetchedByte (p.place va)).isSome then none else some (granule (p.place va), bad)
    match m.snapAt d with
    | some (.byte _) => none
    | some .bad => at' true
    | _ => at' false).eraseDups

/-- An uncorrectable error makes a granule of a command's source unreadable: not one that erasure coding rebuilds. `ecc` is what
the check of the stored bits finds. -/
def State.unreadable (s : State) (p : Nat × Bool) (ecc : Bool) : Bool :=
  p.2 || (!s.dataUnit (p.1 * 64) && (ecc || s.iod.errMap.contains p.1))

/-- What keeps a command's read of a source granule back, if anything. -/
def State.heldGranule (s : State) (core : Nat) (m : Cmd) (p : Nat × Bool) : Option Held :=
  let pa := p.1 * 64
  if p.2 then none
  else if !s.homeTakes (m.readerCore core) pa then some (.waits pa)
  else if s.foreign pa m.job then some .foreign
  else none
/-- Such a read goes unanswered: a lost unit takes its place in the order of rebuilding, a foreign frame's MD logs it. -/
def State.unanswered (s : State) (core : Nat) (m : Cmd) (h : Held) : State :=
  match h with
  | .waits pa => s.wantUnit pa
  | .foreign => s.logSp (.discarded core m.seq)

/-- Which of `n` requests of an engine is served next: a free value where there are several (R153, log 92). -/
def State.pick (s : State) (n : Nat) : Nat × State :=
  if n ≤ 1 then (0, s) else (Config.nextRequest s.fresh % n, { s with fresh := s.fresh + 1 })

/-- A command has stopped for a translation or protection fault, or not at all: its earlier blocks are still sent (R313). -/
def Cmd.goesOn (m : Cmd) : Bool := match m.stop with
  | none => true
  | some st => st == CmdStatus.xlateFault.code || st == CmdStatus.protFault.code
/-- A command stops (R315). An error of a block that a stop for a fault left to be sent stops it in its turn, with the error's
status (log 86). -/
def State.stopCmd (s : State) (core pos : Nat) (st : CmdStatus) : State :=
  s.modCmd core pos fun m =>
    if m.stop.isNone || (m.goesOn && (st == .crcLimit || st == .eccUncorr)) then { m with stop := some st.code } else m

/-- A source read of a command meets an uncorrectable error (R315, R363): the command stops, and where the check has just
found it the home records the granule. -/
def State.sourceError (s : State) (core : Nat) (m : Cmd) (g : Nat) (ecc : Bool) : State :=
  (if ecc then s.noteError (g * 64) else s).stopCmd core m.pos .eccUncorr
/-- The state after one of the source granules a command needs for its next block or chunk is read, each by a request of its own
(R153); none where at most one is left, which is read as the block is made. Requests that go unanswered are noted. -/
def State.readSource (s : State) (core : Nat) (m : Cmd) (es : List Int) (ecc : Bool) : Option State :=
  let gs := m.sourceGranules es
  let s' := gs.foldl (fun s p => match s.heldGranule core m p with
    | some h => s.unanswered core m h
    | none => s) s
  let ready := gs.filter fun p => (s.heldGranule core m p).isNone
  let (i, s') := s'.pick ready.length
  match ready[i]? with
  | none => if gs.isEmpty then none else some s'
  | some p =>
    if s.unreadable p ecc then some (s'.sourceError core m p.1 ecc)
    else if gs.length == 1 then none
    else some (s'.modCmd core m.pos fun k => { k with
      fetched := k.fetched.put p.1 (s.view (m.viewer core) (p.1 * 64) 64) })

/-! ### Collectives (R285, R327 to R329) -/

/-- The commands of one use that the engines hold, with their cores (R285). -/
def State.useCmds (s : State) (job gid use : Nat) : List (Nat × Cmd) :=
  s.cores.flatMap fun (n, c) => (c.cmds.filter fun m =>
    m.eop == 4 && m.job == job && m.gid == gid && m.use == use && m.stage != .issued && m.stage != .cancelled).map
      fun m => (n, m)
/-- Two commands of one use agree and name distinct positions (R285). -/
def Cmd.agrees (a b : Cmd) : Bool :=
  a.count == b.count && a.cop == b.cop && a.rop == b.rop && a.np == b.np && a.efq == b.efq &&
    (a.cop != 3 || a.root == b.root) && a.place != b.place
/-- Every pair of a list agrees. -/
def allAgree : List Cmd → Bool
  | [] => true
  | a :: l => l.all a.agrees && allAgree l
/-- The command of a use that holds a position. -/
def atPlace (l : List (Nat × Cmd)) (p : Nat) : Option Cmd := (l.find? fun x => x.2.place == p).map (·.2)
/-- A use holds one command for each position, and all agree (R285). -/
def useFull (l : List (Nat × Cmd)) : Bool := match l with
  | [] => false
  | x :: _ => l.length == x.2.np && allAgree (l.map (·.2))

/-- The format in which a contribution travels: with error feedback the destination's (R329), else the source's. -/
def Cmd.contribFmt (m : Cmd) : Nat := if m.efq then epFmt m.dst else epFmt m.src
/-- An element of a contribution that has been read: code and scale. -/
def Cmd.contributed (m : Cmd) (e : Nat) : Option (Nat × Nat) := (m.contrib.find (e / 256)).bind fun l => l[e % 256]?

/-- The reduction types (R327). -/
inductive RedType
  | float
  | int
  | nat
  deriving DecidableEq, Repr
/-- The reduction type of a format (R327). -/
def redType (f : Nat) : RedType :=
  if f ≤ 18 then .float else if f == 20 || f == 22 || f == 34 || f == 36 then .nat else .int
/-- A contribution in its reduction type, as 32 bits (R327). -/
def reduceCode (t : DecodeTable) (f : Nat) (c : Nat × Nat) : Nat :=
  match redType f with
  | .float => (rneF32 (codeVal t f c)).1
  | _ => match codeVal t f c with
    | .fin s n _ => intCode 32 (if s then -(n : Int) else (n : Int))
    | _ => 0
/-- The combine of ROP on two codes (R64, R285). -/
def combine (t : RedType) (rop a b : Nat) : Nat :=
  match t, rop with
  | .float, 0 => (rneF32 ((fp32.decode a).add (fp32.decode b))).1
  | .float, 1 => floatPick fp32 true a b
  | .float, _ => floatPick fp32 false a b
  | _, 0 => (a + b) % 2 ^ 32
  | .nat, 1 => max a b
  | .nat, _ => min a b
  | .int, 1 => intCode 32 (max (sintN 32 a) (sintN 32 b))
  | .int, _ => intCode 32 (min (sintN 32 a) (sintN 32 b))
/-- A reduced code as a value. -/
def RedType.value (t : RedType) (c : Nat) : Val :=
  match t with
  | .float => fp32.decode c
  | .int => .ofInt (sintN 32 c)
  | .nat => .ofInt (c : Int)

/-- A reduced element (R63, R327, R328): none while a contribution to it is missing. Contributions of different types
leave the result open (log 30). -/
def reduced (l : List (Nat × Cmd)) (np rop e : Nat) : Option Val := do
  let terms ← (List.range np).mapM fun p => do
    let k ← atPlace l p
    return (k.contribFmt, reduceCode k.table k.contribFmt (← k.contributed e))
  let t := redType ((terms.head?.map (·.1)).getD 1)
  if terms.all fun x => redType x.1 == t then (treeReduce (combine t rop) 17 (terms.map (·.2))).map t.value
  else return fp32.decode (Config.mixedReduce rop terms).toNat

/-- A destination element of a collective (R285, R317, R327). -/
def collElem (l : List (Nat × Cmd)) (m : Cmd) (e : Nat) : Option Elem :=
  let copied (k : Cmd) (i : Nat) : Option Elem := (k.contributed i).map fun c =>
    if k.contribFmt == epFmt m.dst then .raw c.1 c.2 else .val (codeVal k.table k.contribFmt c)
  match m.cop with
  | 0 => (reduced l m.np m.rop e).map .val
  | 1 => (reduced l m.np m.rop (m.place * (m.count / m.np) + e)).map .val
  | 2 => (atPlace l (e / m.count)).bind fun k => copied k (e % m.count)
  | _ => (atPlace l m.root).bind fun k => copied k e

/-- Read the next chunk of a command's contribution (R313, R328, R329). -/
def State.readChunk (s : State) (core : Nat) (m : Cmd) (ecc : Bool) : State :=
  let c := m.contrib.length
  let es := (List.range (min 256 (m.count - 256 * c))).map fun i => 256 * c + i
  match s.readSource core m (es.map fun (i : Nat) => (i : Int)) ecc with
  | some s' => s'
  | none =>
  if m.efq then
    let js := (List.range ((es.length + 31) / 32)).map fun i => 8 * c + i
    let rs := js.map fun j => (j, s.efqBlock core m j)
    let chunk := rs.flatMap fun (_, sc, codes, _) => codes.map fun x => (x, sc)
    let s := rs.foldl (fun s (j, r) => s.efqStore core m.pos j r m) s
    s.modCmd core m.pos fun k => { k with contrib := k.contrib.put c chunk }
  else match es.mapM fun (i : Nat) => s.srcCode core m (i : Int) with
    | none => s
    | some chunk => s.modCmd core m.pos fun k => { k with
      contrib := k.contrib.put c chunk
      fetched := [] }

/-! ### Sending (R312, R313, R316, R322) -/

/-- The bytes of a block and the state after it is read: an EFQ writes its residuals before it sends (R323), and a scale block
is quantised once (R316). -/
def State.blockBytes (s : State) (core : Nat) (m : Cmd) (k : Nat) : Option (List Byte × State) :=
  match m.eop with
  | 3 =>
    let js := (s.blockParts m k).filter fun j => (m.coded.find j).isNone
    let rs := js.map fun j => (j, s.efqBlock core m j)
    let new := rs.map fun r => (r.1, r.2.1, r.2.2.1)
    let block (j : Nat) : Nat × List Nat := ((m.coded.find j).orElse fun _ => (new.find? fun r => r.1 == j).map (·.2)).getD (0, [])
    let bytes := s.packBlock m k (fun e => (block (e / 32)).2.getD (e % 32) 0) fun q => (block q).1
    let s' := rs.foldl (fun s (j, r) => s.efqStore core m.pos j r m) s
    some (bytes, s'.modCmd core m.pos fun c => c.keepCoded new)
  | 4 =>
    let l := s.useCmds m.job m.gid m.use
    if !useFull l || s.mismatched m then none
    else (s.encodeElems core m k (collElem l m)).map fun b => (b, s)
  | 5 => some ((m.stream.drop (256 * k)).take 256, s)
  | _ => (s.encodeElems core m k (s.copyElem core m)).map fun b =>
    (b, s.modCmd core m.pos fun c => c.keepCoded ((s.codeBlocks core m k (s.copyElem core m)).getD []))

/-- Blocks sent and not yet verified (R313). -/
def Cmd.unverified (m : Cmd) : Nat := (m.blocks.filter fun b => !b.verified).length
/-- Whether a command may still send: it has not stopped, or the stop is a fault on a later block (R313, R315). -/
def Cmd.maySend (m : Cmd) : Bool := m.stage = .accepted && m.goesOn
/-- The elements whose source bytes a block is still to be made from: not those of a scale block already converted (R316). -/
def State.sendDeps (s : State) (m : Cmd) (k : Nat) : List Nat :=
  (s.blockDeps m k).filter fun e => !m.toRing || (m.coded.find (e / fmtBlock (epFmt m.dst))).isNone

/-- ENGINE_BLOCK_SEND (R153, R313, R316): a collective's command reads the next chunk of its contribution, or a command sends
its next block; where that takes several source granules of global memory, each is read by an event of its own before. -/
def sendBlock (core nth : Nat) (ecc : Bool) (s : State) : State :=
  match s.cmd core nth with
  | none => s
  | some m =>
    let k := m.blocks.length
    if !m.maySend || !s.atHand core m then s
    else if m.contrib.length < m.chunks && s.reached m (.chunk m.contrib.length) then s.readChunk core m ecc
    else if s.blockCount m ≤ k || 16 ≤ m.unverified || (if m.eop == 5 then !m.executed else !s.reached m (.block k)) then s
    else
      let es := if decide (3 ≤ m.eop) then [] else (s.sendDeps m k).map m.srcIndex
      match s.readSource core m es ecc with
      | some s' => s'
      | none => match s.blockBytes core m k with
        | none => s
        | some (bytes, s') => s'.modCmd core m.pos fun c => { c with
            blocks := c.blocks ++ [⟨k, bytes, 0, false, false, false, []⟩]
            fetched := [] }

/-! ### Receive-side transforms (R320, R321) -/

/-- FP32 code of an element of a block from bytes of its stream. -/
def streamWord (bytes : List Byte) (i : Nat) : Nat := bytesToNat ((bytes.drop (4 * i)).take 4)

/-- The travelling bytes of the block that carries an element: those at hand for block `k`, else those stored. -/
def Cmd.travelling (m : Cmd) (k : Nat) (bytes : List Byte) (blk : Nat) : Option (List Byte) :=
  if blk == k then some bytes else (m.blocks.find? fun b => b.num == blk).map (·.bytes)

/-- The values a block's FP32 elements take under the command's transform: none while a part of a group is not sent. -/
def State.transformed (s : State) (m : Cmd) (k : Nat) (bytes : List Byte) : Option (List Byte) :=
  if m.xform == 0 then some bytes
  else
    let win := s.core (epCore m.dst)
    if m.xform == 5 then
      let f := fp32.decode ((win.cwN 221).toNat % 2 ^ 32)
      some ((List.range (bytes.length / 4)).flatMap fun i =>
        natToBytes 4 (rneF32 ((fp32.decode (streamWord bytes i)).mul f)).1)
    else
      let g := if m.xform == 1 || m.xform == 3 then 16 else 32
      let per := if m.toRing then (s.destRing m).part / 4 else 64
      let one (e : Nat) : Option Nat := (m.travelling k bytes (e / per)).map fun b => streamWord b (e % per)
      (List.range (bytes.length / 4)).mapM (fun i => do
        let e := k * per + i
        let xs ← (List.range g).mapM fun t => one (e / g * g + t)
        let ys := (hadamard (decide (3 ≤ m.xform)) (win.cwN 222).toNat ((win.cwN 223).toNat + e / g) xs).1
        return natToBytes 4 (ys.getD (e % g) 0)) |>.map List.flatten

/-! ### Rings (R131, R315) -/

/-- The data-ring reservation of a command on a ring of a core. -/
def Cmd.resvOn (m : Cmd) (core ring : Nat) : Option Reservation := (m.resv.head?).bind fun r =>
  if r.core == core && r.ring == ring then some r else none
/-- Every block of a slot of a command is verified. -/
def State.slotVerified (s : State) (m : Cmd) (slot : Nat) : Bool :=
  let r := s.destRing m
  (List.range (s.blockCount m)).all fun k =>
    k * r.part / r.slotBytes != slot || m.blocks.any fun b => b.num == k && b.verified

/-- Put a command where it stands in the order of acceptance. -/
def inAccepted (x : Nat × Cmd) : List (Nat × Cmd) → List (Nat × Cmd)
  | [] => [x]
  | y :: l => if x.2.accepted ≤ y.2.accepted then x :: y :: l else y :: inAccepted x l
/-- The commands that hold unsettled slots of a ring, with their cores, in the order of their acceptance, which is that of
their slots (R131, log 64). -/
def State.holders (s : State) (core ring : Nat) : List (Nat × Cmd) :=
  (s.cores.flatMap fun (n, c) => (c.cmds.filter fun m => match m.resvOn core ring with
    | some r => decide (r.settled < r.count)
    | none => false).map fun m => (n, m)).foldr inAccepted []

/-- Move the counters of a core's rings for `n` slots: pushed, or returned to the free count. -/
def Core.settleSlots (c : Core) (rings : List Nat) (n : Nat) (push : Bool) : Core :=
  rings.foldl (fun (c : Core) h =>
    let i : Fin 16 := Fin.ofNat 16 h
    let r := c.rings[i]
    { c with rings := c.rings.set i { r with
        tail := if push then (r.tail + n) % 512 else r.tail
        reserved := r.reserved - n } }) c
/-- A command has settled `n` more slots. -/
def Cmd.settle (m : Cmd) (n : Nat) : Cmd := { m with resv := m.resv.map fun r => { r with settled := r.settled + n } }

/-- The next slot of the command that stands first in a ring's order may be pushed: it is verified and the command not
cancelled; or the command has ended, or is cancelled, while a later one holds slots (R131, R315, R347). -/
def State.pushable (s : State) (m : Cmd) (later : List (Nat × Cmd)) : Bool :=
  let slot := (m.resv.head?.map (·.settled)).getD 0
  (s.slotVerified m slot && m.stage != .cancelled) || (m.isEnded && later.any fun x => x.2.stage != .cancelled)

/-- Push the slots of a ring that stand next in order and may be pushed, at most `n` of them. -/
def State.pushReady (s : State) (core ring : Nat) : Nat → State
  | 0 => s
  | n + 1 => match s.holders core ring with
    | [] => s
    | (owner, m) :: later =>
      if s.pushable m later then
        let s := s.modCore core fun c => c.settleSlots (m.resv.map (·.ring)) 1 true
        (s.modCmd owner m.pos fun k => k.settle 1).pushReady core ring n
      else s

/-- The slots of an ended command beyond which no later command holds any, that return to the free count (R315): all that it
did not push, but for the verified ones at the front, which are pushed in their turn; of a cancelled command all (R347). -/
def State.returned (s : State) (m : Cmd) : Nat := match m.resv.head? with
  | none => 0
  | some v =>
    let ready := if m.stage == .cancelled then 0 else
      ((List.range (v.count - v.settled)).takeWhile fun i => s.slotVerified m (v.settled + i)).length
    v.count - v.settled - ready

/-- Return the slots of ended commands that stand last on a ring, at most `n` commands. -/
def State.releaseLast (s : State) (core ring : Nat) : Nat → State
  | 0 => s
  | n + 1 => match (s.holders core ring).getLast? with
    | none => s
    | some (owner, m) =>
      let left := s.returned m
      if !m.isEnded || left == 0 then s
      else
        let s := s.modCore core fun c => c.settleSlots (m.resv.map (·.ring)) left false
        (s.modCmd owner m.pos fun k => { k with
          resv := k.resv.map fun r => { r with count := r.count - left } }).releaseLast core ring n

/-- A command no longer holds anything: ended, its slots settled, and, for a collective, no other command of its use left to
finish (R285). -/
def State.spent (s : State) (m : Cmd) : Bool :=
  m.isEnded && (m.resv.all fun r => decide (r.count ≤ r.settled)) &&
    (m.eop != 4 || (s.useCmds m.job m.gid m.use).all fun x => x.2.isEnded)

/-- Forget the commands that hold nothing any longer. -/
def State.purge (s : State) : State :=
  { s with cores := s.cores.map fun (n, c) => (n, { c with cmds := c.cmds.filter fun m => !s.spent m }) }

/-- Settle a ring after a block, an end or a cancellation (R131, R315). -/
def State.settleRing (s : State) (core ring : Nat) : State :=
  (s.releaseLast core ring 512).pushReady core ring 512
/-- Settle the ring a command writes. -/
def State.settleFor (s : State) (m : Cmd) : State := match m.resv.head? with
  | some v => s.settleRing v.core v.ring
  | none => s

/-! ### Arrival (R135, R136, R281, R314) -/

/-- Count a verified block at its Till (R135). -/
def State.tillCount (s : State) (dest off n quoted job : Nat) : State :=
  let loc := (s.core dest).loc
  let key := locKey 0 off
  let count := loc.readNat (key + 4) 4
  if 2 ^ 32 ≤ count + n then s.statusTo dest job 4 quoted 0 []
  else
    let high := loc.readNat (key + 12) 4
    s.tillAdvance dest off (bitsN high 31 31) (bitsN high 19 16) (bitsN high 15 0) (loc.readNat key 4) (count + n)
      (loc.readNat (key + 8) 4)

/-- Write a block's bytes to a core's local memory as they arrive. -/
def State.writeLocalBlock (s : State) (core : Nat) (ws : List ByteWrite) : State :=
  s.modCore core fun c => { c with loc := ws.foldl (fun l w => l.write w.addr (w.on (l.read w.addr))) c.loc }

/-- Join writes of physical bytes into one request per granule (R153, R281, R314), from the first byte it writes to the last;
writes of parts of one byte come together (R39). -/
def joinRuns (ps : List (Nat × ByteWrite × Word)) : List GranuleWrite :=
  ((ps.map fun p => granule p.1).eraseDups).map fun g =>
    let own := ps.filter fun p => granule p.1 == g
    let lo := own.foldl (fun a p => min a p.1) (64 * g + 63)
    let hi := own.foldl (fun a p => max a p.1) lo
    let places := List.range (hi + 1 - lo)
    let at' (i : Nat) (f : ByteWrite → ByteWrite) (b : Byte) : Byte :=
      (own.filter fun p => p.1 == lo + i).foldl (fun b p => (f p.2.1).on b) b
    ⟨lo, places.map fun i => at' i id 0, places.map fun i => at' i (fun w => { w with val := 0 }) 255,
      (own.head?.map (·.2.2)).getD 0⟩

/-- One write request of an engine at its home (R281, R314, R332): a `.gack` store or a write of a replicated page waits for
the Crier; any other is in force at once. A frame of another job takes nothing (R161); what becomes of the command then is the
model's choice: its block counts as verified (log 87). -/
def State.engineWrite (s : State) (core : Nat) (m : Cmd) (gack : Bool) (run : GranuleWrite) : State :=
  let ⟨pa, data, keep, leaf⟩ := run
  if s.foreign pa m.job then s.logSp (.discarded core m.seq)
  else
    let (stamp, s) := s.newStamp
    let a : Author := ⟨m.job, core, m.pos, m.seq, true⟩
    let s := s.modCmd core m.pos fun k => { k with globals := k.globals ++ [stamp] }
    if gack || wbit leaf 63 then
      let u : Update := ⟨stamp, a, pa, data, keep, gack, wbit leaf 63, none, false, s.dataUnit pa⟩
      { s with net := { s.net with updates := s.net.updates ++ [u] } }
    else
      let old := s.mem.readList pa data.length
      let bytes := keptOver keep data old
      let s := State.keepErrors keep s (s.applyFwd stamp m.job a.orderer m.pos none pa bytes none)
      if s.dataUnit pa then s.sendDelta stamp a pa old bytes else s

/-- The physical bytes a global block writes, each with its leaf: none where a page is missing. -/
def Cmd.globalBytes (m : Cmd) (ws : List ByteWrite) : Option (List (Nat × ByteWrite × Word)) :=
  ws.mapM fun w => (m.page w.addr).map fun p => (p.place w.addr, w, p.leaf)
/-- Before a memmove overwrites source bytes that it has not read yet, it reads them (R282). -/
def State.snapBefore (s : State) (core : Nat) (m : Cmd) (run : GranuleWrite) : Cmd :=
  { m with snapshot := m.snapshot.mapIdx fun i b =>
      if b != .unread then b
      else match m.phys (m.snapVa i) with
        | some pa => if decide (run.pa ≤ pa) && decide (pa < run.pa + run.bytes.length) then s.snapByte core m pa else b
        | none => b }

/-- Change a block of a command. -/
def State.modBlock (s : State) (core pos num : Nat) (f : Block → Block) : State :=
  s.modCmd core pos fun m => { m with blocks := m.blocks.map fun b => if b.num == num then f b else b }

/-- A block's copy has failed its CRC (R314): the writer asks again; the third failure ends the command. -/
def State.blockFailed (s : State) (core : Nat) (m : Cmd) (b : Block) : State :=
  let s := s.modBlock core m.pos b.num fun b => { b with failed := b.failed + 1, waiting := true }
  if 2 ≤ b.failed then s.stopCmd core m.pos .crcLimit else s

/-- A block is verified (R135, R281, R314): counted with the command, at its Till, and its ring moves on. -/
def State.blockVerified (s : State) (core : Nat) (m : Cmd) (b : Block) : State :=
  let s := s.modBlock core m.pos b.num fun b => { b with verified := true, waiting := false }
  let s := s.modCmd core m.pos fun k => { k with bytesDone := k.bytesDone + b.bytes.length }
  let s := if m.till == 0 then s else s.tillCount (epCore m.dst) m.till b.bytes.length (m.id core) m.job
  (s.settleFor m).purge

/-- The gang that holds a local destination is pre-empted: from the first step on a block and its advance of a Till wait in the
Barrow (R113, R115). -/
def State.savedDest (s : State) (m : Cmd) : Option Gang := match s.holder m.job (epCore m.dst) with
  | some x => if x.state == .preempting || x.state == .saving || x.state == .saved then some x else none
  | none => none

/-- A copy of a block reaches its writer at a local destination that is at hand (R135, R136, R314). Its bytes stand in the buffer
and a good one counts in the same step: a partly landed block is never seen (DESIGN CHOICE, log 100). -/
def State.landBlock (s : State) (core : Nat) (m : Cmd) (b : Block) (bytes : List Byte) (good : Bool) : State :=
  if !s.atHand core m then s
  else match s.transformed m b.num bytes with
    | none => s
    | some out =>
      let s := s.writeLocalBlock (epCore m.dst) (s.blockWrites m b.num out)
      if good then s.blockVerified core m b else s.blockFailed core m b

/-- A home takes a request of an engine now. -/
def State.takesWrite (s : State) (core : Nat) (r : GranuleWrite) : Bool :=
  s.homeTakes core r.pa && s.net.admits none r.pa r.bytes.length
/-- One request of a verified block is applied at its home (R153, R314, R362); with the last the block is counted. A lost unit
that one of them is for takes its place in the order of rebuilding. -/
def State.landGranule (s : State) (core : Nat) (m : Cmd) (b : Block) : State :=
  let s := b.requests.foldl (fun s r => s.wantUnit r.pa) s
  let ready := b.requests.filter (s.takesWrite core)
  let (i, s) := s.pick ready.length
  match ready[i]? with
  | none => if b.requests.isEmpty then s.blockVerified core m b else s
  | some r =>
    let s := (s.modCmd core m.pos fun k => s.snapBefore core k r).engineWrite core m m.gack r
    let rest := b.requests.erase r
    let s := s.modBlock core m.pos b.num fun b => { b with requests := rest }
    if rest.isEmpty then s.blockVerified core m b else s

/-- ENGINE_BLOCK_ARRIVAL (R314): the copy of a block reaches its writer, as sent or with the bytes `got`. One for a gang that
has been pre-empted waits: in the Barrow where it advances a Till (R115), else at its engine (log 29). A good block for global
memory is applied granule by granule, each by an event of its own (R153). -/
def arriveBlock (core nth blk : Nat) (got : Option (List Byte)) (s : State) : State :=
  match s.cmd core nth with
  | none => s
  | some m => match m.blocks.find? fun b => b.num == blk with
    | none => s
    | some b =>
      let bytes := got.getD b.bytes
      if b.verified || b.waiting || b.held || m.stage != .accepted || bytes.length != b.bytes.length then s
      else if !b.requests.isEmpty then s.landGranule core m b
      else
        let good := blockCrc (m.id core) blk bytes == blockCrc (m.id core) blk b.bytes
        if epLocal m.dst then
          match s.savedDest m with
          | some x => if good && m.till != 0 then
              (s.spillRec x (.block (epCore m.dst) core m.pos blk bytes) false).modBlock core m.pos blk fun b =>
                { b with held := true }
            else s.landBlock core m b bytes good
          | none => s.landBlock core m b bytes good
        else if !good then s.blockFailed core m b
        else match m.globalBytes (s.blockWrites m blk bytes) with
          | none => s
          | some ps =>
            let b' : Block := { b with requests := joinRuns ps }
            (s.modBlock core m.pos blk fun _ => b').landGranule core m b'

/-- Replay the oldest Barrow record of a core (R86, R87, R115): what it posts enters ahead of the later records of the core,
which stand aside meanwhile and still count for the writer check and for the Barrow's size (R86, R88). -/
def State.replayRecord (s : State) (x : Gang) (core : Nat) (f : State → State) : State :=
  let later := (x.barrow.filter fun r => r.dest == core).drop 1
  let s := f (s.modGang x.job x.g fun y => { y with
    barrow := y.barrow.filter fun r => r.dest != core
    aside := later })
  s.modGang x.job x.g fun y => { y with
    barrow := y.barrow ++ later
    aside := [] }
/-- A verified block that waited in the Barrow is written and counted (R115); one whose command is gone is dropped. -/
def State.replayBlock (s : State) (x : Gang) (dest core pos num : Nat) (bytes : List Byte) : State :=
  match (s.core core).cmds.find? fun m => m.pos == pos && m.stage == .accepted with
  | none => s.replayRecord x dest id
  | some m => match m.blocks.find? fun b => b.num == num && b.held, s.transformed m num bytes with
    | none, _ => s.replayRecord x dest id
    | some _, none => s
    | some b, some data => s.replayRecord x dest fun s =>
      ((s.writeLocalBlock dest (s.blockWrites m num data)).modBlock core pos num fun b => { b with held := false }).blockVerified
        core m b

/-- BARROW_REFILL (R86, R87, R114, R115): the oldest Barrow record of a core moves in: a message enters its run queue where a
slot is free, a DEC is applied, a block is written and counted. -/
def refill (core : Nat) (s : State) : State :=
  if !s.canRefill core then s
  else match s.oldestRecord core with
    | none => s
    | some (x, .msg m) => s.replayRecord x core fun s => if m.kind == 3 then s.applyDec m else s.enqueue m
    | some (x, .block dest owner pos num bytes) => s.replayBlock x dest owner pos num bytes

/-- BLOCK_RESEND (R314): the sender sends the stored block again. -/
def resendBlock (core nth blk : Nat) (s : State) : State :=
  match s.cmd core nth with
  | none => s
  | some m => s.modBlock core m.pos blk fun b => if b.waiting && decide (b.failed < 3) then { b with waiting := false } else b

/-! ### Completion (R278, R281, R315, R324, R351) -/

/-- Every write a command made to global memory is in force for its completion: applied at homes and replicas, exposed where
it is `.gack`, its parity updated, and seen by the issuing die, which the completion's acquire covers (R281, R332). -/
def State.writesInForce (s : State) (core : Nat) (m : Cmd) : Bool :=
  (m.globals.all fun k => (s.net.updates.all fun u => u.stamp != k) &&
    s.net.lags.all fun l => l.stamp != k || !l.unseen.contains (dieOf core)) &&
  s.net.parity.all fun d => !(d.author.engine && d.author.core == core && d.author.pos == m.pos)

/-- Every block a command sends has been sent and resolved (R313, R315). -/
def State.resolved (s : State) (m : Cmd) : Bool :=
  let all := m.blocks.all fun b => b.verified || decide (3 ≤ b.failed)
  match m.stop with
  | none =>
    (if m.eop == 6 then m.executed
     else if m.eop != 5 && m.toRing then m.resv.all fun r => r.settled == r.count
     else m.blocks.length == s.blockCount m && (m.eop != 5 || m.executed)) && all
  | some _ => all && (!m.maySend || ((s.items m).take m.translated).all fun i => match i with
      | .chunk c => decide (c < m.contrib.length)
      | .block k => decide (k < m.blocks.length))

/-- Charge a detected error that ended a command (R351): to the innermost instance on the issuing task's stack at issue if it
has not ended; else to the issuing task where it still runs, between bundles (R348, R367); else to its gang. -/
def State.chargeCmd (s : State) (core : Nat) (m : Cmd) : State :=
  match s.openInst m.marks with
  | some i => s.chargeInst i.job i.gang i.dom i.inst 5
  | none =>
    if (s.core core).running m.serial then
      let l : Late := ⟨⟨TrapCode.eccUncorr.code, 6, 7, 0, 0, 0⟩, m.seq, m.serial, m.chan, m.msgId, m.fpc, m.marks, false, none⟩
      s.modCore core fun c => { c with late := c.late ++ [l] }
    else s.chargeGang m.job m.gang

/-- A command ends: its outcome is posted, a detected error charged, its slots released (R281, R315, R324, R351). -/
def State.endCmd (s : State) (core : Nat) (m : Cmd) (status : Nat) : State :=
  let detail := if m.eop == 6 then (if status == 0 then m.outcome else 0) else m.bytesDone
  let s := (s.postNans core m).postEnd core m status detail
  let s := s.modCmd core m.pos fun k => { k with stage := .ended status }
  let s := s.modCore core fun c => { c with readFrom := c.readFrom ++ m.globals }
  let s := (s.settleFor m).purge
  if status == CmdStatus.crcLimit.code || status == CmdStatus.eccUncorr.code then s.chargeCmd core m
  else s

/-- ENGINE_COMMAND_COMPLETE (R281). -/
def completeCmd (core nth : Nat) (s : State) : State :=
  match s.cmd core nth with
  | none => s
  | some m =>
    if m.stage != .accepted || (!m.resv.isEmpty && !s.atHand core m) || !s.resolved m || !s.writesInForce core m then s
    else s.endCmd core m (m.stop.getD 0)

/-- Cancel commands (R347, R354): each sends nothing more, posts nothing, and no fault of it is outstanding. -/
def State.cancel (s : State) (p : Nat → Cmd → Bool) : State :=
  let gone := s.cores.flatMap fun (n, c) => (c.cmds.filter fun m => p n m && !m.isEnded).filterMap (·.token)
  { s with
    cores := s.cores.map fun (n, c) => (n, { c with
      cmds := c.cmds.map fun m => if p n m && !m.isEnded then { m with stage := .cancelled, token := none } else m })
    iod := { s.iod with tokens := s.iod.tokens.filter fun t => !gone.contains t.token } }

/-- A cancelled command holds nothing any longer: its slots are settled, or no gang of its job holds their core. -/
def State.reaped (s : State) (m : Cmd) : Bool :=
  m.stage == .cancelled && ((m.resv.all fun r => decide (r.count ≤ r.settled)) || (s.holder m.job (epCore m.dst)).isNone)
/-- Release the slots of cancelled commands and forget them; slots of a pre-empted gang's ring wait for its core (R347, R354). -/
def State.reap (s : State) : State :=
  let l := s.cores.flatMap fun (n, c) => (c.cmds.filter fun m => m.stage == .cancelled).map fun m => (n, m)
  if l.isEmpty then s
  else
    let tokens := l.filterMap (·.2.token)
    let s := { s with iod := { s.iod with tokens := s.iod.tokens.filter fun t => !tokens.contains t.token } }
    let s := l.foldl (fun s x => if s.holdsBuffers x.2.job (epCore x.2.dst) then s.settleFor x.2 else s) s
    { s with cores := s.cores.map fun (n, c) => (n, { c with cmds := c.cmds.filter fun m => !s.reaped m }) }

/-- COLL_MATCH (R285): the engines hold two commands of a use that disagree, or the use is known to disagree: every command of
it completes with GROUP_MISMATCH. -/
def matchColl (job gid use : Nat) (s : State) : State :=
  let l := (s.useCmds job gid use).filter fun x => !x.2.isEnded
  let known := ((s.job job).map fun b => b.mismatched.contains (gid, use)).getD false
  if !known && allAgree ((s.useCmds job gid use).map (·.2)) then s
  else
    let s := s.modJob job fun b => if known then b else { b with mismatched := b.mismatched ++ [(gid, use)] }
    l.foldl (fun s x => s.stopCmd x.1 x.2.pos .groupMismatch) s

/-! ### The events -/

/-- ENGINE_BLOCK_SEND (R313). -/
def execEngineBlockSend (core : Nat) (nth : Nat) (ecc : Bool) (s : State) : Host.Outcome State Fault Refusal :=
  onRealCore core (sendBlock core nth ecc) s

/-- ENGINE_BLOCK_ARRIVAL (R314). -/
def execEngineBlockArrival (core : Nat) (nth : Nat) (blk : Nat) (got : Option (List (BitVec 8))) (s : State) : Host.Outcome State Fault Refusal :=
  onRealCore core (arriveBlock core nth blk got) s

/-- BARROW_REFILL (R86). -/
def execBarrowRefill (core : Nat) (s : State) : Host.Outcome State Fault Refusal := onRealCore core (refill core) s

/-- BLOCK_RESEND (R314). -/
def execBlockResend (core : Nat) (nth : Nat) (blk : Nat) (s : State) : Host.Outcome State Fault Refusal :=
  onRealCore core (resendBlock core nth blk) s

/-- ENGINE_COMMAND_COMPLETE (R281). -/
def execEngineCommandComplete (core : Nat) (nth : Nat) (s : State) : Host.Outcome State Fault Refusal :=
  onRealCore core (completeCmd core nth) s

/-- COLL_MATCH (R285). -/
def execCollMatch (job : Nat) (gid : Nat) (use : Nat) (s : State) : Host.Outcome State Fault Refusal :=
  .next (matchColl job gid use s)

end Sys2Proof.Machine
end

