-- ==== Sys2Proof/Machine/Grammar.lean ====
section
/-! DEFINITION. The grammar engine (R286, R287, R333 to R338), page walks of every requester (R139, R140, R313) and the host's
answers to translation faults (R140, R375). -/

namespace Sys2Proof.Machine

/-- How an evaluation of the grammar engine ends other than with a result. -/
inductive GramStop
  | missing (va : Nat) (right : Right)
  | mismatch
  | illegal
  | unreadable (g : Nat)
  | held (h : Held)
  deriving DecidableEq, Repr

/-- Results of reads of the grammar engine. -/
abbrev Gram (α : Type) := Except GramStop α

/-- STATE of a grammar command (R286). -/
def Cmd.stateVa (m : Cmd) : Nat := bitsN (m.field 8 8) 51 0
/-- AUTO of a grammar command. -/
def Cmd.autoVa (m : Cmd) : Nat := bitsN m.src 51 0

/-- A plain load of the grammar engine (R338), `n` bytes; no bytes come from an MD that is DOWN, a unit not rebuilt or another
job's frame (R161, R361, R362). -/
def State.gramLoad (s : State) (core : Nat) (m : Cmd) (va n : Nat) : Gram Nat := do
  let bytes ← (List.range n).mapM fun i =>
    match m.page (va + i) with
    | none => .error (.missing (va + i) .load)
    | some p =>
      let pa := p.place (va + i)
      if !s.covers m (va + i, .load) then .error (.missing (va + i) .load)
      else if s.mdDown (dieOf core) (homeOf pa) || s.unitLost pa then .error (.held (.waits pa))
      else if s.foreign pa m.job then .error (.held .foreign)
      else if s.errorAt pa 1 && !s.dataUnit pa then .error (.unreadable (granule pa))
      else .ok ((s.view (m.viewer core) pa 1).headD 0)
  return bytesToNat bytes
/-- A check of the grammar engine: FMT_MISMATCH where it fails (R337). -/
def gramCheck (ok : Bool) : Gram Unit := if ok then .ok () else .error .mismatch

/-- The header of an automaton (R333). -/
structure Automaton where
  ntok : Nat
  nq : Nat
  nz : Nat
  smax : Nat
  pairs : Nat
  masks : Nat
  acts : Nat
  deriving DecidableEq, Repr

/-- Read and check the header (R333). -/
def State.automaton (s : State) (core : Nat) (m : Cmd) : Gram Automaton := do
  let a := m.autoVa
  let h : Automaton := ⟨← s.gramLoad core m a 4, ← s.gramLoad core m (a + 4) 4, ← s.gramLoad core m (a + 8) 4,
    ← s.gramLoad core m (a + 12) 4, ← s.gramLoad core m (a + 16) 8, ← s.gramLoad core m (a + 24) 8,
    ← s.gramLoad core m (a + 32) 8⟩
  let rest ← s.gramLoad core m (a + 40) 24
  gramCheck (decide (1 ≤ h.ntok) && decide (h.ntok ≤ 262144) && decide (1 ≤ h.nq) && decide (h.nq ≤ 65536) &&
    decide (1 ≤ h.nz) && decide (h.nz ≤ 65535) && decide (1 ≤ h.smax) && decide (h.smax ≤ 4096) && h.pairs % 16 == 0 &&
    h.masks % 16 == 0 && h.acts % 8 == 0 && rest == 0)
  return h

/-- Bytes of a mask (R334). -/
def Automaton.maskLen (h : Automaton) : Nat := (h.ntok + 127) / 128 * 16

/-- A STATE record (R336): control state and stack, bottom first. -/
structure GramState where
  q : Nat
  stack : List Nat
  deriving DecidableEq, Repr

/-- Read and check STATE (R336, R337). -/
def State.gramState (s : State) (core : Nat) (m : Cmd) (h : Automaton) : Gram GramState := do
  let a := m.stateVa
  let q ← s.gramLoad core m a 4
  let depth ← s.gramLoad core m (a + 4) 4
  let achk ← s.gramLoad core m (a + 8) 8
  gramCheck (achk == m.autoVa && decide (q < h.nq) && decide (depth ≤ h.smax))
  let stack ← (List.range depth).mapM fun d => s.gramLoad core m (a + 16 + 2 * d) 2
  gramCheck (stack.all fun z => decide (1 ≤ z) && decide (z ≤ h.nz))
  return ⟨q, stack⟩

/-- A pair entry (R334). -/
structure GramPair where
  maskix : Nat
  actix : Nat
  nleg : Nat
  acc : Bool
  deriving DecidableEq, Repr

/-- The pair entry of a configuration (R334). -/
def State.gramPair (s : State) (core : Nat) (m : Cmd) (h : Automaton) (g : GramState) : Gram GramPair := do
  let z := g.stack.getLastD 0
  let w ← s.gramLoad core m (m.autoVa + h.pairs + 16 * (g.q * (h.nz + 1) + z)) 16
  return ⟨bitsN w 31 0, bitsN w 63 32, bitsN w 95 64, bitN w 96⟩

/-- The mask of a pair entry, as one number (R334). -/
def State.gramMask (s : State) (core : Nat) (m : Cmd) (h : Automaton) (p : GramPair) : Gram Nat :=
  s.gramLoad core m (m.autoVa + h.masks + p.maskix * h.maskLen) h.maskLen

/-- The mask GMASK writes (R286, R337). -/
def State.gmask (s : State) (core : Nat) (m : Cmd) : Gram (List Byte) := do
  let h ← s.automaton core m
  let g ← s.gramState core m h
  let p ← s.gramPair core m h g
  let mask ← s.gramMask core m h p
  return natToBytes m.streamBytes (mask % 2 ^ min h.ntok (bitsN m.ctl 50 32))

/-- Ones among the low bits of a number. -/
def onesBelow (n : Nat) : Nat → Nat
  | 0 => 0
  | k + 1 => onesBelow n k + (if bitN n k then 1 else 0)

/-- The configuration after an action (R335, R337). -/
def Automaton.act (h : Automaton) (g : GramState) (a : Nat) : Gram GramState := do
  let npush := bitsN a 18 17
  let okSym (z : Nat) : Bool := decide (1 ≤ z) && decide (z ≤ h.nz)
  gramCheck (bitsN a 31 19 == 0 && npush != 3 && decide (bitsN a 15 0 < h.nq) &&
    (npush == 0 || okSym (bitsN a 47 32)) && (npush != 2 || okSym (bitsN a 63 48)))
  gramCheck (!bitN a 16 || !g.stack.isEmpty)
  let kept := if bitN a 16 then g.stack.dropLast else g.stack
  gramCheck (decide (kept.length + npush ≤ h.smax))
  return ⟨bitsN a 15 0, kept ++ [bitsN a 47 32, bitsN a 63 48].take npush⟩

/-- GSTEP's outcome for a configuration (R286, R337): ACCEPT 1, LIVE 0, DEAD 2. -/
def GramPair.outcome (p : GramPair) : Nat := if p.acc then 1 else if p.nleg != 0 then 0 else 2

/-- GSTEP (R337): the bytes of STATE that it writes, by virtual address, and its outcome. -/
def State.gstep (s : State) (core : Nat) (m : Cmd) : Gram (List ByteWrite × Nat) := do
  let h ← s.automaton core m
  let g ← s.gramState core m h
  let p ← s.gramPair core m h g
  let t := bitsN m.word16 31 0
  let mask ← s.gramMask core m h p
  if decide (h.ntok ≤ t) || !bitN mask t then .error .illegal
  else
    let a ← s.gramLoad core m (m.autoVa + h.acts + 8 * (p.actix + onesBelow mask t)) 8
    let g' ← h.act g a
    let p' ← s.gramPair core m h g'
    let head := natToBytes 4 g'.q ++ natToBytes 4 g'.stack.length
    let bytes := head.zipIdx.map (fun (b, i) => (m.stateVa + i, b)) ++
      (g'.stack.flatMap (natToBytes 2)).zipIdx.map (fun (b, i) => (m.stateVa + 16 + i, b))
    let ws : List ByteWrite := bytes.map fun x => ⟨x.1, 255, x.2.toNat⟩
    match ws.find? fun w => !s.covers m (w.addr, .store) with
    | some w => .error (.missing w.addr .store)
    | none => return (ws, p'.outcome)

/-- Earlier commands on the same STATE have done their work (R287): the engine of a die takes them in the order in which
they reached it. -/
def State.gramTurn (s : State) (core : Nat) (m : Cmd) : Bool :=
  s.cores.all fun (n, c) => dieOf n != dieOf core || c.cmds.all fun k =>
    decide (k.eop < 5) || k.stage != .accepted || decide (m.accepted ≤ k.accepted) || k.job != m.job ||
      k.stateVa != m.stateVa || k.stop.isSome || (k.executed && s.writesInForce n k)

/-- The end of an evaluation that gives no result: a page is awaited, a check fails, the token is not legal, or a byte of
AUTO or STATE is unreadable or does not come. -/
def State.gramEnd (s : State) (core : Nat) (m : Cmd) (e : GramStop) : State :=
  match e with
  | .missing _ _ => s
  | .mismatch => s.stopCmd core m.pos .fmtMismatch
  | .illegal => s.stopCmd core m.pos .illegalToken
  | .held h => s.unanswered core m h
  | .unreadable g => (s.noteError (g * 64)).stopCmd core m.pos .eccUncorr

/-- GRAMMAR_EXECUTE (R337, R338, R362): a lost unit that STATE is in takes its place in the order of rebuilding. -/
def runGrammar (core nth : Nat) (s : State) : State :=
  match s.cmd core nth with
  | none => s
  | some m =>
    if m.stage != .accepted || m.stop.isSome || m.executed || !s.gramTurn core m then s
    else if m.eop == 5 then
      match s.gmask core m with
      | .ok bytes => s.modCmd core m.pos fun k => { k with stream := bytes, executed := true }
      | .error e => s.gramEnd core m e
    else if m.eop == 6 then
      match s.gstep core m with
      | .error e => s.gramEnd core m e
      | .ok (ws, outcome) => match m.globalBytes ws with
        | none => s
        | some ps =>
          let runs := joinRuns ps
          if runs.all fun r => s.homeTakes core r.pa then
            (runs.foldl (fun s r => s.engineWrite core m true r) s).modCmd core m.pos fun k =>
              { k with executed := true, outcome := outcome }
          else runs.foldl (fun s r => s.wantUnit r.pa) s
    else s

/-! ### Page walks (R139, R140, R313) -/

/-- What a command's translation needs next: its step, an address and a right. -/
def State.nextNeed (s : State) (core : Nat) (m : Cmd) : Option (Nat × Right) :=
  if m.stage != .accepted || m.stop.isSome || m.token.isSome || !s.atHand core m then none
  else if decide (m.eop < 5) then (if m.translated < s.steps m then s.missing m m.translated else none)
  else if m.executed then none
  else
    let e : Option GramStop := if m.eop == 5 then
        (match s.gmask core m with
         | .error e => some e
         | .ok _ => none)
      else
        (match s.gstep core m with
         | .error e => some e
         | .ok _ => none)
    match e with
    | some (.missing va r) => some (va, r)
    | _ => none

/-- The pointer of a faulting block's first byte (R375): the endpoint of the side that faults, at that byte. -/
def State.blockPointer (s : State) (m : Cmd) (va : Nat) (right : Right) : Word :=
  let first := (((s.item m m.translated).map (s.needs m)).getD []).find? fun n => n.2 == right
  let e := if decide (5 ≤ m.eop) then 0 else if right == .store then m.dst else m.src
  word (e / 2 ^ 52 * 2 ^ 52 + ((first.map (·.1)).getD va) % 2 ^ 52)

/-- A command meets a translation fault (R140, R313, R375): under demand service it waits for the host; else it stops. -/
def State.faultCmd (s : State) (core : Nat) (m : Cmd) (va : Nat) (right : Right) (level cause : Nat) : State :=
  let stop := s.stopCmd core m.pos (if cause == 1 then .protFault else .xlateFault)
  if !s.demand m.job then stop
  else match s.sendFault (.command core m.pos m.translated) m.job (s.blockPointer m va right) core 6 level cause with
    | some (token, s) => s.modCmd core m.pos fun k => { k with token := some token }
    | none => stop

/-- A memmove takes the source bytes of a page as it is translated (R282): no block of the command is written there before. -/
def State.fillSnapshot (s : State) (core : Nat) (m : Cmd) (p : TlbEntry) : Cmd :=
  { m with snapshot := m.snapshot.mapIdx fun i b =>
      let a := m.snapVa i
      if b == .unread && p.page == a / 2 ^ p.log && Right.load.allowed p.leaf then s.snapByte core m (p.place a) else b }

/-- A walk for a command's next need (R139, R313, R361 to R363). An ECP leaf outside the data units is refused and logged (R330,
log 69). -/
def walkCommand (core nth blk : Nat) (s : State) : State :=
  match s.cmd core nth with
  | none => s
  | some m =>
    if blk != m.translated then s
    else match s.nextNeed core m with
      | none => s
      | some (va, right) => match s.walkBarred core m.job va, s.walk m.job va with
        | some (.waits pa), _ => s.wantUnit pa
        | some (.unreadable _), _ => s.stopCmd core m.pos .eccUncorr
        | none, .absent level => s.faultCmd core m va right level 0
        | none, .leaf level e =>
          let p : TlbEntry := ⟨m.job, va / 2 ^ levelShift level, levelShift level, e⟩
          if !s.ecpOk p then (s.logSp (.ecpLeafRefused (p.place va))).faultCmd core m va right level 0
          else if right.allowed e then
            let m' := { m with pages := p :: m.pages.filter fun k => !(k.page == p.page && k.log == p.log) }
            (s.modCmd core m.pos fun _ => s.advanceCmd (s.fillSnapshot core m' p)).noteReplica p
          else s.faultCmd core m va right level 1

/-- A walk for the fetch of a core's next bundle: it fills the TLBs; the fetch itself meets a fault (R139). -/
def walkFetch (core : Nat) (via : WalkVia) (s : State) : State :=
  let c := s.core core
  if c.task.isNone || s.lookupVia core c.jobNo c.pc.toNat != via || decide (2 ^ 52 ≤ c.pc.toNat) then s
  else (s.translate core c.jobNo c.pc.toNat .fetch).2

/-- PAGE_WALK (R139): a translation completes. -/
def pageWalk (who : WalkRef) (via : WalkVia) (s : State) : State :=
  match who with
  | .fetch core => walkFetch core via s
  | .request core nth => walkRequest core nth via s
  | .command core nth blk => if via == .walk then walkCommand core nth blk s else s

/-! ### The host's answers (R140, R375) -/

/-- A fault under demand service ends (R140): with a retry, or refused under an SVC code (R342). -/
def State.answerFault (s : State) (t : Token) (svc : Option Nat) : State :=
  let s := s.dropToken t.token
  match t.who with
  | .fetch core =>
    let c := s.core core
    match svc, c.stalled with
    | some v, some .fetch =>
      (s.takeTrap core (translationTrap 4 t.level v t.cause c.pc)).modCore core Core.haltIdle
    | _, _ => s
  | .request core _ =>
    match (s.core core).reqs.findIdx? fun r => r.phase == .serviced t.token with
    | none => s
    | some i => s.modReq core i fun r => { r with phase := match svc with
        | none => .issued
        | some v => .refused (translationTrap r.op.kind t.level v t.cause r.ptr) }
  | .command core pos _ =>
    let s := s.modCmd core pos fun m => if m.token == some t.token then { m with token := none } else m
    match svc with
    | none => s
    | some _ => s.stopCmd core pos (if t.cause == 1 then .protFault else .xlateFault)

/-- The outstanding fault of a token. -/
def State.tokenOf (s : State) (token : Nat) : Option Token := s.iod.tokens.find? fun t => t.token == token

/-- FQDB (R375): the host answers an outstanding fault: retry, or refuse with SVC 1. A token that is not outstanding is
ignored. -/
def answerQueue (token : Nat) (retry : Bool) (s : State) : State :=
  match s.tokenOf token with
  | none => s
  | some t => s.answerFault t (if retry then none else some 1)

/-- DEMAND_SERVICE_EXPIRY (R140): the service limit of a waiting fault has passed: SVC 2. -/
def expireFault (token : Nat) (s : State) : State :=
  match s.tokenOf token with
  | none => s
  | some t => if s.serviceLimit t.job ≤ t.since then s.answerFault t (some 2) else s

/-! ### The events -/

/-- GRAMMAR_EXECUTE (R337). -/
def execGrammarExecute (core : Nat) (nth : Nat) (s : State) : Host.Outcome State Fault Refusal :=
  onRealCore core (runGrammar core nth) s

/-- The core a walk is for. -/
def walkCore : WalkRef → Nat
  | .fetch c => c
  | .request c _ => c
  | .command c _ _ => c

/-- PAGE_WALK (R139). -/
def execPageWalk (who : WalkRef) (via : WalkVia) (s : State) : Host.Outcome State Fault Refusal :=
  onRealCore (walkCore who) (pageWalk who via) s

/-- DEMAND_SERVICE_EXPIRY (R140). -/
def execDemandServiceExpiry (token : Nat) (s : State) : Host.Outcome State Fault Refusal := .next (expireFault token s)

/-- FQDB (R375). -/
def execFqdb (token : BitVec 16) (verdict : Bool) (s : State) : Host.Outcome State Fault Refusal :=
  .next (answerQueue token.toNat verdict s)

end Sys2Proof.Machine
end

