-- ==== Sys2Proof/Machine/HostQueues.lean ====
section
/-! DEFINITION. The host interface: queues, doorbells, packets, refusals, completion records, aborts and BAR0 (R109, R112,
R141, R368 to R375). -/

namespace Sys2Proof.Machine

/-! ### Records for completion queues (R369, R374) -/

/-- STATUS codes of completion records (R374). -/
def StopStatus.code : StopStatus → Nat
  | .faulted => 1
  | .failed => 2
  | .memlost => 3
  | .timeout => 4
  | .barrowFull => 5
  | .aborted => 6
/-- STATUS REFUSED. -/
def cqRefused : Nat := 7
/-- STATUS EVENT. -/
def cqEvent : Nat := 8

/-- What a completion record says (R374). -/
structure CqEntry where
  id : Nat
  seq : Nat
  status : Nat
  reason : Nat
  node : Nat
  discarded : Nat
  replays : Nat
  tag : Nat
  deriving DecidableEq, Repr

/-- The 64 bytes of a completion record (R374). -/
def CqEntry.bytes (e : CqEntry) (ptime : Nat) : List Byte :=
  natToBytes 8 e.id ++ natToBytes 8 e.seq ++
    natToBytes 8 (e.status + e.reason * 2 ^ 8 + e.node * 2 ^ 16 + e.discarded % 2 ^ 32 * 2 ^ 32) ++
    natToBytes 8 (e.replays % 65536) ++ natToBytes 8 ptime ++ natToBytes 8 e.tag ++ natToBytes 16 0

/-- Change a queue's registers. -/
def State.modQueue (s : State) (q : Fin 64) (f : Queue → Queue) : State :=
  { s with iod := { s.iod with queues := s.iod.queues.set q (f s.iod.queues[q]) } }
/-- A queue's registers. -/
def State.queue (s : State) (q : Fin 64) : Queue := s.iod.queues[q]

/-- Records a CQ holds (R369). -/
def Queue.records (q : Queue) : Nat := (q.cqtail + 2 ^ q.cqlog - q.cqhead % 2 ^ q.cqlog) % 2 ^ q.cqlog
/-- A CQ can take a record: enabled, of a size R368 gives, and not full (R369). -/
def Queue.takesRecord (q : Queue) : Bool :=
  q.cqen && decide (1 ≤ q.cqlog) && decide (q.cqlog ≤ 12) && decide (q.records + 1 < 2 ^ q.cqlog)

/-- Write held records to a CQ in the order in which they were produced, while it has room; each raises its vector
(R369, R374). -/
def State.flushCq (s : State) (q : Fin 64) : Nat → State
  | 0 => s
  | n + 1 =>
    let r := s.queue q
    match r.held with
    | [] => s
    | h :: rest =>
      if !r.takesRecord then s
      else
        let s := s.applyAll (r.cqbase + 64 * r.cqtail) h.bytes
        let s := s.modQueue q fun r => { r with cqtail := (r.cqtail + 1) % 2 ^ r.cqlog, held := rest }
        let s : State := { s with iod := { s.iod with vectors := s.iod.vectors ++ [r.vec] } }
        s.flushCq q n

/-- Produce a completion record for the CQ of a submission queue (R368, R369). -/
def State.record (s : State) (sq : Nat) (e : CqEntry) : State :=
  let cq : Fin 64 := Fin.ofNat 64 (s.queue (Fin.ofNat 64 sq)).cqn
  let s := s.modQueue cq fun r => { r with held := r.held ++ [⟨e.bytes s.iod.ptime⟩] }
  s.flushCq cq (s.queue cq).held.length

/-! ### Submission queues (R368, R369, R373) -/

/-- A submission queue is served: enabled and of a size R368 gives. -/
def Queue.served (q : Queue) : Bool := q.sqen && decide (1 ≤ q.sqlog) && decide (q.sqlog ≤ 12)
/-- Entries a submission queue holds (R369). -/
def Queue.entries (q : Queue) : Nat := (q.sqtail + 2 ^ q.sqlog - q.sqhead % 2 ^ q.sqlog) % 2 ^ q.sqlog
/-- The index of its next entry: SQHEAD, modulo the entry count where a smaller SQLOG was written since (log 94). -/
def Queue.nextIndex (q : Queue) : Nat := q.sqhead % 2 ^ q.sqlog
/-- Its next entry, past those an ABORT removed. -/
def Queue.skipGone (q : Queue) : Nat → Queue
  | 0 => q
  | n + 1 =>
    if q.gone.contains q.nextIndex && q.entries != 0 then
      { q with gone := q.gone.erase q.nextIndex, sqhead := (q.sqhead + 1) % 2 ^ q.sqlog }.skipGone n
    else q
/-- Take the entry at the head of a queue. -/
def State.takeEntry (s : State) (q : Fin 64) : State :=
  s.modQueue q fun r => ({ r with sqhead := (r.sqhead + 1) % 2 ^ r.sqlog }).skipGone 4096
/-- The 2,560 bytes of a packet at a physical address. -/
def State.packetAt (s : State) (a : Nat) : List Byte := s.mem.readList a 2560
/-- The packet at the head of a queue that is not empty, while it may be served: its CQ is not full (R369). -/
def State.headPacket (s : State) (q : Fin 64) : Option (List Byte) :=
  let r := s.queue q
  let cq := s.queue (Fin.ofNat 64 r.cqn)
  let full := cq.cqen && (!cq.held.isEmpty || !cq.takesRecord)
  if !r.served || r.entries == 0 || full then none else some (s.packetAt (r.sqbase + 4096 * r.nextIndex))

/-- A field of a packet. -/
def pktField (b : List Byte) (off n : Nat) : Nat := bytesToNat ((b.drop off).take n)
/-- TYPE of a packet (R370). -/
def pktType (b : List Byte) : Nat := pktField b 0 1
/-- The JOBID or GID of a packet. -/
def pktId (b : List Byte) : Nat := pktField b 8 8
/-- Bytes of a packet from one offset to another are all zero. -/
def pktZero (b : List Byte) (lo hi : Nat) : Bool := ((b.drop lo).take (hi - lo)).all fun x => x == 0

/-- The fields of a launch packet (R370, R371). -/
def launchOf (b : List Byte) (pmax : Nat) : Launch :=
  let w := pktField b 0 8
  let g := pktField b 0x18 8
  { prio := min (bitsN w 10 8) pmax
    repro := bitN w 11
    demand := bitN w 12
    retry := bitsN w 19 16
    tmo := bitsN w 35 20
    jreplay := bitsN w 39 36
    dmask := bitsN w 63 40
    jobId := word (pktField b 8 8)
    seed := word (pktField b 0x10 8)
    ng := bitsN g 16 0
    ghl := bitsN g 19 17
    gwl := bitsN g 22 20
    cred := bitsN g 28 23
    budget := bitsN g 63 32
    tbase := pktField b 0x20 8
    barrow := pktField b 0x28 8
    brecs := bitsN (pktField b 0x30 8) 16 0
    save := pktField b 0x38 8
    svclim := bitsN (pktField b 0x40 8) 15 0
    jtime := bitsN (pktField b 0x40 8) 47 16
    bufacl := BitVec.ofNat 24 (pktField b 0x48 3)
    bars := (b.drop 0x50).take 8
    deps := (List.range 4).map fun i => word (pktField b (0x58 + 8 * i) 8)
    tag := word (pktField b 0x78 8)
    chans := (List.range 16).map fun c => (List.range 4).map fun k => word (pktField b (0x100 + 32 * c + 8 * k) 8)
    cws := (List.range 224).map fun n => word (pktField b (0x300 + 8 * n) 8) }

/-- An image of a channel register in a launch (R371). -/
def Launch.image (l : Launch) (c k : Nat) : Word := (l.chans.getD c []).getD k 0
/-- WMODE of a channel image (R371). -/
def Launch.wmode (l : Launch) (c : Nat) : Nat := wbits (l.image c 1) 23 22

/-! ### Checking a launch (R372) -/

/-- The reserved bits of a packet's header and channel images that are REASON 0x02. -/
def launchReserved (b : List Byte) : Bool :=
  let l := launchOf b 7
  bitsN (pktField b 0 8) 15 13 == 0 && bitsN (pktField b 0x18 8) 31 29 == 0 && bitsN (pktField b 0x20 8) 63 52 == 0 &&
    bitsN (pktField b 0x28 8) 63 52 == 0 && bitsN (pktField b 0x30 8) 63 17 == 0 && bitsN (pktField b 0x38 8) 63 52 == 0 &&
    bitsN (pktField b 0x40 8) 63 48 == 0 && bitsN (pktField b 0x48 8) 63 24 == 0 &&
    (l.bars.all fun x => bitsN x.toNat 6 4 == 0) && pktZero b 0x80 0x100 &&
    (List.range 16).all fun c =>
      wbits (l.image c 0) 63 52 == 0 && wbits (l.image c 0) 2 0 == 0 && wbits (l.image c 1) 28 27 == 0 &&
        wbits (l.image c 1) 21 15 == 0 && wbits (l.image c 2) 63 30 == 0 && wbits (l.image c 3) 30 18 == 0 &&
        wbits (l.image c 3) 3 0 == 0
/-- The limits of a launch's fields, REASON 0x03. -/
def Launch.inLimits (l : Launch) : Bool :=
  decide (1 ≤ l.ng) && decide (l.ng ≤ 65536) && decide (l.ghl ≤ 5) && decide (l.gwl ≤ 5) && decide (l.cred ≤ 32) &&
    decide (64 ≤ l.brecs) && decide (l.brecs ≤ 65536) && l.dmask != 0 &&
    (List.range 16).all fun c => l.wmode c != 3 && (l.wmode c != 1 || decide (wbits (l.image c 1) 14 0 < l.size)) &&
      chcondOk (l.image c 2) && chtillOk (l.image c 3)
/-- The alignment of TBASE, BARROW and SAVE, REASON 0x04. -/
def Launch.aligned (l : Launch) : Bool := l.tbase % 128 == 0 && l.barrow % 65536 == 0 && l.save % 65536 == 0
/-- Reproducible mode's condition on the channel table, REASON 0x05 (R116). -/
def Launch.locked (l : Launch) : Bool :=
  !l.repro || (List.range 15).all fun c => !wbit (l.image c 1) 31 || wbit (l.image c 1) 30
/-- BUFACL's fixed bits, REASON 0x07 (R125). -/
def Launch.rightsOk (l : Launch) : Bool := (l.bufacl &&& 0x808080#24) == 0x808080#24 && (l.bufacl &&& 0x001010#24) == 0#24
/-- The dies a launch names (R110). -/
def Launch.dies (l : Launch) : List Nat := (List.range dieCount).filter fun d => bitN l.dmask d
/-- The most gangs a launch may place on one die (R109). -/
def Launch.share (l : Launch) : Nat := (l.ng + l.dies.length - 1) / l.dies.length

/-- A launch not yet completed that has a JOBID (R372). -/
def State.liveJob (s : State) (jobId : Nat) : Option Nat :=
  (s.jobs.find? fun p => p.2.launch.jobId.toNat == jobId && !p.2.completed).map (·.1)

/-- A JOBID is that of a launch not yet completed: one that is broadcast, or a graph's kernel that waits for its turn (R372,
R377). -/
def State.idLive (s : State) (jobId : Nat) : Bool :=
  (s.liveJob jobId).isSome || s.iod.graphs.any fun g => (g.packet.map pktId) == some jobId

/-- The reason for which a launch packet is refused (R372), the lowest that applies. -/
def State.refusal (s : State) (b : List Byte) : Option Nat :=
  let l := launchOf b 7
  if pktType b != 1 then some 1
  else if !launchReserved b then some 2
  else if !l.inLimits then some 3
  else if !l.aligned then some 4
  else if !l.locked then some 5
  else if pktId b == 0 || s.idLive (pktId b) then some 6
  else if !l.rightsOk then some 7
  else if 4096 < l.share then some 8
  else none

/-! ### Entering the broadcast order (R109, R110) -/

/-- Where a gang is placed (R110): die, row, column. -/
def Launch.place (l : Launch) (seq g : Nat) : Nat × Nat × Nat :=
  let nd := l.dies.length
  let d := l.dies.getD ((seq + g) % nd) 0
  let nbx := 32 / l.gw
  let nb := nbx * (32 / l.gh)
  let b := (g / nd + seq) % nb
  (d, b / nbx * l.gh, b % nbx * l.gw)

/-- Gangs a launch places on a die. -/
def Launch.shareOf (l : Launch) (seq die : Nat) : Nat := ((List.range l.ng).filter fun g => (l.place seq g).1 == die).length
/-- Entries of a die's grant queue that launches not yet completed hold (R109). -/
def State.heldEntries (s : State) (die : Nat) : Nat :=
  (s.jobs.map fun p => if p.2.completed then 0 else p.2.launch.shareOf p.2.placeSeq die).sum

/-- The SEQ of the next entry of the broadcast order. -/
def State.nextSeqNo (s : State) : Nat := s.iod.log.length + 1
/-- Every die's grant queue has room for a launch (R109). -/
def State.hasRoom (s : State) (l : Launch) : Bool :=
  (List.range dieCount).all fun d => decide (s.heldEntries d + l.shareOf s.nextSeqNo d ≤ 4096)

/-- Add an entry to the broadcast order. -/
def State.broadcast (s : State) (e : LogEntry) : State := { s with iod := { s.iod with log := s.iod.log ++ [e] } }

/-- The number of the next job. -/
def State.newJobNo (s : State) : Nat := s.jobs.length + 1
/-- Enter a launch into the broadcast order (R109, R372): its dependencies are resolved to launches not yet completed. -/
def State.enter (s : State) (q : Nat) (l : Launch) (graph : Option Word) : Nat × State :=
  let j := s.newJobNo
  let seq := s.nextSeqNo
  let deps := l.deps.filterMap fun d => if d == 0 then none else s.liveJob d.toNat
  let b : Job :=
    { launch := l, queue := q, graph := graph, seq := seq, placeSeq := seq, eprio := l.prio, deps := deps,
      broadcastAt := s.iod.ptime, stop := none, stopped := false, replaying := false, completed := false, replays := 0,
      charges := 0, discarded := 0, mismatched := [] }
  (j, ({ s with jobs := s.jobs.put j b }).broadcast (.launch j))

/-! ### The round-robin of the queues and Slaxel (R369, R377) -/

/-- A graph packet's header passes its checks: reserved bits and alignment, and the node count (R376). -/
def graphHeader (b : List Byte) : Option Nat :=
  let base := pktField b 0x10 8
  let nn := pktField b 0x18 8
  if !(pktZero b 1 8 && base % 64 == 0 && base / 2 ^ 52 == 0 && nn / 8192 == 0 && pktZero b 0x20 0x78 && pktZero b 0x80 2560)
  then some 2
  else if nn == 0 || 4096 < nn then some 3
  else none

/-- The kernel of an instance that waits for Slaxel's turn (R377), its PRIO under its queue's cap. -/
def State.kernelOf (s : State) (g : Graph) : Option Launch :=
  g.packet.map fun b => launchOf b (s.queue (Fin.ofNat 64 g.queue)).pmax

/-- Slaxel has a kernel that can be entered. -/
def State.slaxelReady (s : State) : Bool := s.iod.graphs.any fun g => match s.kernelOf g with
  | some l => s.hasRoom l
  | none => false
/-- The entry at the head of a queue can be taken now (R369): a launch waits for room, a graph launch for a free slot. -/
def State.canTake (s : State) (q : Fin 64) : Bool :=
  match s.headPacket q with
  | none => false
  | some b =>
    if pktType b == 3 then true
    else if pktType b == 2 then (graphHeader b).isSome || decide (s.iod.graphs.length < 64)
    else (s.refusal b).isSome || s.hasRoom (launchOf b (s.queue q).pmax)
/-- The I/O die can serve a place of its round-robin: a queue, or Slaxel at 64. -/
def State.canServe (s : State) (p : Nat) : Bool := if h : p < 64 then s.canTake ⟨p, h⟩ else s.slaxelReady
/-- It is the turn of a place: none that can be served stands between the turn and it (R369). -/
def State.atTurn (s : State) (p : Nat) : Bool :=
  ((List.range 65).map fun i => (s.iod.turn + i) % 65).takeWhile (· != p) |>.all fun k => !s.canServe k
/-- A place has had its turn. -/
def State.passTurn (s : State) (p : Nat) : State := { s with iod := { s.iod with turn := (p + 1) % 65 } }

/-- LAUNCH_PACKET (R109, R369, R372): at its queue's turn the packet at the head is refused, waits for room, or enters the
broadcast order. -/
def takeLaunch (q : Fin 64) (s : State) : State :=
  match s.headPacket q with
  | none => s
  | some b =>
    if pktType b == 2 || pktType b == 3 || !s.atTurn q.val then s
    else match s.refusal b with
      | some r => ((s.takeEntry q).passTurn q.val).record q.val ⟨pktId b, 0, cqRefused, r, 0, 0, 0, pktField b 0x78 8⟩
      | none =>
        let l := launchOf b (s.queue q).pmax
        if s.hasRoom l then (((s.takeEntry q).passTurn q.val).enter q.val l none).2 else s

/-- TRANSLATION_INVALIDATE (R373): the packet is refused, or takes a SEQ. -/
def takeInvalidate (q : Fin 64) (s : State) : State :=
  match s.headPacket q with
  | none => s
  | some b =>
    if pktType b != 3 || !s.atTurn q.val then s
    else
      let va := pktField b 0x10 8
      let len := pktField b 0x18 8
      let taken := (s.takeEntry q).passTurn q.val
      let refuse (r : Nat) : State := taken.record q.val ⟨pktId b, 0, cqRefused, r, 0, 0, 0, 0⟩
      if !(pktZero b 1 8 && pktZero b 0x20 2560) then refuse 2
      else if len % 65536 != 0 then refuse 3
      else if va % 65536 != 0 then refuse 4
      else taken.broadcast (.invalidate (word (pktId b)) va len q.val 0)

/-- SQ_DOORBELL (R368, R369): a write of SQTAIL; a value beyond the queue is ignored and logged. -/
def doorbell (q : Fin 64) (tail : Nat) (s : State) : State :=
  if 2 ^ (s.queue q).sqlog ≤ tail then s.logSp (.doorbell q.val) else s.modQueue q fun r => { r with sqtail := tail }

/-- CQHEAD (R369): the host has consumed records; held ones are written. -/
def consume (q : Fin 64) (head : Nat) (s : State) : State :=
  let s := s.modQueue q fun r => { r with cqhead := head }
  s.flushCq q (s.queue q).held.length

/-! ### ABORT (R373) -/

/-- A queued packet of a TYPE that names a JOBID or GID: its queue and index, where it has not been taken. Only queues that are
served are searched (DESIGN CHOICE, log 97). -/
def State.queued (s : State) (type id : Nat) : Option (Fin 64 × Nat) :=
  (List.finRange 64).findSome? fun q =>
    let r := s.queue q
    if !r.served then none
    else
      ((List.range r.entries).map fun i => (r.sqhead + i) % 2 ^ r.sqlog).findSome? fun i =>
        let b := s.packetAt (r.sqbase + 4096 * i)
        if !r.gone.contains i && pktType b == type && pktId b == id then some (q, i) else none

/-- The jobs a graph instance has in flight. -/
def Graph.jobs (g : Graph) : List Nat := g.job.toList
/-- A graph instance ends with STATUS ABORTED (R377). -/
def State.abortGraph (s : State) (g : Graph) : State :=
  let s : State := { s with iod := { s.iod with graphs := s.iod.graphs.filter fun h => h.gid != g.gid } }
  s.record g.queue ⟨g.gid.toNat, 0, StopStatus.aborted.code, 0, g.node, 0, 0, g.tag.toNat⟩
/-- A kernel that waits for its turn is dropped (R373): it completes ABORTED with SEQ 0, where its node reports with a record,
and its graph finishes with that status. -/
def State.dropKernel (s : State) (g : Graph) (b : List Byte) : State :=
  let reports := ((g.nodes[g.node]?).map (·.flag)).getD false
  let s := if reports then s.record g.queue ⟨pktId b, 0, StopStatus.aborted.code, 0, g.node, 0, 0, pktField b 0x78 8⟩ else s
  s.abortGraph g

/-- A queued packet is removed (R373): it completes ABORTED with SEQ 0. -/
def State.abortQueued (s : State) (type id : Nat) : State := match s.queued type id with
  | none => s
  | some (q, i) =>
    let tag := pktField (s.packetAt ((s.queue q).sqbase + 4096 * i)) 0x78 8
    let s := s.modQueue q fun r => ({ r with gone := r.gone ++ [i] }).skipGone 4096
    s.record q.val ⟨id, 0, StopStatus.aborted.code, 0, 0, 0, 0, tag⟩
/-- ABORT naming a JOBID (R373): a broadcast launch is marked to stop, a graph's kernel that waits for its turn is dropped,
and a launch not yet taken is removed. -/
def State.abortLaunch (s : State) (id : Nat) : State := match s.liveJob id with
  | some j => s.markStop j .aborted
  | none => match s.iod.graphs.findSome? fun g => match g.packet with
      | some b => if pktId b == id then some (g, b) else none
      | none => none with
    | some (g, b) => s.dropKernel g b
    | none => s.abortQueued 1 id
/-- ABORT naming a GID (R377): the instance ends, with its kernel; a graph packet not yet taken is removed. -/
def State.abortGid (s : State) (id : Nat) : State := match s.iod.graphs.find? fun g => g.gid.toNat == id with
  | some g => (g.jobs.foldl (fun s j => s.markStop j .aborted) s).abortGraph g
  | none => s.abortQueued 2 id
/-- ABORT (R373, R377): the value is taken as a GID and as a JOBID, which are numbered apart (log 73); one that names nothing
pending is ignored. -/
def abortJob (jobid : Nat) (s : State) : State := (s.abortGid jobid).abortLaunch jobid

/-! ### BAR0 (R368, R375) -/

/-- Writes of a queue's configuration registers (R368): a field stays while its queue is enabled. -/
def Queue.writeReg (r : Queue) (off : Nat) (v : Word) : Queue :=
  match off with
  | 0x00 => if r.sqen then r else { r with sqbase := wbits v 51 12 * 4096 }
  | 0x08 =>
    if r.sqen then { r with sqen := wbit v 15 }
    else { r with sqen := wbit v 15, pmax := wbits v 14 12, cqn := wbits v 11 6, sqlog := wbits v 3 0 }
  | 0x20 => if r.cqen then r else { r with cqbase := wbits v 51 6 * 64 }
  | 0x28 =>
    if r.cqen then { r with cqen := wbit v 15 }
    else { r with cqen := wbit v 15, vec := wbits v 14 4, cqlog := wbits v 3 0 }
  | _ => r

/-- Writes of the fault ring's registers (R375). -/
def FaultRing.writeReg (f : FaultRing) (off : Nat) (v : Word) : FaultRing :=
  match off with
  | 0x10 =>
    if f.en then { f with en := wbit v 12 }
    else
      let f' := { f with base := wbits v 51 13 * 8192, vec := wbits v 10 0, en := wbit v 12 }
      if wbit v 12 then { f' with tail := 0, phase := true } else f'
  | 0x30 => { f with head := wbits v 7 0 }
  | _ => f

/-- The number by which the model names the management interface's HEALTH register among the register writes without a row
(log 27). -/
def mgmtHealth : Nat := 0x100000247

/-- BAR0_REGISTER_WRITE (R365, R368, R375): a register without a row of its own; read-only registers and offsets that name
none stay. The management interface clears RR. -/
def writeBar0 (off : Nat) (v : Word) (s : State) : State :=
  if 0x10000 ≤ off && off < 0x11000 then
    let q : Fin 64 := Fin.ofNat 64 ((off - 0x10000) / 64)
    let s := s.modQueue q fun r => r.writeReg (off % 64) v
    s.flushCq q (s.queue q).held.length
  else if off == mgmtHealth then { s with sp := { s.sp with rr := s.sp.rr && wbit v 63 } }
  else { s with iod := { s.iod with fq := s.iod.fq.writeReg off v } }

/-! ### The events -/

/-- SQ_DOORBELL (R369). -/
def execSqDoorbell (q : Fin 64) (tail : BitVec 12) (s : State) : Host.Outcome State Fault Refusal :=
  .next (doorbell q tail.toNat s)

/-- LAUNCH_PACKET (R372). -/
def execLaunchPacket (q : Fin 64) (s : State) : Host.Outcome State Fault Refusal := .next (takeLaunch q s)

/-- TRANSLATION_INVALIDATE (R373). -/
def execTranslationInvalidate (q : Fin 64) (s : State) : Host.Outcome State Fault Refusal := .next (takeInvalidate q s)

/-- CQHEAD (R369). -/
def execCqhead (q : Fin 64) (head : BitVec 12) (s : State) : Host.Outcome State Fault Refusal :=
  .next (consume q head.toNat s)

/-- ABORT (R373). -/
def execAbort (jobid : BitVec 64) (s : State) : Host.Outcome State Fault Refusal := .next (abortJob jobid.toNat s)

/-- BAR0_REGISTER_WRITE (R368). -/
def execBar0RegisterWrite (offset : Nat) (value : BitVec 64) (s : State) : Host.Outcome State Fault Refusal :=
  .next (writeBar0 offset value s)

end Sys2Proof.Machine
end

