-- ==== Sys2Proof/Machine/Graphs.lean ====
section
/-! DEFINITION. Graphs and the Slaxel launch processor (R108, R376 to R378). -/

namespace Sys2Proof.Machine

/-- The 64 bytes of a node as a node (R376). -/
def nodeOf (b : List Byte) : Node :=
  let w := pktField b 0 8
  { kind := bitsN w 7 0
    flag := bitN w 8
    next := bitsN w 47 32
    alt := bitsN w 63 48
    addr := bitsN (pktField b 8 8) 51 0
    max := bitsN (pktField b 16 8) 15 0
    tag := word (pktField b 24 8) }

/-- A node of a table of `nn` nodes keeps its limits, and the fields its kind does not use are zero (R376). -/
def nodeOk (b : List Byte) (nn : Nat) : Bool :=
  let n := nodeOf b
  let w := pktField b 0 8
  let a := pktField b 8 8
  let usesFlag := n.kind == 0 || n.kind == 3
  let usesAlt := n.kind == 1 || n.kind == 2
  let usesAddr := n.kind == 0 || n.kind == 1
  decide (n.kind ≤ 4) && bitsN w 31 9 == 0 && (usesFlag || !n.flag) && (n.kind == 4 || decide (n.next < nn)) &&
    (n.kind != 4 || n.next == 0) && (if usesAlt then decide (n.alt < nn) else n.alt == 0) &&
    (if usesAddr then a / 2 ^ 52 == 0 && (if n.kind == 0 then a % 64 == 0 else a % 8 == 0) else a == 0) &&
    (if n.kind == 2 then pktField b 16 8 / 65536 == 0 && n.max != 0 else pktField b 16 8 == 0) &&
    (n.kind == 3 || pktField b 24 8 == 0) && pktZero b 32 64

/-- Remove an instance. -/
def State.dropGraph (s : State) (g : Graph) : State :=
  { s with iod := { s.iod with graphs := s.iod.graphs.filter fun h => h.gid != g.gid } }
/-- Put an instance back among those that run. -/
def State.putGraph (s : State) (g : Graph) : State :=
  let s := s.dropGraph g
  { s with iod := { s.iod with graphs := s.iod.graphs ++ [g] } }
/-- An instance finishes (R377): its record carries the GID, the node, and the packet's TAG. -/
def State.finishGraph (s : State) (g : Graph) (status reason : Nat) : State :=
  (s.dropGraph g).record g.queue ⟨g.gid.toNat, 0, status, reason, g.node, 0, 0, g.tag.toNat⟩

/-- Slaxel's turn with an instance whose kernel waits (R369, R377): it enters the broadcast order where there is room; else it
waits for a later turn. -/
def State.slaxelTurn (s : State) (g : Graph) : State :=
  match s.kernelOf g with
  | none => s.putGraph g
  | some l =>
    if !s.atTurn 64 || !s.hasRoom l then s.putGraph g
    else
      let (j, s) := (s.passTurn 64).enter g.queue l (some g.gid)
      s.putGraph { g with job := some j, packet := none }

/-- A kernel node (R377): its packet is copied and checked; refused, or entered at Slaxel's turn. -/
def State.enterKernel (s : State) (g : Graph) (n : Node) : State :=
  let b := s.packetAt n.addr
  match s.refusal b with
  | some r => s.finishGraph g cqRefused r
  | none => s.slaxelTurn { g with packet := some b }

/-- The home of a predicate word takes Slaxel's read (R361, R362, R378): its MD is not DOWN, its unit is whole. -/
def State.slaxelReads (s : State) (pa : Nat) : Bool :=
  s.iod.mdEntry s.iod.log.length (homeOf pa) / 2 ^ 30 != 1 && !s.unitLost pa

/-- Run an instance from its node until it enters a kernel, waits for an event, or finishes (R377); at most `k` nodes. A
predicate word is read at its home (R378): while that does not take the read the instance stays at its node, and the
uncorrectable error of a granule ends it with FAILED (R363, log 95). -/
def State.runGraph (s : State) (g : Graph) : Nat → State
  | 0 => s
  | k + 1 =>
    match g.nodes[g.node]? with
    | none => s
    | some n =>
      if n.kind == 0 then s.enterKernel { g with run := 0 } n
      else if n.kind == 1 && !s.slaxelReads n.addr then (s.wantUnit n.addr).putGraph { g with job := none }
      else if n.kind == 1 && s.errorAt n.addr 8 && !s.dataUnit n.addr then s.finishGraph g StopStatus.failed.code 0
      else
        let g := { g with run := g.run + 1 }
        if 64 < g.run then s.finishGraph g StopStatus.failed.code 1
        else match n.kind with
          | 1 =>
            let p := s.mem.readNat n.addr 8
            s.runGraph { g with node := if p != 0 then n.next else n.alt } k
          | 2 =>
            let c := (g.counts.find g.node).getD 0
            if c < n.max then
              s.runGraph { g with
                counts := g.counts.put g.node (c + 1)
                node := n.alt } k
            else
              s.runGraph { g with
                counts := g.counts.put g.node 0
                node := n.next } k
          | 3 =>
            let s := s.record g.queue ⟨g.gid.toNat, 0, cqEvent, 0, g.node, 0, 0, n.tag.toNat⟩
            if n.flag then s.putGraph { g with waiting := true } else s.runGraph { g with node := n.next } k
          | _ => s.finishGraph g 0 0

/-- Nodes an instance runs at most before it stops at a kernel, an event or its end: the 65th finishes it. -/
def graphFuel : Nat := 66

/-- GRAPH_PACKET (R369, R372, R376): at its queue's turn the packet at the head is refused, waits for a graph slot, or starts
an instance. A GID of 0 or of an instance that runs is refused as a JOBID is (log 73). -/
def takeGraph (q : Fin 64) (s : State) : State :=
  match s.headPacket q with
  | none => s
  | some b =>
    let gid := pktId b
    let base := pktField b 0x10 8
    let nn := pktField b 0x18 8
    let tag := pktField b 0x78 8
    let taken := (s.takeEntry q).passTurn q.val
    let refuse (reason node : Nat) : State := taken.record q.val ⟨gid, 0, cqRefused, reason, node, 0, 0, tag⟩
    let raw (i : Nat) : List Byte := s.mem.readList (base + 64 * i) 64
    if pktType b != 2 || !s.atTurn q.val then s
    else match graphHeader b with
      | some r => refuse r 0
      | none =>
        if 64 ≤ s.iod.graphs.length then s
        else match (List.range nn).find? fun i => !nodeOk (raw i) nn with
          | some i => refuse 3 i
          | none =>
            if gid == 0 || s.iod.graphs.any fun g => g.gid == word gid then refuse 6 0
            else
              let g : Graph :=
                ⟨word gid, q.val, word tag, (List.range nn).map fun i => nodeOf (raw i), 0, 0, [], none, false, none⟩
              taken.runGraph g graphFuel

/-- The STATUS of a job's completion record (R374). -/
def Job.status (b : Job) : Nat := match b.stop with
  | none => 0
  | some st => st.code
/-- What a job's completion record says (R356, R374): its SEQ is that of the first broadcast; of a graph's kernel it names the
node. -/
def Job.entry (b : Job) (node : Nat) : CqEntry :=
  ⟨b.launch.jobId.toNat, b.placeSeq, b.status, 0, node, b.discarded, b.replays, b.launch.tag.toNat⟩

/-- An instance by its GID. -/
def State.graphOf (s : State) (gid : Word) : Option Graph := s.iod.graphs.find? fun g => g.gid == gid

/-- GRAPH_KERNEL_COMPLETE (R377, R378): after its kernel's completion record an instance goes on, or finishes with the
kernel's STATUS; one whose kernel waits takes Slaxel's turn, and one whose predicate read waits tries it again. -/
def kernelComplete (gid : Word) (s : State) : State :=
  match s.graphOf gid with
  | none => s
  | some g =>
    if g.waiting then s
    else match g.job with
      | none => if g.packet.isNone then s.runGraph g graphFuel else s.slaxelTurn g
      | some j => match s.job j with
        | none => s
        | some b =>
          if !b.completed then s
          else if b.status != 0 then s.finishGraph g b.status 0
          else match g.nodes[g.node]? with
            | none => s
            | some n => s.runGraph { g with
                job := none
                node := n.next } graphFuel

/-- GEVENT (R377): an instance waiting at an event node goes on; any other GID is ignored. -/
def graphEvent (gid : Word) (s : State) : State :=
  match s.graphOf gid with
  | none => s
  | some g =>
    if !g.waiting then s
    else match g.nodes[g.node]? with
      | none => s
      | some n => s.runGraph { g with
          waiting := false
          node := n.next } graphFuel

/-- GRAPH_PACKET (R376). -/
def execGraphPacket (q : Fin 64) (s : State) : Host.Outcome State Fault Refusal := .next (takeGraph q s)

/-- GRAPH_KERNEL_COMPLETE (R377). -/
def execGraphKernelComplete (gid : BitVec 64) (s : State) : Host.Outcome State Fault Refusal :=
  .next (kernelComplete gid s)

/-- GEVENT (R377). -/
def execGevent (gid : BitVec 64) (s : State) : Host.Outcome State Fault Refusal := .next (graphEvent gid s)

end Sys2Proof.Machine
end

