-- ==== Sys2Proof/Machine/Gangs.lean ====
section
/-! DEFINITION. Shared operations over the broadcast order and gangs: what a die has applied, effective priorities and the
grant queue (R25, R109 to R112), gang start (R106), and discarding messages and commands for stops and replays (R347,
R354, R355). -/

namespace Sys2Proof.Machine

/-! ### The broadcast order as a unit applies it (R25, R109, R141) -/

/-- An entry that a die acts on without a step of its own. -/
def LogEntry.passive : LogEntry → Bool
  | .completion _ => true
  | _ => false
/-- An entry that an MD acts on: map updates and invalidations. -/
def LogEntry.forMd : LogEntry → Bool
  | .map _ => true
  | .invalidate .. => true
  | _ => false

/-- The place of the next entry that a unit acts on: dies are units 0 to 23, MDs 24 to 31. -/
def State.nextEntry (s : State) (unit : Nat) : Nat :=
  if unit < dieCount then
    let n := (s.die unit).applied
    n + ((s.iod.log.drop n).takeWhile LogEntry.passive).length
  else
    let n := s.iod.mdApplied.toList.getD (unit - dieCount) 0
    n + ((s.iod.log.drop n).takeWhile fun e => !e.forMd).length
/-- A unit has acted on the entries below a place. -/
def State.setApplied (s : State) (unit n : Nat) : State :=
  if unit < dieCount then s.modDie unit fun d => { d with applied := n }
  else { s with iod := { s.iod with mdApplied := s.iod.mdApplied.set! (unit - dieCount) n } }

/-- A die has acted on the completion record of a job (R111). -/
def State.sawCompletion (s : State) (die j : Nat) : Bool := (s.iod.log.take (s.nextEntry die)).contains (.completion j)

/-! ### Effective priority and the grant queue (R111, R112) -/

/-- The launches among the first entries of the broadcast order, latest first. -/
def Iod.launches (i : Iod) (n : Nat) : List Nat :=
  ((i.log.take n).filterMap fun e => match e with
    | .launch j => some j
    | _ => none).reverse
/-- Raise a priority. -/
def raiseTo (m : Assoc Nat) (j p : Nat) : Assoc Nat := m.put j (max p ((m.find j).getD 0))
/-- The effective priorities a die holds after the first entries of the order: each launch, latest first, raises those it
depends on, so that raises reach the launches they depend on in turn (R112). -/
def State.priorities (s : State) (n : Nat) : Assoc Nat :=
  (s.iod.launches n).foldl (fun m j => match s.job j with
    | none => m
    | some b =>
      let m := raiseTo m j b.eprio
      b.deps.foldl (fun m d => raiseTo m d ((m.find j).getD 0)) m) []
/-- The effective priority of a gang's job on its die. -/
def State.priority (s : State) (x : Gang) : Nat := ((s.priorities (s.nextEntry x.die)).find x.job).getD 0

/-- The SEQ of a gang's job. -/
def State.seqOf (s : State) (x : Gang) : Nat := match s.job x.job with
  | some b => b.seq
  | none => 0
/-- The order of a grant queue: effective priority, highest first, then SEQ, then g (R111). -/
def State.ahead (s : State) (x y : Gang) : Bool :=
  let p := s.priority x
  let q := s.priority y
  decide (q < p) || (p == q && (decide (s.seqOf x < s.seqOf y) || (s.seqOf x == s.seqOf y && decide (x.g < y.g))))
/-- Gangs that wait in a die's grant queue. -/
def Gang.waits (x : Gang) : Bool := x.state == .queued || x.state == .saved
/-- The gang at the head of a die's grant queue. -/
def State.headGang (s : State) (die : Nat) : Option Gang :=
  let l := s.gangs.filter fun x => x.die == die && x.waits
  l.find? fun x => l.all fun y => (y.job == x.job && y.g == x.g) || s.ahead x y

/-- Whether the blocks of two gangs of a die overlap. -/
def State.blocksMeet (s : State) (x y : Gang) : Bool :=
  match s.job x.job, s.job y.job with
  | some a, some b =>
    decide (x.row0 < y.row0 + b.launch.gh) && decide (y.row0 < x.row0 + a.launch.gh) &&
      decide (x.col0 < y.col0 + b.launch.gw) && decide (y.col0 < x.col0 + a.launch.gw)
  | _, _ => false

/-- The logical cores of a gang in rank order (R105). -/
def Gang.cores (x : Gang) (l : Launch) : List Nat := (List.range l.size).map (x.coreOf l.gw)
/-- The logical cores of a gang. -/
def State.coresOf (s : State) (x : Gang) : List Nat := match s.job x.job with
  | some b => x.cores b.launch
  | none => []

/-- A core can be given to a gang: no gang holds it, it works under an ACTIVE entry, and no late fault of an earlier gang
is still to be delivered (R107, R111). -/
def State.coreFree (s : State) (core : Nat) : Bool :=
  let c := s.core core
  c.gang.isNone && c.life == .alive && !s.coreEntryDown core && c.late.isEmpty
/-- The dependencies of a job are met on a die (R111). -/
def State.depsMet (s : State) (die : Nat) (b : Job) : Bool := b.deps.all fun d => s.sawCompletion die d
/-- Whether a waiting gang may be granted its block (R110, R111). -/
def State.grantable (s : State) (x : Gang) (b : Job) : Bool :=
  b.stop.isNone && !b.replaying && s.depsMet x.die b && !s.xdDown x.die x.die && (x.cores b.launch).all s.coreFree &&
    s.gangs.all fun y => !(y.die == x.die && y.waits && s.ahead y x && s.blocksMeet x y)

/-! ### Gang start (R106, R127, R128, R160, R371) -/

/-- The WRITER a channel image resolves to (R371). -/
def Launch.writer (l : Launch) (x : Gang) (core c : Nat) : Nat :=
  let w := wbits (l.image c 1) 14 0
  match l.wmode c with
  | 1 => x.coreOf l.gw w
  | 2 => core
  | _ => w
/-- A channel as gang start loads it (R79 to R82, R371). -/
def Launch.channel (l : Launch) (x : Gang) (core : Nat) (c : Fin 16) : Channel :=
  let ctl := (l.image c.val 1 &&& 0xFFFFFFFFE7000000#64) ||| word (l.writer x core c.val)
  { hnd := l.image c.val 0 &&& 0x000FFFFFFFFFFFF8#64
    ctl := if c = 15 then ctl ||| 0x07000000#64 else ctl
    cond := l.image c.val 2 &&& 0x3FFFFFFF#64
    till := l.image c.val 3 &&& 0xFFFFFFFF8003FFF0#64
    wait := 0
    jnext := 0
    queue := [] }
/-- The constant window of a core: cw0 to cw223 from the packet, then the identity words (R127, R128). -/
def Launch.window (l : Launch) (x : Gang) (core : Nat) : List Word :=
  let rank := x.rankOf l core
  ((List.range 224).map fun n => l.cws.getD n 0) ++
    [word core, word (dieOf core * 1024 + rowOf core * 32 + colOf core), word x.g, word rank, word l.size, l.jobId, l.seed,
      word (rank * 2 ^ 48)] ++ List.replicate 24 0
/-- Buffers that hold nothing but the window (R106, R160). -/
def Launch.buffers (l : Launch) (x : Gang) (core : Nat) : Memory :=
  Memory.writeList [] (locKey 0 0) ((l.window x core).flatMap fun w => natToBytes 8 w.toNat)
/-- The barriers of a gang at its start (R102). -/
def Launch.barriers (l : Launch) : Vector Barrier 8 := Vector.ofFn fun i =>
  let b := (l.bars.getD i.val 0).toNat
  ⟨bitN b 7, bitsN b 3 0, l.size, 0, [], [], []⟩

/-- The core's registers that a launch fixes for as long as its gang holds the core (R96, R116, R157). -/
def Core.join (c : Core) (b : Job) (x : Gang) (core : Nat) : Core :=
  { c with
    gang := some (x.job, x.g)
    rank := x.rankOf b.launch core
    jobattr := b.launch.repro
    jobBudget := b.launch.budget
    ackcfg := BitVec.ofNat 20 (b.launch.retry * 65536 + b.launch.tmo)
    task := none
    stalled := none
    lastChan := 14
    weight := 1 }
/-- A core of a gang at gang start: steps 1 to 3 of R106; the fault registers are zeroed (R344). -/
def Core.startGang (c : Core) (b : Job) (x : Gang) (core : Nat) : Core :=
  { c.join b x core with
    rings := Vector.replicate 16 Ring.zero
    loc := b.launch.buffers x core
    chans := Vector.ofFn (b.launch.channel x core)
    spcred := if b.launch.cred == 0 then 8 else b.launch.cred
    taskCount := 0
    bufacl := b.launch.bufacl
    fault := FaultRegs.zero }

/-- A gang that starts, or starts again: its instances are over, so that their numbers and marks are not used again. -/
def Gang.restart (x : Gang) (l : Launch) : Gang :=
  { x with
    state := .running
    bars := l.barriers
    barrow := []
    aside := []
    resuming := []
    retired := []
    saved := []
    insts := x.insts.map fun i => { i with done := true, replaying := false, isSealed := true, roots := [] }
    charged := false
    outside := false }

/-- A command whose blocks no Barrow record holds: they travel again. -/
def Cmd.unhold (m : Cmd) : Cmd := { m with blocks := m.blocks.map fun b => { b with held := false } }
/-- Blocks for cores whose Barrow records are gone travel again. -/
def State.unhold (s : State) (cores : List Nat) : State :=
  { s with
    cores := s.cores.map fun (n, c) =>
      (n, { c with cmds := c.cmds.map fun m => if cores.contains (epCore m.dst) then m.unhold else m }) }

/-- GANG START (R106): every core does steps 1 to 3, and then posts to its own channel 0 the start message. -/
def State.startGang (s : State) (b : Job) (x : Gang) : State :=
  let cores := x.cores b.launch
  let s := cores.foldl (fun s n => s.modCore n fun c => c.startGang b x n) s
  let s := (s.modGang x.job x.g fun y => y.restart b.launch).unhold cores
  cores.foldl (fun s n => s.post n 4 0 []) s

/-! ### Discarding messages and cancelling commands (R347, R354, R355) -/

/-- Messages of a core that a test picks: those in its run queue, those released but not yet sent, and those of its own that
wait for a number. -/
def Core.heldMsgs (c : Core) (p : Msg → Bool) : List Msg :=
  (c.chans.toList.flatMap (·.queue) ++ c.outbox.map (·.msg) ++ c.posts.map (·.2)).filter p
/-- A core without them. -/
def Core.dropMsgs (c : Core) (p : Msg → Bool) : Core :=
  { c with
    chans := mapChans c.chans fun ch => { ch with queue := ch.queue.filter fun m => !p m }
    outbox := c.outbox.filter fun o => !p o.msg
    posts := c.posts.filter fun o => !p o.2 }
/-- A gang without the messages a test picks, in its Barrow and its saved run queues. -/
def Gang.dropMsgs (x : Gang) (p : Msg → Bool) : Gang :=
  { x with
    barrow := x.barrow.filter fun r => !((r.msg?.map p).getD false)
    saved := x.saved.map fun (c : SavedCore) =>
      { c with chans := mapChans c.chans fun ch => { ch with queue := ch.queue.filter fun m => !p m } } }
/-- Messages of a gang that a test picks. -/
def Gang.heldMsgs (x : Gang) (p : Msg → Bool) : List Msg :=
  (x.barrow.filterMap BarrowRec.msg? ++ x.saved.flatMap fun c => c.chans.toList.flatMap (·.queue)).filter p

/-- Discard messages wherever they are held; their spawn credits return (R347, R354). -/
def State.discard (s : State) (p : Msg → Bool) : State :=
  let held := s.net.msgs.filter p ++ s.cores.flatMap (fun n => n.2.heldMsgs p) ++ s.gangs.flatMap (·.heldMsgs p)
  let s := { s with
    cores := s.cores.map fun (n, c) => (n, c.dropMsgs p)
    gangs := s.gangs.map fun x => x.dropMsgs p
    net := { s.net with msgs := s.net.msgs.filter fun m => !p m } }
  held.foldl State.returnCredit s

/-- Cancel the commands a test picks among those not ended, all of them before any slot is released (R347). -/
def State.cancelAll (s : State) (p : Nat → Cmd → Bool) : State := (s.cancel p).reap

/-- Abort the running task of a core for a stop or a replay: no report, EN unchanged (R341, R347, R354). -/
def State.abortQuietly (s : State) (core : Nat) : State :=
  let c := s.core core
  if c.task.isNone then s
  else (s.abortTask core false c.pc 0).modCore core fun c => { c with dbg := { c.dbg with next := 0 } }

/-- A core has nothing outstanding: no request unanswered, no command unaccepted, no queued MXU operation. -/
def Core.settled (c : Core) : Bool := c.outstanding == 0 && c.mxq.isEmpty

/-! ### Loss of a core's physical unit (R352, R358, R359) -/

/-- What the loss of a physical core leaves of a logical one: buffers, registers, ring descriptors and queued MXU
operations are gone; the network interface's state, the debug registers and the counters that pass with the identity stay
(R352, R359, R383). The buffered spawns of its task give their credits back, JNEXT of its JOIN channel steps back (R88), and
the channel registers it wrote are in force. -/
def Core.lose (c : Core) : Core :=
  let c := ((c.task.map fun t => c.modChan (Fin.ofNat 16 t.chan) Channel.stepBack).getD c).settleWrites
  { c with
    regs := Regs.zero
    before := none
    target := none
    endSeen := false
    brkSeen := false
    fstat := 0
    table := identityTable
    spcred := min 32 (c.spcred + ((c.task.map Task.credits).getD 0))
    task := none
    stalled := none
    rings := Vector.replicate 16 Ring.zero
    loc := []
    mxq := []
    holds := []
    fault := FaultRegs.zero
    tlb := []
    dbg := { c.dbg with next := 0 } }

/-- The running task of a core is lost with its physical unit. -/
def State.loseUnit (s : State) (core : Nat) : State :=
  ((s.withdraw core).dropFetch core).modCore core Core.lose

end Sys2Proof.Machine
end

