-- ==== Sys2Proof/Machine/Launch.lean ====
section
/-! DEFINITION. Dies and MDs acting on the broadcast order, grants, completion and pre-emption of gangs, and completion of
jobs (R22 to R26, R107, R109 to R115, R141, R361, R374). -/

namespace Sys2Proof.Machine

/-! ### Launches and maps (R25, R26, R109, R110, R361) -/

/-- The gangs of a job that stand on a die, as they enter its grant queue (R110). -/
def Job.gangsOn (b : Job) (j die : Nat) : List Gang :=
  (List.range b.launch.ng).filterMap fun g =>
    let (d, row0, col0) := b.launch.place b.placeSeq g
    if d == die then
      some { job := j, g := g, die := die, row0 := row0, col0 := col0, state := .queued, bars := b.launch.barriers,
             barrow := [], aside := [], spills := 0, resuming := [], retired := [], saved := [], insts := [], charges := 0, charged := false, outside := false }
    else none

/-- DIE_APPLY_LAUNCH (R109, R110): a die acts on the next entry, a launch; one that was stopped meanwhile, or that a
replay has entered again, brings it no gangs. -/
def applyLaunch (die : Nat) (s : State) : State :=
  let n := s.nextEntry die
  match s.iod.log[n]? with
  | some (.launch j) =>
    let s := s.setApplied die (n + 1)
    match s.job j with
    | none => s
    | some b =>
      if b.stopped || b.completed || b.seq != n + 1 then s
      else { s with gangs := s.gangs ++ b.gangsOn j die }
  | _ => s

/-- A request of a core is outstanding to an MD: its home is there, or, for a residency instruction, its slice has not
answered (R361). -/
def Req.awaits (r : Req) (md : Nat) : Bool :=
  match r.phase, r.op with
  | .translated _, .residency _ => !r.slices.contains md
  | .translated pa, _ => homeOf pa == md
  | .applied pa _, _ => homeOf pa == md
  | _, _ => false
/-- End the requests of a core that are outstanding to an MD with ACK_LOST (R361). -/
def State.loseTo (s : State) (core md : Nat) : Nat → State
  | 0 => s
  | k + 1 =>
    match (s.core core).reqs.findIdx? fun r => r.awaits md with
    | none => s
    | some i => match s.req core i with
      | none => s
      | some r => (s.loseReq core i r).loseTo core md k
/-- Every core of a die does so. -/
def State.loseAllTo (s : State) (die md : Nat) : State :=
  (s.cores.filter fun p => dieOf p.1 == die).foldl (fun s p => s.loseTo p.1 md p.2.reqs.length) s

/-- The logical cores of a die. -/
def dieCores (die : Nat) : List Nat := (List.range 1024).map fun i => die * 1024 + i
/-- The default core-map entry: the core's rank (R22). -/
def State.coreEntry (s : State) (core : Nat) : Nat :=
  (((s.die (dieOf core)).coreMap.find core).map (·.toNat)).getD (clusterRank core)

/-- A core whose identity a spare has taken: the counts of the spare are its own, CYCLES a free value (log 31), and a
reading of the identity counts from here (R29, R360, R392). -/
def Core.onSpare (c : Core) (cycles : Word) : Core :=
  { c with
    life := .alive
    cycles := cycles
    weight := 1
    mxRetired := 0
    dbg := { c.dbg with evcnt := if wbit c.dbg.evsel 8 then 0 else c.dbg.evcnt } }
/-- The dies of a reading's scope (R392). -/
def inScope (r : ReadingReq) (die : Nat) : Bool := match r.scope with
  | some d => d.val == die
  | none => true
/-- A core is selected by a reading from T0 on: in its scope, and held at T0 by a gang of its job where it names one
(R392). -/
def Reading.selects (r : Reading) (core : Nat) : Bool :=
  r.begun && inScope r.req (dieOf core) && (r.req.jobId == 0 || r.held.contains core)
/-- A reading that has selected a core whose identity a spare takes is marked LOSS (R392). -/
def Reading.lossOf (r : Reading) (cores : List Nat) : Reading :=
  if !r.done && cores.any r.selects then { r with loss := true } else r

/-- The cores of a die that a spare die has taken work again, with the core map and spares of the new unit (R360). CYCLES of
each is that of the spare's core, a free value (log 31). -/
def State.reviveDie (s : State) (die : Nat) : State :=
  let s : State := { s with
    cores := s.cores.map fun (n, c) => (n, if dieOf n == die then c.onSpare (Config.spareCycles (s.fresh + n)) else c)
    sp := { s.sp with readings := s.sp.readings.map fun r => r.lossOf (dieCores die) }
    fresh := s.fresh + coreCount }
  s.modDie die fun d => { d with coreMap := [], csUsed := [], beats := [] }

/-- A die applies a map update that changes an entry (R22, R23, R25, R26, R361). -/
def State.applyMap (s : State) (die n : Nat) (m : MapChange) : State :=
  let bump (s : State) : State := s.modDie die fun d => { d with mapgen := d.mapgen + 1 }
  match m with
  | .core c e =>
    if dieOf c != die then s
    else
      let changed := s.coreEntry c != e.toNat
      let s := s.modDie die fun d => { d with coreMap := d.coreMap.put c e }
      if changed then s.modCore c fun k => { k with mapgen := k.mapgen + 1 } else s
  | .xd x e =>
    let old := s.iod.xdEntry n x
    if x != die || old == e.toNat then s
    else
      let s := bump s
      if old / 2 ^ 30 == 1 && e.toNat / 2 ^ 30 != 1 then s.reviveDie die else s
  | .md x e => (if s.iod.mdEntry n x == e.toNat then s else bump s).loseAllTo die x

/-- MAP_UPDATE (R25): a die or MD applies the next entry of the broadcast order, a map update. -/
def mapUpdate (unit : Nat) (s : State) : State :=
  let n := s.nextEntry unit
  match s.iod.log[n]? with
  | some (.map m) =>
    let s := if unit < dieCount then s.applyMap unit n m else s
    s.setApplied unit (n + 1)
  | _ => s

/-! ### Translation invalidates (R141, R373) -/

/-- The job numbers of a JOBID that have not completed. -/
def State.jobsNamed (s : State) (id : Word) : List Nat :=
  (s.jobs.filter fun p => p.2.launch.jobId == id && !p.2.completed).map (·.1)
/-- A page lies in a range of an invalidate; length 0 means every page (R373). -/
def TlbEntry.within (t : TlbEntry) (va len : Nat) : Bool :=
  len == 0 || (decide (t.page * 2 ^ t.log < va + len) && decide (va < (t.page + 1) * 2 ^ t.log))
/-- TRANSLATION_INVALIDATE_APPLY (R141): a unit drops the matching cached translations; commands that translated under
them are noted. -/
def applyInvalidate (unit : Nat) (s : State) : State :=
  let n := s.nextEntry unit
  match s.iod.log[n]? with
  | some (.invalidate id va len _ _) =>
    let js := s.jobsNamed id
    let stays (t : TlbEntry) : Bool := !(js.contains t.job && t.within va len)
    let note (m : Cmd) : Cmd :=
      if !m.isEnded && js.contains m.job && m.pages.any fun p => p.within va len then
        { m with stale := m.stale ++ [n + 1] } else m
    let s := if unit < dieCount then
        let drop (c : Core) : Core := { c with
          tlb := c.tlb.filter stays
          cmds := c.cmds.map note }
        let s : State := { s with
          cores := s.cores.map fun (k, c) => (k, if dieOf k == unit then drop c else c) }
        s.modDie unit fun d => { d with tlb := d.tlb.filter stays }
      else s
    s.setApplied unit (n + 1)
  | _ => s

/-- A request was translated before its die acted on an invalidate of its address, and is not yet acknowledged (R141). -/
def Req.stale (r : Req) (js : List Nat) (seq va len : Nat) : Bool :=
  js.contains r.job && decide (r.epoch < seq) && (len == 0 || overlaps va len r.va r.op.size) && (match r.phase with
    | .translated _ => true
    | .applied _ _ => true
    | _ => false)
/-- INVALIDATE_COMPLETE (R141, R373): every unit has acted on an invalidate, and no request or command translated before
it is still under way; its record is written. -/
def completeInvalidate (seq : Nat) (s : State) : State :=
  if seq == 0 || s.iod.invalidated.contains seq then s
  else match s.iod.log[seq - 1]? with
    | some (.invalidate id va len q tag) =>
      let acted := (List.range 32).all fun u => decide (seq ≤ s.nextEntry u)
      let js := s.jobsNamed id
      let clear := s.cores.all fun p => p.2.reqs.all (fun r => !r.stale js seq va len) &&
        p.2.cmds.all fun m => m.isEnded || !m.stale.contains seq
      if !acted || !clear then s
      else
        let s := { s with iod := { s.iod with invalidated := s.iod.invalidated ++ [seq] } }
        s.record q ⟨id.toNat, seq, 0, 0, 0, 0, 0, tag.toNat⟩
    | _ => s

/-! ### Grants and completion of gangs (R107, R111) -/

/-- GANG_GRANT (R106, R111): a gang whose block is free starts on it. -/
def grant (j g : Nat) (s : State) : State :=
  match s.gang j g, s.job j with
  | some x, some b => if x.state == .queued && s.grantable x b then s.startGang b x else s
  | _, _ => s

/-- Give the cores up that a gang holds; a core that another gang has been granted meanwhile stays with it. -/
def State.freeCores (s : State) (x : Gang) : State :=
  (s.coresOf x).foldl (fun s n => s.modCore n fun c =>
    { c with gang := if c.gang == some (x.job, x.g) then none else c.gang }) s

/-- A released message of a core of a job is still on its way: its destination has not accepted it (R107). -/
def Net.carries (n : Net) (j core : Nat) : Bool := n.msgs.any fun m => m.job == j && m.src == core && m.kind != 4 && m.kind != 5

/-- A gang meets the conditions of completion (R107): every core has retired, its released operations have been accepted,
nothing is outstanding, and no late fault waits. A gang that is being pre-empted can meet them too, and one that is saved once
what its cores released has been accepted: its cores had nothing else outstanding when they were saved (R113), and what they
hold now is another gang's. -/
def State.gangFinished (s : State) (x : Gang) (b : Job) : Bool :=
  x.state != .queued && x.state != .complete && x.retired.length == b.launch.size && !x.charged &&
    (x.cores b.launch).all fun n =>
      let c := s.core n
      !s.net.carries x.job n && (x.state == .saved ||
        (c.task.isNone && c.outbox.isEmpty && c.posts.isEmpty && c.outstanding == 0 && c.late.isEmpty))
/-- GANG_COMPLETE (R107): the conditions of completion hold: the block is free. -/
def completeGang (j g : Nat) (s : State) : State :=
  match s.gang j g, s.job j with
  | some x, some b =>
    if s.gangFinished x b then (s.freeCores x).modGang j g fun y => { y with state := .complete } else s
  | _, _ => s

/-- No request or command of a job is under way (R374). -/
def State.jobQuiet (s : State) (j : Nat) : Bool :=
  s.cores.all fun p => p.2.reqs.all (fun r => r.job != j) && p.2.cmds.all fun m => m.job != j || m.isEnded
/-- Every gang of a job has been placed and has completed. -/
def State.gangsDone (s : State) (j : Nat) (b : Job) : Bool :=
  let l := s.gangs.filter fun x => x.job == j
  l.length == b.launch.ng && l.all fun x => x.state == .complete
/-- The graph instance whose kernel a job is: of its GID, and waiting for this job. One that an ABORT has ended writes no
record of its kernel, and a later instance of the same GID has nothing to do with it (R377, log 89). -/
def State.instanceOf (s : State) (j : Nat) (b : Job) : Option Graph :=
  b.graph.bind fun gid => s.iod.graphs.find? fun g => g.gid == gid && g.job == some j
/-- Whether a job's completion writes a record: always from a queue; of a graph, where its node asks for it (R376). -/
def State.reports (s : State) (j : Nat) (b : Job) : Bool := b.graph.isNone || (match s.instanceOf j b with
  | some g => ((g.nodes[g.node]?).map (·.flag)).getD false
  | none => false)

/-- JOB_COMPLETION_RECORD (R107, R109, R144, R374): the completion record enters the broadcast order and is written to the
CQ of the launch's queue; every store of the job is visible from here on, the job's gangs leave their queues, and its pins
and replicas end. A graph's kernel names its node (R376). -/
def completeJob (j : Nat) (s : State) : State :=
  match s.job j with
  | none => s
  | some b =>
    if b.completed || b.replaying || !(b.stopped || (b.stop.isNone && s.gangsDone j b)) || !s.jobQuiet j then s
    else
      let s := (s.modJob j fun b => { b with completed := true }).broadcast (.completion j)
      let s := { s with
        gangs := s.gangs.filter fun x => x.job != j
        resid := s.resid.filter fun r => r.job != j
        replicas := s.replicas.filter fun r => r.job != j
        net := s.net.showJob j }
      let node := ((s.instanceOf j b).map (·.node)).getD 0
      if s.reports j b then s.record b.queue (b.entry node) else s

/-! ### Pre-emption (R113, R114) -/

/-- The gangs that hold cores of a gang's block. -/
def State.blockers (s : State) (x : Gang) (b : Job) : List Gang :=
  s.gangs.filter fun y => y.die == x.die && (match y.state with
    | .running => true
    | .preempting => true
    | .saving => true
    | _ => false) && s.blocksMeet x y && (x.cores b.launch).any fun n => (s.core n).gang == some (y.job, y.g)

/-- A core of a gang is stopped for debug: the first step of its pre-emption waits (R115). -/
def State.gangHalted (s : State) (x : Gang) : Bool := (s.coresOf x).any fun n => (s.core n).dbg.halted
/-- A gang of a die is being saved: the head of the die's queue is evaluated again once its block is free (R115). -/
def State.savingOn (s : State) (die : Nat) : Bool := s.gangs.any fun y => y.die == die && y.state == .saving
/-- PREEMPT_START (R113, R115): the head of a die's queue is blocked only by gangs of strictly lower effective priority, and
each of them is pre-empted, one with a core stopped for debug once that core has resumed. Nothing is pre-empted while a gang of
the die is being saved. -/
def preempt (die : Nat) (s : State) : State :=
  match s.headGang die with
  | none => s
  | some x => match s.job x.job with
    | none => s
    | some b =>
      let ys := s.blockers x b
      let others := (x.cores b.launch).all fun n => (s.core n).gang.isSome || s.coreFree n
      let lower := ys.all fun y => decide (s.priority y < s.priority x)
      if ys.isEmpty || !lower || !others || b.stop.isSome || b.replaying || !s.depsMet die b || s.xdDown die die ||
          s.savingOn die then s
      else { s with gangs := s.gangs.map fun y =>
          if y.state == .running && !s.gangHalted y && ys.any fun z => z.job == y.job && z.g == y.g then { y with state := .preempting } else y }

/-- What pre-emption saves of a core (R113, R344). -/
def Core.save (c : Core) : SavedCore := ⟨c.loc, c.rings, c.chans, c.spcred, c.taskCount, c.bufacl, c.fault⟩
/-- A barrier's continuation is on its way to a core: it is saved with its run queue (R115, log 60). -/
def Net.continuing (n : Net) (core : Nat) : Bool := n.msgs.any fun m => m.kind == 4 && !m.record && m.dest == core
/-- The save area of a gang (R370). -/
def Launch.saveArea (l : Launch) (g : Nat) : Nat := l.save + g * l.size * saveBytes
/-- PREEMPT_SAVE (R113): every core of the gang is idle with nothing outstanding, and a copy engine saves it. What it saves
stands in the gang; the bytes of the save area in HBM are free values (log 22). A gang that has met the conditions of
completion meanwhile completes, and is not saved (R107). -/
def save (j g : Nat) (s : State) : State :=
  match s.gang j g with
  | none => s
  | some x =>
    let cores := s.coresOf x
    let idle := cores.all fun n =>
      let c := s.core n
      c.task.isNone && c.settled && c.outbox.isEmpty && c.posts.isEmpty && c.late.isEmpty && !c.dbg.halted &&
        !s.net.continuing n
    let finished := ((s.job j).map fun b => s.gangFinished x b).getD false
    if x.state != .preempting || !idle || finished then s
    else
      let kept := cores.map fun n => (s.core n).save
      let s := match s.job j with
        | some b =>
          let bytes := (List.range (b.launch.size * saveBytes)).map (Config.saveByte s.fresh)
          { s.applyAll (b.launch.saveArea g) bytes with fresh := s.fresh + 1 }
        | none => s
      s.modGang j g fun y => { y with state := .saving, saved := kept }

/-- The core after the save: its buffers and rings are zeroed, BUFACL takes its reset value, and its run queue
is saved (R113, R160). -/
def Core.vacate (c : Core) : Core :=
  { c with
    loc := []
    rings := Vector.replicate 16 Ring.zero
    bufacl := Core.reset.bufacl
    chans := mapChans c.chans fun ch => { ch with queue := [], wait := 0 }
    gang := none }
/-- PREEMPT_SAVE_COMPLETE (R113, R160): the buffers are zeroed and the block is free. -/
def vacate (j g : Nat) (s : State) : State :=
  match s.gang j g with
  | none => s
  | some x =>
    if x.state != .saving || x.charged then s
    else ((s.coresOf x).foldl (fun s n => s.modCore n Core.vacate) s).modGang j g fun y => { y with state := .saved }

/-- A core as its saved state restores it (R114). -/
def Core.restore (c : Core) (b : Job) (x : Gang) (core : Nat) (k : SavedCore) : Core :=
  { c.join b x core with
    loc := k.loc
    rings := k.rings
    chans := mapChans k.chans fun ch => { ch with wait := 0 }
    spcred := k.spcred
    taskCount := k.taskCount
    bufacl := k.bufacl
    fault := k.fault }
/-- Discard what a charged gang holds: it is replayed in place of being resumed (R355). -/
def State.clearGang (s : State) (x : Gang) (b : Job) : State :=
  let s := s.cancelAll fun n m => m.job == x.job && x.covers b.launch n
  s.discard fun m => m.job == x.job && x.covers b.launch m.dest
/-- GANG_RESUME (R114, R355): a pre-empted gang whose block is free again is restored on it, and its Barrow records are to
move in before its cores choose a task; one that has been charged starts again instead. -/
def resume (j g : Nat) (s : State) : State :=
  match s.gang j g, s.job j with
  | some x, some b =>
    if x.state != .saved || !s.grantable x b then s
    else if x.charged then (s.clearGang x b).startGang b x
    else
      let s := (x.saved.zip (x.cores b.launch)).foldl (fun s (k, n) => s.modCore n fun c => c.restore b x n k) s
      s.modGang j g fun y => { y with
        state := .running
        saved := []
        resuming := List.range b.launch.size }
  | _, _ => s

/-! ### The events -/

/-- Meanings of the events of one die: an event whose die does not exist faults. -/
def onRealDie (die : Nat) (f : State → State) (s : State) : Host.Outcome State Fault Refusal :=
  if dieCount ≤ die then .fault .noSuchUnit else .next (f s)
/-- Meanings of the events of one die or MD, numbered 0 to 23 and 24 to 31: no other unit exists. -/
def onRealUnit (unit : Nat) (f : State → State) (s : State) : Host.Outcome State Fault Refusal :=
  if 32 ≤ unit then .fault .noSuchUnit else .next (f s)

/-- TRANSLATION_INVALIDATE_APPLY (R141). -/
def execTranslationInvalidateApply (unit : Nat) (s : State) : Host.Outcome State Fault Refusal :=
  onRealUnit unit (applyInvalidate unit) s

/-- INVALIDATE_COMPLETE (R141). -/
def execInvalidateComplete (seq : Nat) (s : State) : Host.Outcome State Fault Refusal := .next (completeInvalidate seq s)

/-- DIE_APPLY_LAUNCH (R110). -/
def execDieApplyLaunch (die : Nat) (s : State) : Host.Outcome State Fault Refusal := onRealDie die (applyLaunch die) s

/-- MAP_UPDATE (R25). -/
def execMapUpdate (unit : Nat) (s : State) : Host.Outcome State Fault Refusal := onRealUnit unit (mapUpdate unit) s

/-- GANG_GRANT (R111). -/
def execGangGrant (job : Nat) (g : Nat) (s : State) : Host.Outcome State Fault Refusal := .next (grant job g s)

/-- GANG_COMPLETE (R107). -/
def execGangComplete (job : Nat) (g : Nat) (s : State) : Host.Outcome State Fault Refusal := .next (completeGang job g s)

/-- JOB_COMPLETION_RECORD (R374). -/
def execJobCompletionRecord (job : Nat) (s : State) : Host.Outcome State Fault Refusal := .next (completeJob job s)

/-- PREEMPT_START (R113). -/
def execPreemptStart (die : Nat) (s : State) : Host.Outcome State Fault Refusal := onRealDie die (preempt die) s

/-- PREEMPT_SAVE (R113). -/
def execPreemptSave (job : Nat) (g : Nat) (s : State) : Host.Outcome State Fault Refusal := .next (save job g s)

/-- PREEMPT_SAVE_COMPLETE (R113). -/
def execPreemptSaveComplete (job : Nat) (g : Nat) (s : State) : Host.Outcome State Fault Refusal := .next (vacate job g s)

/-- GANG_RESUME (R114). -/
def execGangResume (job : Nat) (g : Nat) (s : State) : Host.Outcome State Fault Refusal := .next (resume job g s)

end Sys2Proof.Machine
end

