-- ==== Sys2Proof/Machine/Recovery.lean ====
section
/-! DEFINITION. Job stops, replays, heartbeats, loss of cores, dies and memory dies, votes and rebuilding (R16, R341, R346
to R367). -/

namespace Sys2Proof.Machine

/-! ### Job stop and job replay (R347, R356) -/

/-- The cores that gangs of a job hold. -/
def State.coresHeld (s : State) (j : Nat) : List Nat :=
  (s.cores.filter fun p => p.2.jobNo == j && p.2.gang.isSome).map (·.1)
/-- Steps 1 to 3 of a stop: tasks aborted, commands cancelled, messages discarded. A replay's abort waits where a core is
stopped for debug (R367). -/
def State.windDown (s : State) (j : Nat) (replay : Bool) : State :=
  let s := (s.coresHeld j).foldl (fun s n =>
    if replay && (s.core n).dbg.halted then s else s.abortQuietly n) s
  (s.cancelAll fun _ m => m.job == j).discard fun m => m.job == j
/-- Whether nothing of a job runs or is outstanding on its cores (R347). -/
def State.wound (s : State) (j : Nat) : Bool :=
  (s.coresHeld j).all (fun n => (s.core n).task.isNone && (s.core n).mxq.isEmpty) && s.jobQuiet j
/-- The blocks of a job are freed, and its gangs leave the queues of their dies. -/
def State.release (s : State) (j : Nat) : State :=
  let s := (s.coresHeld j).foldl (fun s n => s.modCore n fun c => { c with gang := none, late := [] }) s
  { s with gangs := s.gangs.filter fun x => x.job != j }

/-- JOB_STOP (R347): a job that is to be stopped is wound down; once nothing is outstanding its blocks are freed. -/
def stopJob (j : Nat) (s : State) : State :=
  match s.job j with
  | none => s
  | some b =>
    if b.stop.isNone || b.stopped then s
    else
      let s := s.windDown j false
      if s.wound j then (s.release j).modJob j fun b => { b with stopped := true, replaying := false } else s

/-- JOB_TIMEOUT (R347, R370): a job whose time limit has passed since its broadcast is to be stopped with TIMEOUT. -/
def timeLimit (j : Nat) (s : State) : State :=
  match s.job j with
  | none => s
  | some b =>
    if b.launch.jtime == 0 || decide (s.iod.ptime < b.broadcastAt + b.launch.jtime * 1000000) then s
    else s.markStop j .timeout

/-- Late ACK_LOST for requests of a job that is being replayed: logged, and no second replay (R367). -/
def State.logLosses (s : State) (j : Nat) : State :=
  (s.coresHeld j).foldl (fun s n => ((s.core n).late.filter fun l => l.trap.code == 0x11).foldl
    (fun s l => s.logSp (.lateAckLost n l.seq)) s) s
/-- JOB_REPLAY (R353, R356): a charged job is wound down without a completion record, and its launch is entered again at a
new SEQ; placement keeps the original one. Uses of collectives count anew. One whose package is lost waits until it is charged
(R360). -/
def replayJob (j : Nat) (s : State) : State :=
  match s.job j with
  | none => s
  | some b =>
    if !b.replaying || b.stop.isSome || b.completed || s.sp.chargeDue.contains j then s
    else
      let s := s.windDown j true
      if !s.wound j then s
      else
        let s := (s.logLosses j).release j
        let s : State := { s with
          cores := s.cores.map fun (n, c) => (n, { c with collUses := c.collUses.filter fun p => p.1 / 65536 != j }) }
        let seq := s.nextSeqNo
        (s.modJob j fun b => { b with
          seq := seq
          replaying := false
          replays := b.replays + 1
          mismatched := [] }).broadcast (.launch j)

/-! ### Instances (R349, R354) -/

/-- The instance of a domain whose replay is due. -/
def Gang.dueInst (x : Gang) (dom : Nat) : Option DomInstance :=
  x.insts.find? fun i => i.dom == dom && i.replaying && !i.done
/-- The running task of a core is enrolled in an instance. -/
def Core.memberOf (c : Core) (dom inst : Nat) : Bool := match c.task with
  | some t => t.enrolled.contains (dom, inst)
  | none => false

/-- Steps 1 to 3 of an instance's replay (R354): running members aborted, except on cores stopped for debug, the commands
that members issued cancelled, those from before a CDO or after a CDC among them, and marked messages discarded. -/
def State.clearInst (s : State) (x : Gang) (i : DomInstance) : State :=
  let mark : InstanceId := ⟨x.job, x.g, i.dom, i.inst⟩
  let s := (s.coresOf x).foldl (fun s n =>
    let c := s.core n
    if c.gang == some (x.job, x.g) && c.memberOf i.dom i.inst && !c.dbg.halted then s.abortQuietly n else s) s
  let issued (n : Nat) (m : Cmd) : Bool := i.members.any fun k => k.core == n && k.serial == m.serial
  (s.cancelAll fun n m => m.marks.contains mark || issued n m).discard fun m => m.marks.contains mark

/-- INSTANCE_REPLAY (R354). -/
def replayInst (j g dom : Nat) (s : State) : State :=
  match s.gang j g with
  | none => s
  | some x => match x.dueInst dom with
    | none => s
    | some i => s.clearInst x i

/-- A message is one of the roots given. -/
def Msg.among (m : Msg) (roots : List Msg) : Bool := roots.any fun k => k.same m
/-- A channel emptied for its roots, with EN set where it has any; a JOIN channel waits for the first of them again. -/
def Channel.restore (ch : Channel) (roots : List Msg) : Channel :=
  match roots with
  | [] => { ch with queue := [] }
  | r :: _ => { ch with
      queue := []
      ctl := ch.ctl ||| 0x80000000#64
      jnext := if wbit ch.ctl 29 then r.ford else ch.jnext }
/-- Put messages into the queues of their channels, each in a free slot it may use (R85): the core, and the messages that
found none. -/
def Core.seat (c : Core) : List Msg → Core × List Msg
  | [] => (c, [])
  | m :: ms => match c.slotFor m.chan with
    | some n => (c.modChan (Fin.ofNat 16 m.chan) fun ch => { ch with queue := ch.queue ++ [{ m with slot := n }] }).seat ms
    | none =>
      let (k, surplus) := c.seat ms
      (k, m :: surplus)
/-- The logged roots of a core placed at the heads of their channels, in logged order, before the messages already queued
there (R354); and the messages that the 32 slots do not hold (log 49). -/
def Core.restoreRoots (c : Core) (roots : List Msg) : Core × List Msg :=
  let queued := (c.chans.toList.flatMap (·.queue)).filter fun m => !m.among roots
  { c with chans := Vector.ofFn fun i => (c.chans[i]).restore (roots.filter fun m => m.chan % 16 == i.val) }.seat (roots ++ queued)
/-- Place the logged roots of a core; what finds no slot goes to the Barrow, ahead of its records, in the same order (R86,
R354, log 49). -/
def State.restoreRoots (s : State) (j g core : Nat) (roots : List Msg) : State :=
  let (c, surplus) := (s.core core).restoreRoots roots
  surplus.foldr (fun m s => match s.gang j g with
    | some x => s.spillRec x (.msg m) true
    | none => s) (s.setCore core c)

/-- REPLAY_ROOT_RESTORE (R354): with every member aborted and the identities of its cores held, an instance's roots are
restored and it takes no more members. -/
def restoreRoots (j g dom : Nat) (s : State) : State :=
  match s.gang j g with
  | none => s
  | some x => match x.dueInst dom with
    | none => s
    | some i =>
      let s := s.clearInst x i
      let cores := s.coresOf x
      let ready := cores.all fun n =>
        let c := s.core n
        !(c.gang == some (j, g) && c.memberOf dom i.inst) &&
          (!(i.roots.any fun p => p.1 == n) || (c.gang == some (j, g) && c.life == .alive && !s.coreEntryDown n))
      if !ready then s
      else
        let s := cores.foldl (fun s n =>
          let roots := (i.roots.filter fun p => p.1 == n).map (·.2)
          if roots.isEmpty then s else s.restoreRoots j g n roots) s
        s.modGang j g fun y => y.modInst dom i.inst fun k => { k with done := true, isSealed := true, roots := [] }

/-- Whether an instance has nothing under way: every member has popped it or been withdrawn, and the requests and commands
issued with it on their task's own stack have ended (R349). -/
def State.instQuiet (s : State) (mark : InstanceId) (i : DomInstance) : Bool :=
  i.members.all (fun m => !m.enrolled) && s.cores.all fun p =>
    p.2.reqs.all (fun r => !r.marks.contains mark) && p.2.cmds.all fun m => m.isEnded || !m.marks.contains mark
/-- DOMAIN_INSTANCE_END (R349, R350): a sealed instance with nothing under way ends, and its log is freed. -/
def endInst (j g dom : Nat) (s : State) : State :=
  match s.gang j g with
  | none => s
  | some x =>
    match x.insts.find? fun i => i.dom == dom && i.isSealed && !i.done && !i.replaying &&
        s.instQuiet ⟨j, g, i.dom, i.inst⟩ i with
    | none => s
    | some i => s.modGang j g fun y => { y with insts := y.insts.map fun k =>
        if k.dom == dom && k.inst == i.inst then { k with done := true, roots := [] }
        else if k.dom == dom && k.done then { k with replaying := false }
        else k }

/-! ### Gang replay (R355) -/

/-- GANG_REPLAY (R353, R355): a charged gang's tasks are aborted, its commands cancelled and its messages discarded; once
nothing is outstanding on any core, gang start is repeated. A gang saved by pre-emption waits for its turn (R114). -/
def replayGang (j g : Nat) (s : State) : State :=
  match s.gang j g, s.job j with
  | some x, some b =>
    if !x.charged || !(x.state == .running || x.state == .preempting || x.state == .saving) || b.stop.isSome || b.replaying
    then s
    else
      let cores := x.cores b.launch
      let s := cores.foldl (fun s n => if (s.core n).dbg.halted then s else s.abortQuietly n) s
      let s := s.clearGang x b
      let ready := cores.all fun n =>
        let c := s.core n
        c.task.isNone && c.settled && c.late.isEmpty && c.life == .alive && !s.coreEntryDown n
      if ready && !s.xdDown x.die x.die then s.startGang b x else s
  | _, _ => s

/-- An abort of the running task that was put off while its core was stopped for debug (R354, R367). -/
def State.dueAbort (s : State) (core : Nat) : Bool :=
  let c := s.core core
  match c.task, c.gang with
  | some t, some (j, g) =>
    let due : Bool := match s.job j with
      | some b => b.replaying
      | none => false
    let member : Bool := match s.gang j g with
      | some x => x.charged || x.insts.any fun i => i.replaying && !i.done && t.enrolled.contains (i.dom, i.inst)
      | none => false
    due || member
  | _, _ => false

/-! ### Loss of a core (R16, R352, R358 to R360, R365) -/

/-- Whether another instance of a list stands below an instance on the stack that opened it; the bound is the depth of a
stack. -/
def Gang.hasBelow (x : Gang) (l : List DomInstance) (i : DomInstance) : Nat → Bool
  | 0 => false
  | k + 1 => match i.below with
    | none => false
    | some (d, n) => l.any (fun o => o.dom == d && o.inst == n) || (match x.inst d n with
      | some o => x.hasBelow l o k
      | none => false)
/-- The tasks of a core that enrolled in instances, by serial number. -/
def membersOf (l : List DomInstance) (core : Nat) : List Nat :=
  ((l.flatMap (·.members)).filterMap fun m => if m.core == core then some m.serial else none).eraseDups
/-- CHOOSING THE SCOPE of the loss of a core (R352): the outermost of its open instances where every task since gang start
enrolled in one and none issued a COLL; else the gang. Members whose instance is being rerun count (R354). A gang that is
being saved is replayed, and one saved before needs nothing (R367). -/
def State.chargeLoss (s : State) (core : Nat) : State :=
  let c := s.core core
  match c.gang with
  | none => s
  | some (j, g) => match s.gang j g with
    | none => s
    | some x =>
      let own := x.insts.filter fun i => !i.done && i.members.any fun m => m.core == core
      let covered := (membersOf (x.insts.filter fun i => !i.done || i.replaying) core).length == c.taskCount.toNat
      if x.state == .saving || own.isEmpty || !covered || own.any (·.coll) then s.chargeGang j g
      else (own.filter fun i => !x.hasBelow own i 4).foldl (fun s i => s.chargeInst j g i.dom i.inst 5) s

/-- PARITY_LOCAL (R352, R358): a core detects an uncorrectable error in its own storage, halts, and reports it. -/
def parityError (core : Nat) (s : State) : State :=
  if (s.core core).life != .alive then s
  else ((s.loseUnit core).modCore core fun c => { c with life := .failed }).logSp (.parity core)

/-- The monitor declares a core failed (R16, R352, R358, R360): its core-map entry is to go DOWN and the scope is chosen;
a second failure of its cluster, its spare in use or still wanted by the first, makes the die suspect instead. -/
def State.declareFailed (s : State) (core : Nat) : State :=
  let s := if (s.core core).life == .alive then s.loseUnit core else s
  let s := s.modCore core fun c => { c with life := .failed }
  let s : State := { s with sp := { s.sp with failed := s.sp.failed ++ [core] } }
  let s := s.logSp (.coreFailed core)
  let die := dieOf core
  let second := (s.die die).csUsed.contains (clusterOf core) ||
    s.sp.failed.any fun n => n != core && dieOf n == die && clusterOf n == clusterOf core
  if second then { s with sp := { s.sp with suspect := s.sp.suspect ++ [die] } }
  else (s.broadcast (.map (.core core (BitVec.ofNat 8 (0x40 + s.coreEntry core % 16))))).chargeLoss core

/-- The end of a monitor interval for one core: an interval without a heartbeat counts unless the core was stopped for
debug in it, or its die was; the third declares the core failed (R358, R387). What the monitor holds is 0 after a heartbeat in
the interval, else one more than the intervals counted since the last one, with 16 added where this one is not to count. -/
def State.countInterval (s : State) (core : Nat) : State :=
  let c := s.core core
  let n := ((s.die (dieOf core)).beats.find core).getD 0
  let put (k : Nat) : State := s.modDie (dieOf core) fun d => { d with beats := d.beats.put core k }
  if s.sp.failed.contains core then s
  else if c.dbg.halted || (s.die (dieOf core)).stopped || 16 ≤ n then put (max 1 (n % 16))
  else if n < 3 then put (n + 1)
  else (put 0).declareFailed core
/-- HEARTBEAT_INTERVAL_END (R358): an interval of 2^16 cycles ends for the cores of a die. -/
def endInterval (die : Nat) (s : State) : State :=
  if s.xdDown die die then s else (dieCores die).foldl State.countInterval s

/-- HEARTBEAT (R358): the cycles pass in which a core's CYCLES reaches its next multiple of 2^16. -/
def heartbeat (core : Nat) (s : State) : State := s.runCycles core (65536 - (s.core core).cycles.toNat % 65536)

/-- The registers of a spare core when it takes an identity (R127, R160, R354, R359, R360): zeroed, ring
descriptors among them, the window and BUFACL rewritten from the packet of the gang that holds the core. -/
def State.asSpare (s : State) (core : Nat) (c : Core) : Core :=
  let c := { c.onSpare (Config.spareCycles s.fresh) with rings := Vector.replicate 16 Ring.zero }
  match s.gangOf c, s.job c.jobNo with
  | some x, some b => { c with loc := b.launch.buffers x core, bufacl := b.launch.bufacl }
  | _, _ => { c with loc := [], bufacl := Core.reset.bufacl }
/-- SPARE_CORE_TAKEOVER (R16, R359, R360, R365): the spare of the cluster takes the identity of a failed core whose entry
is DOWN; the entry is to be ACTIVE again, with slot 8. -/
def takeover (core : Nat) (s : State) : State :=
  let c := s.core core
  let die := dieOf core
  if c.life == .alive || !s.sp.failed.contains core || !s.coreEntryDown core ||
      (s.die die).csUsed.contains (clusterOf core) then s
  else
    let s := { s.setCore core (s.asSpare core c) with fresh := s.fresh + 1 }
    let s := s.modDie die fun d => { d with
      csUsed := d.csUsed ++ [clusterOf core]
      beats := d.beats.put core 0 }
    let s := s.broadcast (.map (.core core 0x08))
    { s with sp := { s.sp with
      rr := true
      failed := s.sp.failed.filter fun n => n != core
      quarantine := if s.sp.quarantine.contains core then s.sp.quarantine else s.sp.quarantine ++ [core]
      readings := s.sp.readings.map fun r => r.lossOf [core] } }

/-! ### Loss of dies, memory dies and packages (R351, R360 to R364) -/

/-- The die-map entry in force at the end of the broadcast order. -/
def State.xdNow (s : State) (die : Nat) : Nat := s.iod.xdEntry s.iod.log.length die
/-- The memory-die-map entry in force at the end of the broadcast order. -/
def State.mdNow (s : State) (md : Nat) : Nat := s.iod.mdEntry s.iod.log.length md
/-- An entry with STATE DOWN (R23). -/
def downEntry (e : Nat) : BitVec 32 := BitVec.ofNat 32 (2 ^ 30 + e % 2 ^ 30)
/-- An entry of a remote spare (R23, log 32): ACTIVE on a remote package, at a Reotil address and one of the physical dies
that a package has. -/
def State.remoteEntry (s : State) (dies : Nat) : BitVec 32 :=
  let w := (Config.remoteSpare s.fresh).toNat
  BitVec.ofNat 32 (2 ^ 31 + w / 2 ^ 14 * 2 ^ 14 + w % 2 ^ 14 % dies)

/-- What the loss of a die leaves of one of its cores: its network interface's state is gone too. -/
def Core.loseAll (c : Core) : Core :=
  { c.lose with
    life := .failed
    reqs := []
    outbox := []
    posts := []
    late := []
    chans := mapChans c.chans fun ch => { ch with queue := [] } }
/-- What the loss of a compute die takes (R24, R360): its cores, engines and cache are gone. -/
def State.loseCores (s : State) (die : Nat) : State :=
  let on (n : Nat) : Bool := dieOf n == die
  let s := s.cancelAll fun n _ => on n
  let s := (s.cores.filter fun p => on p.1).foldl (fun s p => ((s.withdraw p.1).dropFetch p.1).modCore p.1 Core.loseAll) s
  { s with net := { s.net with
    early := s.net.early.filter fun e => !on e.core
    updates := s.net.updates.filter fun u => u.author.engine || !on u.author.core || u.crier.isSome } }
/-- The loss of a compute die (R351, R360): the gangs on it that have started are charged, pre-empted ones too, which are
replayed in place of being resumed (R355). -/
def State.loseDie (s : State) (die : Nat) : State :=
  let s := s.loseCores die
  (s.gangs.filter fun x => x.die == die && x.started && x.state != .complete).foldl
    (fun s x => s.chargeGang x.job x.g) s

/-- The on-package spare a lost die takes: one of the same parity if it can (R360). -/
def pickSpare (spares : List Nat) (pdie : Nat) : Option Nat :=
  match spares.find? fun p => p % 2 == pdie % 2 with
  | some p => some p
  | none => spares.head?
/-- A logical compute die is declared lost (R360): its entry goes DOWN, its gangs are charged, and an on-package spare takes
the identity where there is one. -/
def State.declareDie (s : State) (die : Nat) : State :=
  let e := s.xdNow die
  let s := (s.broadcast (.map (.xd die (downEntry e)))).loseDie die
  let local? := e / 2 ^ 30 == 0
  let s : State := { s with sp := { s.sp with
    rr := true
    suspect := s.sp.suspect.filter fun u => u != die
    failed := s.sp.failed.filter fun n => dieOf n != die
    physFailed := if local? then s.sp.physFailed ++ [e % 32] else s.sp.physFailed } }
  match pickSpare s.sp.spares (e % 32) with
  | some p =>
    ({ s with sp := { s.sp with spares := s.sp.spares.filter fun q => q != p } } : State).broadcast
      (.map (.xd die (BitVec.ofNat 32 p)))
  | none => { s with sp := { s.sp with lost := s.sp.lost ++ [die] } }

/-- A frame of 64 KiB lies in the erasure-protected units of the package. -/
def State.frameProtected (s : State) (frame : Nat) : Bool := match s.erasure with
  | some e => (e.unitOf (frame * 65536)).isSome
  | none => false
/-- The jobs that hold a frame a test picks. -/
def State.holdersOf (s : State) (p : Nat → Bool) : List Nat := ((s.iod.frames.filter fun f => p f.1).map (·.2)).eraseDups
/-- Stop jobs with MEMLOST (R360, R362). -/
def State.stopLost (s : State) (js : List Nat) : State := js.foldl (fun s j => s.markStop j .memlost) s

/-- A memory die's entry is DOWN at the end of the broadcast order. -/
def State.mdLost (s : State) (md : Nat) : Bool := s.mdNow md / 2 ^ 30 == 1
/-- A lost symbol of a stripe can be rebuilt (R331, R360, R362): no third symbol of its stripe is lost, and the memory dies that
hold it, where it is the package's own, are ACTIVE again. -/
def State.rebuildable (s : State) (e : Erasure) (l : Nat × Nat) : Bool :=
  decide ((e.lost.filter fun k => k.1 == l.1).length < 3) && (l.2 != symbolAt e.position l.1 || (List.range 8).all fun md => !s.mdLost md)
/-- What a loss of memory left is not made good yet (R360): an entry is DOWN, or one of the package's own symbols is still to be
rebuilt that can be. -/
def State.lossOpen (s : State) : Bool := (List.range 8).any s.mdLost || (match s.erasure with
  | some e => e.lost.any fun l => l.2 == symbolAt e.position l.1 && s.rebuildable e l
  | none => false)
/-- The last steps of a recovery (R360): once what a loss left is made good, the jobs that held unprotected frames on a lost
memory die are stopped with MEMLOST, and those of a lost package are charged. -/
def State.settleLoss (s : State) : State :=
  if s.lossOpen then s
  else
    let s' := s.sp.chargeDue.foldl (fun s j => if ((s.job j).bind (·.stop)).isSome then s
        else (s.modJob j fun b => { b with replaying := false }).chargeJob j)
      (s.stopLost s.sp.memDue)
    { s' with sp := { s'.sp with
      memDue := []
      chargeDue := [] } }

/-- A memory die is declared lost (R360, R364): its entry goes DOWN, what it held is gone, and its package's symbol of every
stripe is to be rebuilt. Jobs that hold unprotected frames on it are to be stopped once that is done, and in a package of no
erasure group at once. -/
def State.declareMd (s : State) (md : Nat) : State :=
  let e := s.mdNow md
  let s := s.broadcast (.map (.md md (downEntry e)))
  let stays (pa : Nat) : Bool := homeOf pa != md
  let s : State := { s with
    mem := s.mem.filter fun c => stays c.1
    net := { s.net with
      lags := s.net.lags.filter fun l => stays l.pa
      updates := s.net.updates.filter fun u => stays u.pa }
    iod := { s.iod with errMap := s.iod.errMap.filter fun g => stays (g * 64) }
    erasure := s.erasure.map fun x => { x with
      lost := (x.lost ++ (List.range x.frames.length).map fun u => (u, symbolAt x.position u)).eraseDups }
    sp := { s.sp with
      rr := true
      suspect := s.sp.suspect.filter fun u => u != 24 + md
      physFailed := if e / 2 ^ 30 == 0 then s.sp.physFailed ++ [26 + e % 32] else s.sp.physFailed
      lost := s.sp.lost ++ [24 + md] } }
  let js := s.holdersOf fun f => !s.frameProtected f
  if s.erasure.isNone then s.stopLost js else { s with sp := { s.sp with memDue := (s.sp.memDue ++ js).eraseDups } }

/-- A remote spare takes the identity of a unit declared lost before (R360, log 32); where nothing is to be rebuilt, the recovery
ends with it. -/
def State.installRemote (s : State) (unit : Nat) : State :=
  let m : MapChange := if unit < dieCount then .xd unit (s.remoteEntry 26) else .md (unit - dieCount) (s.remoteEntry 8)
  let s := s.broadcast (.map m)
  ({ s with
    fresh := s.fresh + 1
    sp := { s.sp with lost := s.sp.lost.filter fun u => u != unit } } : State).settleLoss

/-- A package of the erasure group is lost (R351, R360): its symbol of every stripe is to be rebuilt; where it is this
package, a spare package takes its place, and the jobs with gangs on it do nothing more: once the group is rebuilt they are
charged and replayed, and none is stopped with MEMLOST, which R360 names for the loss of a memory die (log 52). -/
def State.losePackage (s : State) (e : Erasure) (p : Nat) : State :=
  let lost := (e.lost ++ (List.range e.frames.length).map fun u => (u, symbolAt p u)).eraseDups
  let s : State := { s with
    erasure := some { e with lost := lost }
    sp := { s.sp with rr := true } }
  if p != e.position then s
  else
    let s := (List.range dieCount).foldl State.loseCores s
    let js := (s.jobs.filter fun b => !b.2.completed && !b.2.replaying && b.2.stop.isNone).map (·.1)
    let s := js.foldl (fun s j => s.modJob j fun b => { b with replaying := true }) s
    ({ s with
      mem := []
      cores := s.cores.map fun (n, c) => (n, { c with life := .alive })
      sp := { s.sp with chargeDue := (s.sp.chargeDue ++ js).eraseDups } } : State).settleLoss

/-- A service processor works: it has come up and does not restart on a new image (R379, R382). -/
def Sp.works (p : Sp) (b : Bool) : Bool := (if b then p.spbUp else p.spaUp) && p.restarting != some b
/-- The words of SPA and SPB in a vote (R364): one that is down or restarts says nothing, and one declared lost speaks by its
package's peer majority. -/
def State.words (s : State) (v : Vote) : Bool × Bool :=
  (if s.sp.replaced.contains false then decide (6 ≤ v.peers) else v.spa && s.sp.works false,
    if s.sp.replaced.contains true then decide (6 ≤ v.peers) else v.spb && s.sp.works true)

/-- A vote on a die or MD, numbered as a unit (R364). -/
def State.voteUnit (s : State) (v : Vote) (unit : Nat) : State :=
  let (a, b) := s.words v
  if a != b then ({ s with sp := { s.sp with rr := true } } : State).logSp (.disagreement v.subject)
  else if !a || (s.erasure.isSome && decide (v.peers < 6)) then s
  else if s.sp.lost.contains unit then s.installRemote unit
  else if unit < dieCount then s.declareDie unit
  else s.declareMd (unit - dieCount)

/-- PEER_VOTE (R16, R360, R364): a unit is quarantined or declared lost where the service processors and peers that its
kind needs agree. A later vote on a lost unit stands for the service processors' having found a remote spare. -/
def vote (v : Vote) (s : State) : State :=
  match v.subject with
  | .core n =>
    let (a, b) := s.words v
    if (a || b) && s.sp.failed.contains n && !s.sp.quarantine.contains n then
      ({ s with sp := { s.sp with quarantine := s.sp.quarantine ++ [n] } } : State).modCore n fun c =>
        { c with life := .quarantined }
    else s
  | .xd n => if n < dieCount then s.voteUnit v n else s
  | .md n => if n < 8 then s.voteUnit v (dieCount + n) else s
  | .package p => match s.erasure with
    | some e => if 6 ≤ v.peers && p < 12 then s.losePackage e p else s
    | none => s
  | .serviceProcessor b =>
    let other := if b then (s.words v).1 else (s.words v).2
    if other && decide (6 ≤ v.peers) && !s.sp.replaced.contains b then
      let s := s.logSp (.processorFailed b)
      { s with sp := { s.sp with
        rr := true
        replaced := s.sp.replaced ++ [b]
        spaUp := s.sp.spaUp && b
        spbUp := s.sp.spbUp && !b } }
    else s

/-- DIE_HEARTBEAT (R358): the service processors note a unit's heartbeat. -/
def dieBeat (unit : Nat) (s : State) : State :=
  if s.sp.lost.contains unit then s
  else { s with sp := { s.sp with dieBeats := s.sp.dieBeats.set! unit s.iod.ptime } }
/-- DIE_HEARTBEAT_TIMEOUT (R3, R358): three heartbeats, one each 100 µs of package time, are missing: the unit is suspect. -/
def dieSilent (unit : Nat) (s : State) : State :=
  if s.sp.suspect.contains unit || decide (s.iod.ptime < s.sp.dieBeats.toList.getD unit 0 + 300000) then s
  else { s with sp := { s.sp with suspect := s.sp.suspect ++ [unit] } }

/-! ### Rebuilding (R331, R362) -/

/-- The product of two elements of GF(2^8) (R331). -/
def gmul (a b : Byte) : Byte := (List.range 8).foldl (fun r i => if a.getLsbD i then r ^^^ gpow i b else r) 0
/-- The inverse of an element: its 254th power. -/
def ginv (a : Byte) : Byte := (List.range 253).foldl (fun r _ => gmul r a) a

/-- A byte of data symbol `x` of a stripe from the symbols that survive (R331, R362): through P0 where it is the only data
symbol lost and P0 survives, through P1 where P0 is lost too, through both where two data symbols are lost. `d` gives the
surviving bytes. -/
def dataByte (d : Nat → Byte) (lost : List Nat) (x : Nat) : Byte :=
  let here := (List.range 10).filter fun i => !lost.contains i
  let s0 := here.foldl (fun r i => r ^^^ d i) (d 10)
  let s1 := here.foldl (fun r i => r ^^^ gpow i (d i)) (d 11)
  match lost.find? fun y => y != x && decide (y < 10) with
  | some y => gmul (s1 ^^^ gpow y s0) (ginv (gpow x 1 ^^^ gpow y 1))
  | none => if lost.contains 10 then gpow (255 - x) s1 else s0
/-- A byte of a symbol of a stripe from the symbols that survive (R331, R362). -/
def rebuiltByte (d : Nat → Byte) (lost : List Nat) (x : Nat) : Byte :=
  let full (i : Nat) : Byte := if lost.contains i then dataByte d lost i else d i
  if x < 10 then dataByte d lost x
  else if x == 10 then (List.range 10).foldl (fun r i => r ^^^ full i) 0
  else (List.range 10).foldl (fun r i => r ^^^ gpow i (full i)) 0

/-- The order of rebuilding lets a stripe be rebuilt next: of those that can be rebuilt, the lost units first asked for come
first, then increasing u (R362). -/
def State.isNext (s : State) (e : Erasure) (u : Nat) : Bool :=
  let open' := e.lost.filter (s.rebuildable e)
  match e.wanted.find? fun k => open'.any fun l => l.1 == k with
  | some k => k == u
  | none => open'.all fun l => decide (u ≤ l.1)

/-- STRIPE_REBUILD (R331, R360, R362): a lost symbol of a stripe is rebuilt byte by byte once the memory dies that hold it are
ACTIVE and no parity update of the package is under way; a stripe with three or more lost symbols is lost, and the jobs that
hold its frame are stopped. With the last of the package's own symbols the recovery goes on to its last steps. -/
def rebuild (u : Nat) (sym : Fin 12) (s : State) : State :=
  match s.erasure with
  | none => s
  | some e =>
    let lost := (e.lost.filter fun l => l.1 == u).map (·.2)
    if !lost.contains sym.val then s
    else if 3 ≤ lost.length then (s.stopLost (s.holdersOf fun f => e.unitOf (f * 65536) == some u)).settleLoss
    else if !s.rebuildable e (u, sym.val) || !s.isNext e u || !s.net.parity.isEmpty then s
    else
      let bytes := (List.range 65536).map fun b => rebuiltByte (fun i => s.symbolByte e u i b) lost sym.val
      let s := (bytes.zipIdx).foldl (fun s (v, b) => match s.erasure with
        | some e => s.setSymbol e u sym.val b v
        | none => s) s
      ({ s with erasure := s.erasure.map fun e => { e with
        lost := e.lost.filter fun l => !(l.1 == u && l.2 == sym.val)
        wanted := if lost.length == 1 then e.wanted.filter fun k => k != u else e.wanted } } : State).settleLoss

/-! ### The events -/

/-- JOB_STOP (R347). -/
def execJobStop (job : Nat) (s : State) : Host.Outcome State Fault Refusal := .next (stopJob job s)

/-- JOB_TIMEOUT (R347). -/
def execJobTimeout (job : Nat) (s : State) : Host.Outcome State Fault Refusal := .next (timeLimit job s)

/-- HEARTBEAT (R358). -/
def execHeartbeat (core : Nat) (s : State) : Host.Outcome State Fault Refusal := onRealCore core (heartbeat core) s

/-- HEARTBEAT_INTERVAL_END (R358). -/
def execHeartbeatIntervalEnd (die : Nat) (s : State) : Host.Outcome State Fault Refusal := onRealDie die (endInterval die) s

/-- PARITY_LOCAL (R358). -/
def execParityLocal (core : Nat) (s : State) : Host.Outcome State Fault Refusal := onRealCore core (parityError core) s

/-- DIE_HEARTBEAT (R358). -/
def execDieHeartbeat (unit : Nat) (s : State) : Host.Outcome State Fault Refusal := onRealUnit unit (dieBeat unit) s

/-- DIE_HEARTBEAT_TIMEOUT (R358). -/
def execDieHeartbeatTimeout (unit : Nat) (s : State) : Host.Outcome State Fault Refusal := onRealUnit unit (dieSilent unit) s

/-- PEER_VOTE (R364). -/
def execPeerVote (v : Vote) (s : State) : Host.Outcome State Fault Refusal := .next (vote v s)

/-- SPARE_CORE_TAKEOVER (R360). -/
def execSpareCoreTakeover (core : Nat) (s : State) : Host.Outcome State Fault Refusal := onRealCore core (takeover core) s

/-- INSTANCE_REPLAY (R354). -/
def execInstanceReplay (job : Nat) (g : Nat) (dom : Nat) (s : State) : Host.Outcome State Fault Refusal :=
  .next (replayInst job g dom s)

/-- REPLAY_ROOT_RESTORE (R354). -/
def execReplayRootRestore (job : Nat) (g : Nat) (dom : Nat) (s : State) : Host.Outcome State Fault Refusal :=
  .next (restoreRoots job g dom s)

/-- GANG_REPLAY (R355). -/
def execGangReplay (job : Nat) (g : Nat) (s : State) : Host.Outcome State Fault Refusal := .next (replayGang job g s)

/-- JOB_REPLAY (R356). -/
def execJobReplay (job : Nat) (s : State) : Host.Outcome State Fault Refusal := .next (replayJob job s)

/-- DOMAIN_INSTANCE_END (R349). -/
def execDomainInstanceEnd (job : Nat) (g : Nat) (dom : Nat) (s : State) : Host.Outcome State Fault Refusal :=
  .next (endInst job g dom s)

/-- STRIPE_REBUILD (R362). -/
def execStripeRebuild (stripe : Nat) (symbol : Fin 12) (s : State) : Host.Outcome State Fault Refusal :=
  .next (rebuild stripe symbol s)

end Sys2Proof.Machine
end

