-- ==== Sys2Proof/Machine/DebugPath.lean ====
section
/-! DEFINITION. The debug path: halts, the trace and state-log rings, debugger accesses, and droop capture (R383 to R390,
R393 to R396). -/

namespace Sys2Proof.Machine

/-! ### Halting and resuming (R384 to R387) -/

/-- Deliver the late faults held for a core, at most as many as it holds (R348, R386). -/
def State.deliverAll (s : State) (core : Nat) : Nat → State
  | 0 => s
  | n + 1 => (deliverLate core s).deliverAll core n
/-- A core resumes (R385, R386): aborts put off by the halt take place, late faults are delivered, and the first bundle does
not check breakpoints; a halt of its die is over for it (R387). Its monitor does not count the interval in progress (R358).
Messages that waited at the head of an unhandled channel 15 are acted on (R346). -/
def State.resumeCore (s : State) (core : Nat) : State :=
  if !(s.core core).dbg.halted then s
  else
    let s := s.modCore core fun c => { c with dbg := { c.dbg with
      halted := false
      cause := 0
      next := 0
      skipBp := true
      dieHalt := false } }
    let s := s.modDie (dieOf core) fun d =>
      let n := (d.beats.find core).getD 0
      { d with beats := d.beats.put core (if n < 16 then n + 16 else n) }
    let s := if s.dueAbort core then s.abortQuietly core else s
    ((s.deliverAll core (s.core core).late.length).modCore core Core.haltIdle).sweep15 core 64

/-- DBGCTL (R384, R385): the debug path writes it; a requested halt of an idle core takes effect at once. -/
def writeDbgctl (core : Nat) (v : Word) (s : State) : State :=
  s.modCore core fun c => ({ c with dbg := { c.dbg with dbgctl := v &&& 7 } } : Core).haltIdle
/-- DBGSTAT (R384, R386): writing 1 to HALTED resumes the core. -/
def writeDbgstat (core : Nat) (v : Word) (s : State) : State := if wbit v 63 then s.resumeCore core else s

/-- HALT_DIE (R387): every core of a die is to halt as for HALTREQ. -/
def haltAll (die : Nat) (s : State) : State :=
  (dieCores die).foldl (fun s n => s.modCore n fun c =>
    ({ c with dbg := { c.dbg with dieHalt := true } } : Core).haltIdle) (s.modDie die fun d => { d with halting := true })
/-- RESUME_DIE (R387): every core of a die resumes; its own HALTREQ or SSTEP may halt it again. -/
def resumeAll (die : Nat) (s : State) : State :=
  (dieCores die).foldl (fun s n =>
    (s.modCore n fun c => { c with dbg := { c.dbg with dieHalt := false } }).resumeCore n) s

/-! ### The trace and state-log rings (R388 to R390, R393 to R395) -/

/-- The bytes of a ring whose base register has the layout of TRCBASE (R388). -/
def ringBytes (base : Word) : Nat := 2 ^ (12 + wbits base 3 0)
/-- The 32 bytes of a trace record (R389). -/
def TraceRec.bytes (r : TraceRec) : List Byte :=
  natToBytes 8 r.cycles.toNat ++ natToBytes 8 (r.type * 2 ^ 56 + wbits r.addr 51 3 * 8) ++ natToBytes 8 r.value.toNat ++
    natToBytes 8 (r.count % 2 ^ 32)
/-- TRACE_RECORD_WRITE (R389, R390): the oldest queued record is applied at its place of the ring, and TRCWR advances. -/
def writeTrace (core : Nat) (s : State) : State :=
  let d := (s.core core).dbg
  match d.trcQ with
  | [] => s
  | r :: rest =>
    let n := d.trcwr.toNat % (ringBytes d.trcbase / 32)
    (s.applyAll (wbits d.trcbase 51 12 * 4096 + 32 * n) r.bytes).modCore core fun c =>
      { c with dbg := { c.dbg with trcQ := rest, trcwr := c.dbg.trcwr + 1 } }
/-- Write at most `n` queued records. -/
def State.flushTrace (s : State) (core : Nat) : Nat → State
  | 0 => s
  | n + 1 => (writeTrace core s).flushTrace core n
/-- TRCCTL (R388, R390): setting EN clears the counts; clearing it writes every queued record first. -/
def writeTrcctl (core : Nat) (v : Word) (s : State) : State :=
  let was := wbit (s.core core).dbg.trcctl 0
  let s := if was && !wbit v 0 then s.flushTrace core (s.core core).dbg.trcQ.length else s
  s.modCore core fun c =>
    let d := { c.dbg with trcctl := v &&& 0x3F }
    { c with dbg := if !was && wbit v 0 then { d with
        trcwr := 0
        trcdrop := 0
        trcIssued := 0
        trcLost := 0 } else d }

/-- STATE_LOG_RECORD_WRITE (R393, R395): the oldest queued record is written at its place of the ring, which wraps. -/
def writeLog (core : Nat) (s : State) : State :=
  let d := (s.core core).dbg
  match d.slQ with
  | [] => s
  | r :: rest =>
    let n := d.slwr.toNat % (ringBytes d.slbase / 8)
    (s.applyAll (wbits d.slbase 51 12 * 4096 + 8 * n) (natToBytes 8 r.toNat)).modCore core fun c =>
      { c with dbg := { c.dbg with slQ := rest, slwr := c.dbg.slwr + 1 } }
/-- Write at most `n` queued records. -/
def State.flushLog (s : State) (core : Nat) : Nat → State
  | 0 => s
  | n + 1 => (writeLog core s).flushLog core n
/-- SLCTL (R393, R395): setting EN starts the count with a record of the current state, its DELTA 0; records still queued
from before are written first. -/
def writeSlctl (core : Nat) (v : Word) (s : State) : State :=
  let was := wbit (s.core core).dbg.slctl 0
  if was || !wbit v 0 then s.modCore core fun c => { c with dbg := { c.dbg with slctl := v &&& 1 } }
  else
    let s := s.flushLog core (s.core core).dbg.slQ.length
    let cond := s.condition core
    s.modCore core fun c => { c with dbg := { c.dbg with
      slctl := 1
      slwr := 0
      slQ := [word (cond * 2 ^ 62)]
      slState := cond
      slSince := c.cycles
      slLost := false } }

/-- DEBUG_REGISTER_WRITE (R383, R384, R388, R393): a register of the debug block without a row of its own takes its RW
fields; read-only and unassigned registers stay. -/
def writeDebugReg (core num : Nat) (v : Word) (s : State) : State :=
  s.modCore core fun c => { c with dbg := match num with
    | 0x202 => { c.dbg with bp0 := v &&& 0x800FFFFFFFFFFFF8#64 }
    | 0x203 => { c.dbg with bp1 := v &&& 0x800FFFFFFFFFFFF8#64 }
    | 0x209 => { c.dbg with trcbase := v &&& 0x000FFFFFFFFFF00F#64 }
    | 0x219 => { c.dbg with slbase := v &&& 0x000FFFFFFFFFF00F#64 }
    | _ => c.dbg }

/-! ### Debugger accesses (R386) -/

/-- A loop register by its place: lb0, le0, lc0, lb1, le1, lc1. -/
def Regs.loop (r : Regs) (n : Fin 6) : Word :=
  let k : Fin 2 := Fin.ofNat 2 (n.val / 3)
  match n.val % 3 with
  | 0 => r.lb[k]
  | 1 => r.le[k]
  | _ => r.lc[k]
/-- Write a loop register. -/
def Regs.setLoop (r : Regs) (n : Fin 6) (w : Word) : Regs :=
  let k : Fin 2 := Fin.ofNat 2 (n.val / 3)
  match n.val % 3 with
  | 0 => { r with lb := r.lb.set k w }
  | 1 => { r with le := r.le.set k w }
  | _ => { r with lc := r.lc.set k w }

/-- What a read of the debug path returns; a byte outside the buffers and the control space has no value. -/
def Core.debugRead (c : Core) (a : DebugAccess) : Option Nat :=
  match a with
  | .readX n => some (c.regs.getX n).toNat
  | .readV n => some (c.regs.v[n]).toNat
  | .readK n => some (c.regs.getK n).toNat
  | .readLoop n => some (c.regs.loop n).toNat
  | .readByte la =>
    let b := bitsN la.toNat 31 30
    let off := bitsN la.toNat 17 0
    if bitsN la.toNat 29 18 != 0 then none
    else if b == 3 then
      if off < 0x100 then some (c.loadLocal 3 (off / 8 * 8) 8 / 2 ^ (8 * (off % 8)) % 256) else none
    else if off < bufSize b then some (c.loc.read (locKey b off)).toNat
    else none
  | _ => none
/-- A write of the debug path; the constant window, the control space and bytes that do not exist are refused. -/
def Core.debugWrite (c : Core) (a : DebugAccess) : Core :=
  match a with
  | .writeX n w => { c with regs := c.regs.setX n w }
  | .writeV n w => { c with regs := c.regs.setV n w }
  | .writeK n w => { c with regs := c.regs.setK n w }
  | .writeLoop n w => { c with regs := c.regs.setLoop n w }
  | .writeByte la v =>
    let b := bitsN la.toNat 31 30
    let off := bitsN la.toNat 17 0
    if bitsN la.toNat 29 18 != 0 || b == 3 || decide (bufSize b ≤ off) || (b == 0 && decide (off < 0x800)) then c
    else { c with loc := c.loc.write (locKey b off) v }
  | _ => c
/-- DEBUG_PATH_ACCESS (R386): the debug path reads or writes a halted core; of a running core it reaches nothing here. -/
def debugAccess (core : Nat) (a : DebugAccess) (s : State) : State :=
  let c := s.core core
  if !c.dbg.halted then s
  else
    let s : State := { s with sp := { s.sp with read := c.debugRead a } }
    s.setCore core (c.debugWrite a)

/-! ### Droop capture (R396) -/

/-- The cores of a voltage domain: logical rows 4k to 4k + 3 (R396). -/
def domainCores (die k : Nat) : List Nat := (List.range 128).map fun i => die * 1024 + k * 128 + i
/-- DRPADDR of a core (R396). -/
def State.droopAddr (s : State) (core : Nat) : Word :=
  let c := s.core core
  let addr : Word := if c.dbg.halted then c.dbg.next else if c.task.isSome then c.pc else 0
  word (s.condition core * 2 ^ 62 + c.dbg.halted.toNat * 2 ^ 61 + wbits addr 51 3 * 8)
/-- A voltage domain of a die. -/
def State.domain (s : State) (die k : Nat) : Domain := ((s.die die).domains.find k).getD ⟨false, 0, 0⟩
/-- Replace a voltage domain. -/
def State.setDomain (s : State) (die k : Nat) (d : Domain) : State :=
  s.modDie die fun x => { x with domains := x.domains.put k d }
/-- DROOP_CAPTURE (R396): every core of the domain captures its state at one package time, and a record goes to the service
processors; within 10 µs of a capture a trigger is only counted. -/
def capture (die : Nat) (k : Fin 8) (s : State) : State :=
  let d := s.domain die k.val
  if d.held then s.setDomain die k.val { d with missed := d.missed + 1 }
  else
    let cores := domainCores die k.val
    let t := s.iod.ptime
    let seen := cores.map fun n => (n, s.droopAddr n, (s.core n).taskCount.toNat, (s.core n).msgId)
    let s := seen.foldl (fun s p => s.modCore p.1 fun c => { c with dbg := { c.dbg with
      drptime := word t
      drpaddr := p.2.1 } }) s
    (s.logSp (.droop (s.xdNow die % 32) k.val t d.missed seen)).setDomain die k.val ⟨true, t, 0⟩
/-- DROOP_HOLDOFF_EXPIRY (R3, R396): 10 µs of package time have passed since a capture. -/
def endHoldoff (die : Nat) (k : Fin 8) (s : State) : State :=
  let d := s.domain die k.val
  if !d.held || decide (s.iod.ptime < d.since + 10000) then s else s.setDomain die k.val { d with held := false }

/-! ### The events -/

/-- HALT_DIE (R387). -/
def execHaltDie (die : Nat) (s : State) : Host.Outcome State Fault Refusal := onRealDie die (haltAll die) s

/-- RESUME_DIE (R387). -/
def execResumeDie (die : Nat) (s : State) : Host.Outcome State Fault Refusal := onRealDie die (resumeAll die) s

/-- DBGCTL (R384). -/
def execDbgctl (core : Nat) (value : BitVec 64) (s : State) : Host.Outcome State Fault Refusal :=
  onRealCore core (writeDbgctl core value) s

/-- DBGSTAT (R384). -/
def execDbgstat (core : Nat) (value : BitVec 64) (s : State) : Host.Outcome State Fault Refusal :=
  onRealCore core (writeDbgstat core value) s

/-- TRCCTL (R388). -/
def execTrcctl (core : Nat) (value : BitVec 64) (s : State) : Host.Outcome State Fault Refusal :=
  onRealCore core (writeTrcctl core value) s

/-- SLCTL (R393). -/
def execSlctl (core : Nat) (value : BitVec 64) (s : State) : Host.Outcome State Fault Refusal :=
  onRealCore core (writeSlctl core value) s

/-- DEBUG_REGISTER_WRITE (R383). -/
def execDebugRegisterWrite (core : Nat) (num : Nat) (value : BitVec 64) (s : State) : Host.Outcome State Fault Refusal :=
  onRealCore core (writeDebugReg core num value) s

/-- DEBUG_PATH_ACCESS (R386). -/
def execDebugPathAccess (core : Nat) (access : DebugAccess) (s : State) : Host.Outcome State Fault Refusal :=
  onRealCore core (debugAccess core access) s

/-- TRACE_RECORD_WRITE (R390). -/
def execTraceRecordWrite (core : Nat) (s : State) : Host.Outcome State Fault Refusal := onRealCore core (writeTrace core) s

/-- STATE_LOG_RECORD_WRITE (R393). -/
def execStateLogRecordWrite (core : Nat) (s : State) : Host.Outcome State Fault Refusal := onRealCore core (writeLog core) s

/-- DROOP_CAPTURE (R396). -/
def execDroopCapture (die : Nat) (domain : Fin 8) (s : State) : Host.Outcome State Fault Refusal :=
  onRealDie die (capture die domain) s

/-- DROOP_HOLDOFF_EXPIRY (R396). -/
def execDroopHoldoffExpiry (die : Nat) (domain : Fin 8) (s : State) : Host.Outcome State Fault Refusal :=
  onRealDie die (endHoldoff die domain) s

end Sys2Proof.Machine
end

