-- ==== Sys2Proof/Machine/EngineCmds.lean ====
section
/-! DEFINITION. Engine commands at issue (R277, R278): the engine word, the record, the message id. -/

namespace Sys2Proof.Machine

/-- Bytes of each command's record, by EOP (R282 to R286). -/
def recordLen (eop : Nat) : Nat :=
  match eop with
  | 2 => 176
  | 3 => 48
  | 4 => 64
  | _ => 32

/-- Whether an engine word passes its checks (R277). -/
def engineWordOk (eop : Nat) (w : Word) : Bool :=
  wbits w 63 16 == 0 && decide (wbits w 15 13 ≤ 4) &&
    (if eop ≤ 2 then
      if wbit w 7 then decide (wbits w 6 2 < 8) && decide (wbits w 1 0 < 2) else decide (wbits w 6 2 < 24)
    else wbits w 7 0 == 0)

/-- The record of a command, copied at issue (R277). -/
def readRecord (c : Core) (w : Word) (len : Nat) : Run (List Byte) := do
  acquireHold c
  let la ← localAddr w.toNat 0
  let b := bitsN la 31 30
  let off := bitsN la 17 0
  orTrap (bitsN la 29 18 == 0 && decide (off + len ≤ (if b == 3 then 0x100 else bufSize b))) (trapLocal .bufBounds la)
  orTrap (la % 16 == 0) (trapLocal .align la)
  orTrap (decide (b ≤ 1)) (trapLocal .bufAccess la)
  return c.loc.readList (locKey b off) len

/-- Note a COLL in every instance on the task's stack (R352, R353). -/
def State.noteColl (s : State) (c : Core) : State :=
  match c.gang, c.task with
  | some (j, g), some t =>
    let note (i : DomInstance) : DomInstance := if t.domains.contains (i.dom, i.inst) then { i with coll := true } else i
    s.modGang j g fun x => { x with insts := x.insts.map note }
  | _, _ => s

/-- An engine command at issue (R277, R278): the engine word is checked before the record (DESIGN CHOICE, log 104). -/
def engineCmd (eop : Nat) (d a b : Fin 32) (s : State) : Run State := do
  let c := s.core s.cur
  let w := c.x a
  orTrap (engineWordOk eop w) (trapPlain .fmtMismatch)
  let rec' ← readRecord c (c.x b) (recordLen eop)
  if 256 ≤ c.outstanding then .error (.stall .egress)
  else
    let (seq, c) ← takeSeq c
    let gid := if eop == 4 then bytesToNat ((rec'.drop 38).take 2) else 0
    let key := c.jobNo * 65536 + gid
    let use := if eop == 4 then (c.collUses.find key).getD 0 else 0
    let m : Cmd :=
      { pos := c.positions, seq := seq, serial := c.serial, chan := c.taskChan, msgId := c.msgId, fpc := c.pc,
        job := c.jobNo, gang := (c.gang.map (·.2)).getD 0, eop := eop, scope := wbits w 15 13, rcen := wbit w 12, rch := wbits w 11 8,
        engine := wbits w 7 0, payload := rec', table := c.table, marks := c.marks, reads := c.readFrom, use := use,
        stage := .issued, accepted := 0, snapshot := [], fetched := [], coded := [], pages := [], translated := 0, token := none, blocks := [],
        stream := [], executed := false, contrib := [], stop := none, bytesDone := 0, resv := [], nans := 0,
        firstNan := 0, outcome := 0, globals := [], stale := [] }
    let c := { c with
      cmds := c.cmds ++ [m], positions := c.positions + 1
      collUses := if eop == 4 then c.collUses.put key (use + 1) else c.collUses }
    let c := c.setX d (word (s.cur * 2 ^ 24 + seq))
    let s := s.setCore s.cur c
    return if eop == 4 then s.noteColl c else s

/-- CPY (R277, R282). -/
def execCpy (g : Guard) (d : Fin 32) (a : Fin 32) (b : Fin 32) (s : State) : Host.Outcome State Fault Refusal :=
  runOn (.cpy g d a b) (engineCmd 1 d a b) s

/-- CPYS (R277, R283). -/
def execCpys (g : Guard) (d : Fin 32) (a : Fin 32) (b : Fin 32) (s : State) : Host.Outcome State Fault Refusal :=
  runOn (.cpys g d a b) (engineCmd 2 d a b) s

/-- EFQ (R277, R284). -/
def execEfq (g : Guard) (d : Fin 32) (a : Fin 32) (b : Fin 32) (s : State) : Host.Outcome State Fault Refusal :=
  runOn (.efq g d a b) (engineCmd 3 d a b) s

/-- COLL (R277, R285). -/
def execColl (g : Guard) (d : Fin 32) (a : Fin 32) (b : Fin 32) (s : State) : Host.Outcome State Fault Refusal :=
  runOn (.coll g d a b) (engineCmd 4 d a b) s

/-- GMASK (R277, R286). -/
def execGmask (g : Guard) (d : Fin 32) (a : Fin 32) (b : Fin 32) (s : State) : Host.Outcome State Fault Refusal :=
  runOn (.gmask g d a b) (engineCmd 5 d a b) s

/-- GSTEP (R277, R286). -/
def execGstep (g : Guard) (d : Fin 32) (a : Fin 32) (b : Fin 32) (s : State) : Host.Outcome State Fault Refusal :=
  runOn (.gstep g d a b) (engineCmd 6 d a b) s

end Sys2Proof.Machine
end

