-- ==== Sys2Proof/Machine/GlobalMem.lean ====
section
/-! DEFINITION. Global loads and stores and prefetch at issue (R224 to R228). Their way to the home is in the memory
system's events. -/

namespace Sys2Proof.Machine

/-- A destination of a global load or atomic may not be a bound window register (R224). -/
def unboundDest (c : Core) (kind : Nat) (ptr : Word) (d : Fin 32) : Run Unit :=
  orTrap (!c.bound d) (trapGlobal .bufAccess kind ptr)

/-- GLD at issue (R224, R225). -/
def globalLoad (d a : Fin 32) (sc : Nat) (n : Nat) (acq : Bool) (c : Core) : Run Core := do
  acquireHold c
  let p := c.x a
  checkPointer 1 p n
  let (_, c') ← issueReq c p (.load n) (some (.x d)) acq sc false
  return c'
/-- GVLD at issue: the checks of the pointer come before that of a bound destination (R224, log 79). -/
def globalLoadV (d a : Fin 32) (sc : Nat) (acq : Bool) (c : Core) : Run Core := do
  acquireHold c
  let p := c.x a
  checkPointer 1 p 16
  unboundDest c 1 p d
  let (_, c') ← issueReq c p (.load 16) (some (.v d)) acq sc false
  return c'
/-- GST at issue: the data is read at issue (R225). -/
def globalStore (d a : Fin 32) (sc : Nat) (n : Nat) (gack rel : Bool) (c : Core) : Run Core := do
  acquireHold c
  let p := c.x a
  checkPointer 2 p n
  let (_, c') ← issueReq c p (.store (natToBytes n (c.xN d)) gack) none false sc rel
  return c'
/-- GVST at issue; a bound data register is popped (R224). -/
def globalStoreV (d a : Fin 32) (sc : Nat) (gack rel : Bool) (c : Core) : Run Core := do
  acquireHold c
  let p := c.x a
  checkPointer 2 p 16
  let (v, c) ← readV d c
  let (_, c') ← issueReq c p (.store (natToBytes 16 v.toNat) gack) none false sc rel
  return c'

/-- GLD (R224). -/
def execGld (g : Guard) (d : Fin 32) (a : Fin 32) (sc : Fin 8) (w : Fin 4) (ord : Bool) (s : State) : Host.Outcome State Fault Refusal :=
  runOn (.gld g d a sc w ord) (onCore (globalLoad d a sc.val (widthOf w) ord)) s

/-- GST (R224). -/
def execGst (g : Guard) (d : Fin 32) (a : Fin 32) (sc : Fin 8) (w : Fin 4) (gack : Bool) (ord : Bool) (s : State) : Host.Outcome State Fault Refusal :=
  runOn (.gst g d a sc w gack ord) (onCore (globalStore d a sc.val (widthOf w) gack ord)) s

/-- GVLD (R224). -/
def execGvld (g : Guard) (d : Fin 32) (a : Fin 32) (sc : Fin 8) (ord : Bool) (s : State) : Host.Outcome State Fault Refusal :=
  runOn (.gvld g d a sc ord) (onCore (globalLoadV d a sc.val ord)) s

/-- GVST (R224). -/
def execGvst (g : Guard) (d : Fin 32) (a : Fin 32) (sc : Fin 8) (gack : Bool) (ord : Bool) (s : State) : Host.Outcome State Fault Refusal :=
  runOn (.gvst g d a sc gack ord) (onCore (globalStoreV d a sc.val gack ord)) s

/-- GPF.dc (R228): a request to the caches that changes no value, orders nothing and takes no number; what a cache holds affects only timing (R142). -/
def execGpfDc (g : Guard) (a : Fin 32) (b : Fin 32) (s : State) : Host.Outcome State Fault Refusal :=
  runOn (.gpfDc g a b) (onCorePure id) s

/-- GPF.llc (R228), likewise. -/
def execGpfLlc (g : Guard) (a : Fin 32) (b : Fin 32) (s : State) : Host.Outcome State Fault Refusal :=
  runOn (.gpfLlc g a b) (onCorePure id) s

end Sys2Proof.Machine
end

