-- ==== Sys2Proof/Machine/Integer.lean ====
section
/-! DEFINITION. Integer arithmetic and logic, compares and predicates, bitfields and bit counts (R202 to R208). -/

namespace Sys2Proof.Machine

/-- Signed division truncating towards zero, with its corners (R203). -/
def divSigned (a b : Word) : Word :=
  if b = 0 then BitVec.allOnes 64 else BitVec.ofInt 64 (a.toInt.tdiv b.toInt)
/-- Unsigned division with its corner (R203). -/
def divUnsigned (a b : Word) : Word := if b = 0 then BitVec.allOnes 64 else a / b
/-- Signed remainder with the sign of the dividend (R203). -/
def remSigned (a b : Word) : Word := if b = 0 then a else BitVec.ofInt 64 (a.toInt.tmod b.toInt)
/-- Unsigned remainder (R203). -/
def remUnsigned (a b : Word) : Word := if b = 0 then a else a % b
/-- SHL: the whole count is used (R204). -/
def shl64 (a b : Word) : Word := if 64 ≤ b.toNat then 0 else a <<< b.toNat
/-- SHR (R204). -/
def shr64 (a b : Word) : Word := if 64 ≤ b.toNat then 0 else a >>> b.toNat
/-- SRA (R204). -/
def sra64 (a b : Word) : Word := if 64 ≤ b.toNat then (if a.msb then BitVec.allOnes 64 else 0) else a.sshiftRight b.toNat
/-- ROR, the one shift that reduces its count modulo 64 (R204). -/
def ror64 (a b : Word) : Word := a.rotateRight (b.toNat % 64)
/-- High half of the signed product (R202). -/
def mulHigh (a b : Word) : Word := BitVec.ofInt 64 ((a.toInt * b.toInt).fdiv (2 ^ 64))
/-- High half of the unsigned product (R202). -/
def mulHighU (a b : Word) : Word := word (a.toNat * b.toNat / 2 ^ 64)

/-- POS and the effective width L of a bitfield control word (R207). -/
def fieldOf (ctl : Word) : Nat × Nat :=
  let pos := wbits ctl 5 0
  (pos, min (wbits ctl 14 8) (64 - pos))
/-- EXTU (R207). -/
def extractU (a ctl : Word) : Word := word (a.toNat / 2 ^ (fieldOf ctl).1 % 2 ^ (fieldOf ctl).2)
/-- EXTS (R207). -/
def extractS (a ctl : Word) : Word :=
  let (pos, l) := fieldOf ctl
  if l == 0 then 0 else BitVec.ofInt 64 (sintN l (a.toNat / 2 ^ pos))
/-- INS (R207): the destination's bits with the field replaced. -/
def insertField (d a ctl : Word) : Word :=
  let (pos, l) := fieldOf ctl
  let m := (2 ^ l - 1) * 2 ^ pos
  (d &&& ~~~ (word m)) ||| word (a.toNat % 2 ^ l * 2 ^ pos)

/-- Leading zero bits of the low `n` bits (R208). -/
def leadingZeros (a : Word) : Nat → Nat
  | 0 => 0
  | n + 1 => if a.getLsbD n then 0 else 1 + leadingZeros a n
/-- Trailing zero bits, up to 64, counting from bit `64 - n` (R208). -/
def trailingZeros (a : Word) : Nat → Nat
  | 0 => 0
  | n + 1 => if a.getLsbD (63 - n) then 0 else 1 + trailingZeros a n
/-- One bits among the low `n` (R208). -/
def popCount (a : Word) : Nat → Nat
  | 0 => 0
  | n + 1 => (a.getLsbD n).toNat + popCount a n
/-- Bits in reverse order (R208). -/
def reverseBits (a : Word) : Word := a.reverse
/-- Bytes in reverse order (R208). -/
def reverseBytes (a : Word) : Word := word (bytesToNat (natToBytes 8 a.toNat).reverse)

/-- A result of two operands, written to an x register (R199, R202). -/
def alu (f : Word → Word → Word) (d a : Fin 32) (b : Core → Word) : State → Run State :=
  onCorePure fun c => c.setX d (f (c.x a) (b c))
/-- A result of one operand (R208). -/
def alu1 (f : Word → Word) (d a : Fin 32) : State → Run State := onCorePure fun c => c.setX d (f (c.x a))
/-- A compare into a predicate (R205). -/
def compare (r : Relation) (d : Fin 8) (a : Fin 32) (b : Core → Word) : State → Run State :=
  onCorePure fun c => c.setK d (r.holds (c.x a) (b c))
/-- A combination of predicates (R206). -/
def logicK (f : Bool → Bool → Bool) (d a b : Fin 8) : State → Run State :=
  onCorePure fun c => c.setK d (f (c.k a) (c.k b))
/-- INS, which reads its destination (R207). -/
def insertInto (d a : Fin 32) (b : Core → Word) : State → Run State :=
  onCorePure fun c => c.setX d (insertField (c.x d) (c.x a) (b c))

/-- ADD (R202). -/
def execAdd (g : Guard) (d : Fin 32) (a : Fin 32) (b : Fin 32) (s : State) : Host.Outcome State Fault Refusal :=
  runOn (.add g d a b) (alu (· + ·) d a (·.opX b)) s

/-- SUB (R202). -/
def execSub (g : Guard) (d : Fin 32) (a : Fin 32) (b : Fin 32) (s : State) : Host.Outcome State Fault Refusal :=
  runOn (.sub g d a b) (alu (· - ·) d a (·.opX b)) s

/-- MUL (R202). -/
def execMul (g : Guard) (d : Fin 32) (a : Fin 32) (b : Fin 32) (s : State) : Host.Outcome State Fault Refusal :=
  runOn (.mul g d a b) (alu (· * ·) d a (·.opX b)) s

/-- MULH (R202). -/
def execMulh (g : Guard) (d : Fin 32) (a : Fin 32) (b : Fin 32) (s : State) : Host.Outcome State Fault Refusal :=
  runOn (.mulh g d a b) (alu mulHigh d a (·.opX b)) s

/-- MULHU (R202). -/
def execMulhu (g : Guard) (d : Fin 32) (a : Fin 32) (b : Fin 32) (s : State) : Host.Outcome State Fault Refusal :=
  runOn (.mulhu g d a b) (alu mulHighU d a (·.opX b)) s

/-- DIV (R203). -/
def execDiv (g : Guard) (d : Fin 32) (a : Fin 32) (b : Fin 32) (s : State) : Host.Outcome State Fault Refusal :=
  runOn (.div g d a b) (alu divSigned d a (·.opX b)) s

/-- DIVU (R203). -/
def execDivu (g : Guard) (d : Fin 32) (a : Fin 32) (b : Fin 32) (s : State) : Host.Outcome State Fault Refusal :=
  runOn (.divu g d a b) (alu divUnsigned d a (·.opX b)) s

/-- REM (R203). -/
def execRem (g : Guard) (d : Fin 32) (a : Fin 32) (b : Fin 32) (s : State) : Host.Outcome State Fault Refusal :=
  runOn (.rem g d a b) (alu remSigned d a (·.opX b)) s

/-- REMU (R203). -/
def execRemu (g : Guard) (d : Fin 32) (a : Fin 32) (b : Fin 32) (s : State) : Host.Outcome State Fault Refusal :=
  runOn (.remu g d a b) (alu remUnsigned d a (·.opX b)) s

/-- AND (R202). -/
def execAnd (g : Guard) (d : Fin 32) (a : Fin 32) (b : Fin 32) (s : State) : Host.Outcome State Fault Refusal :=
  runOn (.and g d a b) (alu (· &&& ·) d a (·.opX b)) s

/-- OR (R202). -/
def execOr (g : Guard) (d : Fin 32) (a : Fin 32) (b : Fin 32) (s : State) : Host.Outcome State Fault Refusal :=
  runOn (.or g d a b) (alu (· ||| ·) d a (·.opX b)) s

/-- XOR (R202). -/
def execXor (g : Guard) (d : Fin 32) (a : Fin 32) (b : Fin 32) (s : State) : Host.Outcome State Fault Refusal :=
  runOn (.xor g d a b) (alu (· ^^^ ·) d a (·.opX b)) s

/-- ANDN (R202). -/
def execAndn (g : Guard) (d : Fin 32) (a : Fin 32) (b : Fin 32) (s : State) : Host.Outcome State Fault Refusal :=
  runOn (.andn g d a b) (alu (fun x y => x &&& ~~~y) d a (·.opX b)) s

/-- SHL (R204). -/
def execShl (g : Guard) (d : Fin 32) (a : Fin 32) (b : Fin 32) (s : State) : Host.Outcome State Fault Refusal :=
  runOn (.shl g d a b) (alu shl64 d a (·.opX b)) s

/-- SHR (R204). -/
def execShr (g : Guard) (d : Fin 32) (a : Fin 32) (b : Fin 32) (s : State) : Host.Outcome State Fault Refusal :=
  runOn (.shr g d a b) (alu shr64 d a (·.opX b)) s

/-- SRA (R204). -/
def execSra (g : Guard) (d : Fin 32) (a : Fin 32) (b : Fin 32) (s : State) : Host.Outcome State Fault Refusal :=
  runOn (.sra g d a b) (alu sra64 d a (·.opX b)) s

/-- ROR (R204). -/
def execRor (g : Guard) (d : Fin 32) (a : Fin 32) (b : Fin 32) (s : State) : Host.Outcome State Fault Refusal :=
  runOn (.ror g d a b) (alu ror64 d a (·.opX b)) s

/-- MIN (R202). -/
def execMin (g : Guard) (d : Fin 32) (a : Fin 32) (b : Fin 32) (s : State) : Host.Outcome State Fault Refusal :=
  runOn (.min g d a b) (alu (fun x y => if x.slt y then x else y) d a (·.opX b)) s

/-- MAX (R202). -/
def execMax (g : Guard) (d : Fin 32) (a : Fin 32) (b : Fin 32) (s : State) : Host.Outcome State Fault Refusal :=
  runOn (.max g d a b) (alu (fun x y => if x.slt y then y else x) d a (·.opX b)) s

/-- MINU (R202). -/
def execMinu (g : Guard) (d : Fin 32) (a : Fin 32) (b : Fin 32) (s : State) : Host.Outcome State Fault Refusal :=
  runOn (.minu g d a b) (alu (fun x y => if x.ult y then x else y) d a (·.opX b)) s

/-- MAXU (R202). -/
def execMaxu (g : Guard) (d : Fin 32) (a : Fin 32) (b : Fin 32) (s : State) : Host.Outcome State Fault Refusal :=
  runOn (.maxu g d a b) (alu (fun x y => if x.ult y then y else x) d a (·.opX b)) s

/-- ADD_CW (R202). -/
def execAddCw (g : Guard) (d : Fin 32) (a : Fin 32) (cw : Fin 256) (s : State) : Host.Outcome State Fault Refusal :=
  runOn (.addCw g d a cw) (alu (· + ·) d a (·.opCw cw)) s

/-- AND_CW (R202). -/
def execAndCw (g : Guard) (d : Fin 32) (a : Fin 32) (cw : Fin 256) (s : State) : Host.Outcome State Fault Refusal :=
  runOn (.andCw g d a cw) (alu (· &&& ·) d a (·.opCw cw)) s

/-- OR_CW (R202). -/
def execOrCw (g : Guard) (d : Fin 32) (a : Fin 32) (cw : Fin 256) (s : State) : Host.Outcome State Fault Refusal :=
  runOn (.orCw g d a cw) (alu (· ||| ·) d a (·.opCw cw)) s

/-- XOR_CW (R202). -/
def execXorCw (g : Guard) (d : Fin 32) (a : Fin 32) (cw : Fin 256) (s : State) : Host.Outcome State Fault Refusal :=
  runOn (.xorCw g d a cw) (alu (· ^^^ ·) d a (·.opCw cw)) s

/-- SHL_CW (R204). -/
def execShlCw (g : Guard) (d : Fin 32) (a : Fin 32) (cw : Fin 256) (s : State) : Host.Outcome State Fault Refusal :=
  runOn (.shlCw g d a cw) (alu shl64 d a (·.opCw cw)) s

/-- SHR_CW (R204). -/
def execShrCw (g : Guard) (d : Fin 32) (a : Fin 32) (cw : Fin 256) (s : State) : Host.Outcome State Fault Refusal :=
  runOn (.shrCw g d a cw) (alu shr64 d a (·.opCw cw)) s

/-- SRA_CW (R204). -/
def execSraCw (g : Guard) (d : Fin 32) (a : Fin 32) (cw : Fin 256) (s : State) : Host.Outcome State Fault Refusal :=
  runOn (.sraCw g d a cw) (alu sra64 d a (·.opCw cw)) s

/-- MUL_CW (R202). -/
def execMulCw (g : Guard) (d : Fin 32) (a : Fin 32) (cw : Fin 256) (s : State) : Host.Outcome State Fault Refusal :=
  runOn (.mulCw g d a cw) (alu (· * ·) d a (·.opCw cw)) s

/-- CMPEQ (R205). -/
def execCmpeq (g : Guard) (d : Fin 8) (a : Fin 32) (b : Fin 32) (s : State) : Host.Outcome State Fault Refusal :=
  runOn (.cmpeq g d a b) (compare .eq d a (·.opX b)) s

/-- CMPNE (R205). -/
def execCmpne (g : Guard) (d : Fin 8) (a : Fin 32) (b : Fin 32) (s : State) : Host.Outcome State Fault Refusal :=
  runOn (.cmpne g d a b) (compare .ne d a (·.opX b)) s

/-- CMPLT (R205). -/
def execCmplt (g : Guard) (d : Fin 8) (a : Fin 32) (b : Fin 32) (s : State) : Host.Outcome State Fault Refusal :=
  runOn (.cmplt g d a b) (compare .lt d a (·.opX b)) s

/-- CMPGE (R205). -/
def execCmpge (g : Guard) (d : Fin 8) (a : Fin 32) (b : Fin 32) (s : State) : Host.Outcome State Fault Refusal :=
  runOn (.cmpge g d a b) (compare .ge d a (·.opX b)) s

/-- CMPLTU (R205). -/
def execCmpltu (g : Guard) (d : Fin 8) (a : Fin 32) (b : Fin 32) (s : State) : Host.Outcome State Fault Refusal :=
  runOn (.cmpltu g d a b) (compare .ltu d a (·.opX b)) s

/-- CMPGEU (R205). -/
def execCmpgeu (g : Guard) (d : Fin 8) (a : Fin 32) (b : Fin 32) (s : State) : Host.Outcome State Fault Refusal :=
  runOn (.cmpgeu g d a b) (compare .geu d a (·.opX b)) s

/-- CMPEQ_CW (R205). -/
def execCmpeqCw (g : Guard) (d : Fin 8) (a : Fin 32) (cw : Fin 256) (s : State) : Host.Outcome State Fault Refusal :=
  runOn (.cmpeqCw g d a cw) (compare .eq d a (·.opCw cw)) s

/-- CMPNE_CW (R205). -/
def execCmpneCw (g : Guard) (d : Fin 8) (a : Fin 32) (cw : Fin 256) (s : State) : Host.Outcome State Fault Refusal :=
  runOn (.cmpneCw g d a cw) (compare .ne d a (·.opCw cw)) s

/-- CMPLT_CW (R205). -/
def execCmpltCw (g : Guard) (d : Fin 8) (a : Fin 32) (cw : Fin 256) (s : State) : Host.Outcome State Fault Refusal :=
  runOn (.cmpltCw g d a cw) (compare .lt d a (·.opCw cw)) s

/-- CMPLTU_CW (R205). -/
def execCmpltuCw (g : Guard) (d : Fin 8) (a : Fin 32) (cw : Fin 256) (s : State) : Host.Outcome State Fault Refusal :=
  runOn (.cmpltuCw g d a cw) (compare .ltu d a (·.opCw cw)) s

/-- PAND (R206). -/
def execPand (g : Guard) (d : Fin 8) (a : Fin 8) (b : Fin 8) (s : State) : Host.Outcome State Fault Refusal :=
  runOn (.pand g d a b) (logicK (· && ·) d a b) s

/-- POR (R206). -/
def execPor (g : Guard) (d : Fin 8) (a : Fin 8) (b : Fin 8) (s : State) : Host.Outcome State Fault Refusal :=
  runOn (.por g d a b) (logicK (· || ·) d a b) s

/-- PXOR (R206). -/
def execPxor (g : Guard) (d : Fin 8) (a : Fin 8) (b : Fin 8) (s : State) : Host.Outcome State Fault Refusal :=
  runOn (.pxor g d a b) (logicK (· != ·) d a b) s

/-- PANDN (R206). -/
def execPandn (g : Guard) (d : Fin 8) (a : Fin 8) (b : Fin 8) (s : State) : Host.Outcome State Fault Refusal :=
  runOn (.pandn g d a b) (logicK (fun x y => x && !y) d a b) s

/-- PMOVX (R206). -/
def execPmovx (g : Guard) (d : Fin 32) (a : Fin 8) (s : State) : Host.Outcome State Fault Refusal :=
  runOn (.pmovx g d a) (onCorePure fun c => c.setX d (if c.k a then 1 else 0)) s

/-- EXTU (R207). -/
def execExtu (g : Guard) (d : Fin 32) (a : Fin 32) (b : Fin 32) (s : State) : Host.Outcome State Fault Refusal :=
  runOn (.extu g d a b) (alu extractU d a (·.opX b)) s

/-- EXTS (R207). -/
def execExts (g : Guard) (d : Fin 32) (a : Fin 32) (b : Fin 32) (s : State) : Host.Outcome State Fault Refusal :=
  runOn (.exts g d a b) (alu extractS d a (·.opX b)) s

/-- INS (R207). -/
def execIns (g : Guard) (d : Fin 32) (a : Fin 32) (b : Fin 32) (s : State) : Host.Outcome State Fault Refusal :=
  runOn (.ins g d a b) (insertInto d a (·.opX b)) s

/-- CLZ (R208). -/
def execClz (g : Guard) (d : Fin 32) (a : Fin 32) (s : State) : Host.Outcome State Fault Refusal :=
  runOn (.clz g d a) (alu1 (fun x => word (leadingZeros x 64)) d a) s

/-- CTZ (R208). -/
def execCtz (g : Guard) (d : Fin 32) (a : Fin 32) (s : State) : Host.Outcome State Fault Refusal :=
  runOn (.ctz g d a) (alu1 (fun x => word (trailingZeros x 64)) d a) s

/-- POPC (R208). -/
def execPopc (g : Guard) (d : Fin 32) (a : Fin 32) (s : State) : Host.Outcome State Fault Refusal :=
  runOn (.popc g d a) (alu1 (fun x => word (popCount x 64)) d a) s

/-- BREV (R208). -/
def execBrev (g : Guard) (d : Fin 32) (a : Fin 32) (s : State) : Host.Outcome State Fault Refusal :=
  runOn (.brev g d a) (alu1 reverseBits d a) s

/-- BSWAP (R208). -/
def execBswap (g : Guard) (d : Fin 32) (a : Fin 32) (s : State) : Host.Outcome State Fault Refusal :=
  runOn (.bswap g d a) (alu1 reverseBytes d a) s

/-- EXTU_CW (R207). -/
def execExtuCw (g : Guard) (d : Fin 32) (a : Fin 32) (cw : Fin 256) (s : State) : Host.Outcome State Fault Refusal :=
  runOn (.extuCw g d a cw) (alu extractU d a (·.opCw cw)) s

/-- EXTS_CW (R207). -/
def execExtsCw (g : Guard) (d : Fin 32) (a : Fin 32) (cw : Fin 256) (s : State) : Host.Outcome State Fault Refusal :=
  runOn (.extsCw g d a cw) (alu extractS d a (·.opCw cw)) s

/-- INS_CW (R207). -/
def execInsCw (g : Guard) (d : Fin 32) (a : Fin 32) (cw : Fin 256) (s : State) : Host.Outcome State Fault Refusal :=
  runOn (.insCw g d a cw) (insertInto d a (·.opCw cw)) s

end Sys2Proof.Machine
end

