-- ==== Sys2Proof/Machine/LocalMem.lean ====
section
/-! DEFINITION. Local loads and stores, gathers and scatters (R220 to R223). -/

namespace Sys2Proof.Machine

/-- A zero-extending load (R221). -/
def loadU (d a : Fin 32) (b : Core → Word) (n : Nat) : State → Run State := onCore fun c => do
  let v ← readLocal c (c.xN a) (b c).toNat n
  return c.setX d (word v)
/-- A sign-extending load (R221). -/
def loadS (d a : Fin 32) (b : Core → Word) (n : Nat) : State → Run State := onCore fun c => do
  let v ← readLocal c (c.xN a) (b c).toNat n
  return c.setX d (BitVec.ofInt 64 (sintN (8 * n) v))
/-- A store of an x register's low bytes (R221). -/
def storeX (d a : Fin 32) (b : Core → Word) (n : Nat) : State → Run State := onCore fun c =>
  writeLocal c (c.xN a) (b c).toNat n (c.xN d)

/-- VLD (R221); the address is checked before the push of a bound destination (DESIGN CHOICE, log 79). -/
def loadV (d a b : Fin 32) (c : Core) : Run Core := do
  let v ← readLocal c (c.xN a) (c.xN b) 16
  writeV d (BitVec.ofNat 128 v) c
/-- VST (R221). -/
def storeV (d a b : Fin 32) (c : Core) : Run Core := do
  acquireHold c
  let la ← localAddr (c.xN a) (c.xN b)
  let (bf, o) ← checkLocal c true la 16
  heldStall c bf o 16
  let (v, c') ← readV d c
  return c'.storeLocal bf o 16 v.toNat

/-- The addresses of the lanes of a gather or scatter, all checked first (R222). -/
def laneAddrs (c : Core) (write : Bool) (base : Nat) (e : Nat) (offs : List Nat) : Run (List (Nat × Nat)) :=
  offs.mapM fun o => do
    let la ← localAddr base o
    checkLocal c write la e

/-- VLDX (R222): a bound vb is popped first, then the lanes' addresses are checked, then a bound destination is pushed (DESIGN
CHOICE, log 79). -/
def gather (d a b : Fin 32) (e : Fin 4) (c : Core) : Run Core := do
  acquireHold c
  let (ov, c) ← readV b c
  let n := widthOf e
  let addrs ← laneAddrs c false (c.xN a) n (lanes ov (8 * n))
  writeV d (ofLanes (8 * n) (addrs.map fun (bf, o) => c.loadLocal bf o n)) c
/-- VSTX: lanes are written in rising order, so the highest of two that name the same bytes stands (R222). Windows are popped
before the lanes' addresses are checked (log 79). -/
def scatter (d a b : Fin 32) (e : Fin 4) (c : Core) : Run Core := do
  acquireHold c
  let (vs, c) ← readVs [b, d] [] c
  let ov := vs.headD 0
  let dv := vs.getD 1 0
  let n := widthOf e
  let addrs ← laneAddrs c true (c.xN a) n (lanes ov (8 * n))
  addrs.forM fun (bf, o) => heldStall c bf o n
  return (addrs.zip (lanes dv (8 * n))).foldl (fun c ((bf, o), v) => c.storeLocal bf o n v) c

/-- LD.nN (R221). -/
def execLdN (g : Guard) (d : Fin 32) (a : Fin 32) (b : Fin 32) (w : Fin 4) (s : State) : Host.Outcome State Fault Refusal :=
  runOn (.ldN g d a b w) (loadU d a (·.opX b) (widthOf w)) s

/-- LD.iN (R221). -/
def execLdI (g : Guard) (d : Fin 32) (a : Fin 32) (b : Fin 32) (w : Fin 4) (s : State) : Host.Outcome State Fault Refusal :=
  runOn (.ldI g d a b w) (loadS d a (·.opX b) (widthOf w)) s

/-- LD.nN with a constant (R221). -/
def execLdCw (g : Guard) (d : Fin 32) (a : Fin 32) (cw : Fin 256) (w : Fin 4) (s : State) : Host.Outcome State Fault Refusal :=
  runOn (.ldCw g d a cw w) (loadU d a (·.opCw cw) (widthOf w)) s

/-- ST (R221). -/
def execSt (g : Guard) (d : Fin 32) (a : Fin 32) (b : Fin 32) (w : Fin 4) (s : State) : Host.Outcome State Fault Refusal :=
  runOn (.st g d a b w) (storeX d a (·.opX b) (widthOf w)) s

/-- ST with a constant (R221). -/
def execStCw (g : Guard) (d : Fin 32) (a : Fin 32) (cw : Fin 256) (w : Fin 4) (s : State) : Host.Outcome State Fault Refusal :=
  runOn (.stCw g d a cw w) (storeX d a (·.opCw cw) (widthOf w)) s

/-- VLD (R221). -/
def execVld (g : Guard) (d : Fin 32) (a : Fin 32) (b : Fin 32) (s : State) : Host.Outcome State Fault Refusal :=
  runOn (.vld g d a b) (onCore (loadV d a b)) s

/-- VST (R221). -/
def execVst (g : Guard) (d : Fin 32) (a : Fin 32) (b : Fin 32) (s : State) : Host.Outcome State Fault Refusal :=
  runOn (.vst g d a b) (onCore (storeV d a b)) s

/-- VLDX (R222). -/
def execVldx (g : Guard) (d : Fin 32) (a : Fin 32) (b : Fin 32) (e : Fin 4) (s : State) : Host.Outcome State Fault Refusal :=
  runOn (.vldx g d a b e) (onCore (gather d a b e)) s

/-- VSTX (R222). -/
def execVstx (g : Guard) (d : Fin 32) (a : Fin 32) (b : Fin 32) (e : Fin 4) (s : State) : Host.Outcome State Fault Refusal :=
  runOn (.vstx g d a b e) (onCore (scatter d a b e)) s

end Sys2Proof.Machine
end

