-- ==== Sys2Proof/Machine/Mxu.lean ====
section
/-! DEFINITION. What a queued MXU operation does when it retires (R60 to R62, R299 to R301, R306, R307). -/

namespace Sys2Proof.Machine

/-- The code of `w` bits at a bit of local memory above a place (R39). -/
def codeAt (m : Memory) (key bit w : Nat) : Nat := m.readNat (key + bit / 8) ((w + 7) / 8) / 2 ^ (bit % 8) % 2 ^ w

/-- An operand element: its exact value with its scale, and its parts under R61. -/
structure Operand where
  val : Val
  hi : Val
  lo : Val

/-- The parts of an FP32 element and of an element of another format (R61). -/
def splitOperand (f : Nat) (v : Val) : Operand :=
  if f == 1 && v.isFinite then
    let hi := e8m10.decode (roundTo e8m10 .rtz false v).1
    let lo := e8m10.decode (roundTo e8m10 .rne false (v.add hi.neg)).1
    ⟨v, hi, lo⟩
  else ⟨v, v, .zero⟩

/-- An element value: the unused bits of a 6-bit or 2-bit code ignored, E8M10 from bits [18:0] of its container, the scale
of MMAS applied (R47, R48, R298, R300). -/
def operandVal (T : DecodeTable) (f : Nat) (scale : Option Nat) (code : Nat) : Val :=
  let c := if f == 2 then code % 2 ^ 19 else code
  match scale with
  | some s => decodeScaled T f s c
  | none => decodeElem T f c

/-- Row `i` of A (R299, R300): offsets of the slot and of the partner slot. -/
def rowA (m : Memory) (T : DecodeTable) (f k off : Nat) (part : Option (Nat × Nat × Nat)) (i : Nat) : List Operand :=
  let s := ringBits f
  (List.range k).map fun x =>
    let scale := part.map fun (_, po, _) => (m.read (locKey 0 (po + i * (k / fmtBlock f) + x / fmtBlock f))).toNat
    splitOperand f (operandVal T f scale (codeAt m (locKey 0 off) (i * k * s + x * s) s))
/-- Column `j` of B (R299, R300). -/
def colB (m : Memory) (T : DecodeTable) (transposed : Bool) (f k off : Nat) (part : Option (Nat × Nat × Nat)) (j : Nat) :
    List Operand :=
  let s := ringBits f
  (List.range k).map fun x =>
    let scale := part.map fun (_, po, _) => (m.read (locKey 1 (po + x / fmtBlock f * 32 + j))).toNat
    let bit := if transposed then j * k * s + x * s else x * 32 * s + j * s
    splitOperand f (operandVal T f scale (codeAt m (locKey 1 off) bit s))

/-- The integer value of an exact value that is an integer. -/
def Val.toInt : Val → Int
  | .fin s n d => if s then -((n / d : Nat) : Int) else ((n / d : Nat) : Int)
  | _ => 0

/-- `round_rne(c + round_rne(s))` (R60): the code of one accumulator update. -/
def accumulate (c : Val) (terms : List Val) : Nat :=
  (rneF32 (c.add (fp32.decode (rneF32 (Val.sum terms)).1))).1

/-- One element of a product (R60, R61, R306). -/
def productElem (fa fb : Nat) (zc : Bool) (cOld : Nat) (as bs : List Operand) : Nat :=
  if fmtIntGroup fa && fmtIntGroup fb then
    let c : Int := if zc then 0 else sintN 32 cOld
    intCode 32 ((as.zip bs).foldl (fun acc (a, b) => acc + a.val.toInt * b.val.toInt) c)
  else
    let c : Val := if zc then .fin true 0 1 else fp32.decode cOld
    let ps := as.zip bs
    if fa == 1 || fb == 1 then
      let special (p : Operand × Operand) : Bool := !p.1.val.isFinite || !p.2.val.isFinite
      let c1 := accumulate c (ps.map fun p => if special p then p.1.val.mul p.2.val else p.1.hi.mul p.2.hi)
      let rest := (ps.filter fun p => !special p).flatMap fun p => [p.1.hi.mul p.2.lo, p.1.lo.mul p.2.hi]
      accumulate (fp32.decode c1) rest
    else accumulate c (ps.map fun p => p.1.val.mul p.2.val)

/-- CSCL on one element (R307). -/
def scaleElem (alpha beta : Nat) (isrc relu : Bool) (x : Nat) : Nat :=
  let v : Val := if isrc then .ofInt (sintN 32 x) else fp32.decode x
  let y := (rneF32 ((v.mul (fp32.decode alpha)).add (fp32.decode beta))).1
  let yv := fp32.decode y
  if relu && !yv.isNan && yv.sign then 0 else y

/-- The elements of a tile, element (i, j) at place 32 i + j (R301). -/
def tileElems (m : Memory) (t : Nat) : List Nat := (List.range 512).map (tileElem m t)
/-- Write a tile. -/
def writeTile (m : Memory) (t : Nat) (es : List Nat) : Memory :=
  m.writeList (locKey 2 (2048 * t)) (es.flatMap (natToBytes 4))

/-- The local memory after an operation, and the rings it pops (R306, R307). -/
def MxWork.retire (m : Memory) (w : MxWork) : Memory × List Nat :=
  match w with
  | .product tr t zc fa fb _ _ offA offB ra rb pa pb T =>
    let k := pairK fa fb
    let rows := (List.range 16).map (rowA m T fa k offA pa)
    let cols := (List.range 32).map (colB m T tr fb k offB pb)
    let es := (tileElems m t).mapIdx fun e c => productElem fa fb zc c (rows.getD (e / 32) []) (cols.getD (e % 32) [])
    (writeTile m t es, [ra, rb] ++ (pa.map (·.1)).toList ++ (pb.map (·.1)).toList)
  | .czero t => (writeTile m t (List.replicate 512 0), [])
  | .cscl t al be isrc relu => (writeTile m t ((tileElems m t).map (scaleElem al be isrc relu)), [])
  | .cadd t q =>
    (writeTile m t ((tileElems m t).zipWith (fun x y => (rneF32 ((fp32.decode x).add (fp32.decode y))).1)
      (tileElems m q)), [])

/-- Pop a ring by one slot for every agent at once (R132, R306). -/
def Core.popRing (c : Core) (r : Nat) : Core :=
  let h : Fin 16 := Fin.ofNat 16 r
  let g := c.rings[h]
  { c with rings := c.rings.set h { g with head := (g.head + 1) % 512 } }

/-- Retire the operation at the head of a core's queue, as one step (R295, R306, R307). -/
def Core.retireMx (c : Core) : Core :=
  match c.mxq with
  | [] => c
  | o :: rest =>
    let (loc, rings) := o.work.retire c.loc
    let c := { c with loc := loc, mxq := rest, mxRetired := c.mxRetired + 1 }
    rings.foldl Core.popRing c

end Sys2Proof.Machine
end

