-- ==== Sys2Proof/Machine/MxuEvents.lean ====
section
/-! DEFINITION. The MXU arbiter and the retirement of queued operations (R295, R296, R306, R307). -/

namespace Sys2Proof.Machine

/-- Logical MXUs of the package (R15). -/
def mxuCount : Nat := 3072

/-- The arbiter of an MXU; at package reset the holder is rank 7 with all its grant used (R296). -/
def State.arbiter (s : State) (mxu : Nat) : Arbiter := ((s.die (mxu / 128)).mxus.find (mxu % 128)).getD ⟨7, 1⟩
/-- Replace the arbiter of an MXU. -/
def State.setArbiter (s : State) (mxu : Nat) (a : Arbiter) : State :=
  s.modDie (mxu / 128) fun d => { d with mxus := d.mxus.put (mxu % 128) a }

/-- Whether the operation at the head of a core's queue has started. -/
def Core.mxBusy (c : Core) : Bool := match c.mxq with
  | [] => false
  | o :: _ => o.started
/-- Start the operation at the head of a core's queue. -/
def Core.startMx (c : Core) : Core :=
  { c with mxq := match c.mxq with
      | [] => []
      | o :: rest => { o with started := true } :: rest }

/-- The next holder in rank order whose queue is not empty (R296). -/
def State.nextHolder (s : State) (mxu g : Nat) : Option Nat :=
  ((List.range 8).map fun i => (g + 1 + i) % 8).find? fun h => !(s.core (mxuCore mxu h)).mxq.isEmpty

/-- MXU_START (R36, R296): the previous operation has ended, and the weighted round-robin starts the next, unless the power
limit keeps it back. -/
def startMxu (mxu : Nat) (s : State) : State :=
  if (List.range 8).any fun r => (s.core (mxuCore mxu r)).mxBusy then s
  else
    let a := s.arbiter mxu
    let holder := s.core (mxuCore mxu a.g)
    if !holder.mxq.isEmpty && decide (a.u < holder.weight) then
      if holder.throttled then s else (s.modCore (mxuCore mxu a.g) Core.startMx).setArbiter mxu ⟨a.g, a.u + 1⟩
    else match s.nextHolder mxu a.g with
      | none => s
      | some h => if (s.core (mxuCore mxu h)).throttled then s else (s.modCore (mxuCore mxu h) Core.startMx).setArbiter mxu ⟨h, 1⟩

/-- A started operation of a kind at the head of a core's queue retires, as one step (R295, R391). -/
def retireOp (isKind : MxWork → Bool) (core : Nat) (s : State) : State :=
  let c := s.core core
  match c.mxq with
  | [] => s
  | o :: _ => if o.started && isKind o.work then s.setCore core (c.retireMx.countEvent 6 1) else s

/-- A tile product. -/
def MxWork.isProduct : MxWork → Bool
  | .product .. => true
  | _ => false
/-- A CZERO. -/
def MxWork.isZero : MxWork → Bool
  | .czero _ => true
  | _ => false
/-- A CSCL. -/
def MxWork.isScale : MxWork → Bool
  | .cscl .. => true
  | _ => false
/-- A CADD. -/
def MxWork.isSum : MxWork → Bool
  | .cadd .. => true
  | _ => false

/-- MXU_START (R296). -/
def execMxuStart (mxu : Nat) (s : State) : Host.Outcome State Fault Refusal :=
  if mxuCount ≤ mxu then .fault .noSuchUnit else .next (startMxu mxu s)

/-- MMA_RETIRE (R306). -/
def execMmaRetire (core : Nat) (s : State) : Host.Outcome State Fault Refusal := onRealCore core (retireOp MxWork.isProduct core) s

/-- CZERO_RETIRE (R307). -/
def execCzeroRetire (core : Nat) (s : State) : Host.Outcome State Fault Refusal := onRealCore core (retireOp MxWork.isZero core) s

/-- CSCL_RETIRE (R307). -/
def execCsclRetire (core : Nat) (s : State) : Host.Outcome State Fault Refusal := onRealCore core (retireOp MxWork.isScale core) s

/-- CADD_RETIRE (R307). -/
def execCaddRetire (core : Nat) (s : State) : Host.Outcome State Fault Refusal := onRealCore core (retireOp MxWork.isSum core) s

end Sys2Proof.Machine
end

