-- ==== Sys2Proof/Machine/Pointers.lean ====
section
/-! DEFINITION. Moves between x and v registers, the constant window, and pointer arithmetic (R209 to R212). -/

namespace Sys2Proof.Machine

/-- Bytes of a pointer's step over `i` elements (R212), or ALIGN where the step is not whole. -/
def elementOffset (fmt : Nat) (i : Int) : Option Int :=
  if fmt == 0 then some i
  else if fmtScaled fmt then
    let per : Int := 16 * (fmtBlock fmt : Int)
    if i.fmod per != 0 then none else some (i.fdiv per * fmtGroupBytes fmt)
  else if fmtBits fmt < 8 then
    if (i * fmtBits fmt).fmod 8 != 0 then none else some ((i * fmtBits fmt).fdiv 8)
  else some (i * (fmtBits fmt / 8 : Nat))

/-- A pointer moved by a byte offset: only bits [51:0] change, and PTR_OVERFLOW outside 0 to 2^52 - 1 (R121). -/
def movePointer (p : Word) (off : Int) : Run Word :=
  let v : Int := (wbits p 51 0 : Int) + off
  if v < 0 || 2 ^ 52 ≤ v then .error (trapPlain .ptrOverflow)
  else .ok (word (wbits p 63 52 * 2 ^ 52 + v.toNat))

/-- Whether a pointer's bits [63:52] are a valid format and block length (R38, R120). -/
def pointerFormatOk (p : Word) : Bool :=
  wbits p 53 52 == 0 && fmtAssigned (wbits p 63 58) && wbits p 57 54 == fmtBlg (wbits p 63 58)

/-- LEA (R212). -/
def leaResult (p i : Word) : Run Word := do
  orTrap (pointerFormatOk p) (trapPlain .fmtMismatch)
  match elementOffset (wbits p 63 58) i.toInt with
  | none => .error (trapPlain .align)
  | some off => movePointer p off

/-- ADDA (R212). -/
def addaResult (p b : Word) : Run Word := movePointer p b.toInt

/-- SFMT (R211). -/
def sfmtResult (p f : Word) : Run Word := do
  let fmt := wbits f 5 0
  let blg := wbits f 9 6
  orTrap (wbits f 63 10 == 0 && fmtAssigned fmt && blg == fmtBlg fmt) (trapPlain .fmtMismatch)
  return word (fmt * 2 ^ 58 + blg * 2 ^ 54 + wbits p 51 0)

/-- PFMT (R211). -/
def pfmtResult (p : Word) : Word := word (wbits p 57 54 * 64 + wbits p 63 58)

/-- A pointer result that may trap, written to an x register. -/
def pointerOp (f : Word → Word → Run Word) (d a : Fin 32) (b : Core → Word) : State → Run State :=
  onCore fun c => do return c.setX d (← f (c.x a) (b c))

/-- A v register written from x registers: a push where it is bound (R209). -/
def fromX (d : Fin 32) (f : Core → Vec) : State → Run State := onCore fun c => writeV d (f c) c
/-- An x register written from half a v register: a pop where it is bound (R209). -/
def toX (d a : Fin 32) (f : Vec → Word) : State → Run State := onCore fun c => do
  let (v, c') ← readV a c
  return c'.setX d (f v)

/-- VFROMX (R209). -/
def execVfromx (g : Guard) (d : Fin 32) (a : Fin 32) (b : Fin 32) (s : State) : Host.Outcome State Fault Refusal :=
  runOn (.vfromx g d a b) (fromX d fun c => c.x b ++ c.x a) s

/-- VTOX (R209). -/
def execVtox (g : Guard) (d : Fin 32) (a : Fin 32) (s : State) : Host.Outcome State Fault Refusal :=
  runOn (.vtox g d a) (toX d a fun v => v.setWidth 64) s

/-- VTOXH (R209). -/
def execVtoxh (g : Guard) (d : Fin 32) (a : Fin 32) (s : State) : Host.Outcome State Fault Refusal :=
  runOn (.vtoxh g d a) (toX d a fun v => (v >>> 64).setWidth 64) s

/-- VSPLATX (R209). -/
def execVsplatx (g : Guard) (d : Fin 32) (a : Fin 32) (s : State) : Host.Outcome State Fault Refusal :=
  runOn (.vsplatx g d a) (fromX d fun c => c.x a ++ c.x a) s

/-- LDC (R210). -/
def execLdc (g : Guard) (d : Fin 32) (cw : Fin 256) (s : State) : Host.Outcome State Fault Refusal :=
  runOn (.ldc g d cw) (onCorePure fun c => c.setX d (c.opCw cw)) s

/-- LEA (R212). -/
def execLea (g : Guard) (d : Fin 32) (a : Fin 32) (b : Fin 32) (s : State) : Host.Outcome State Fault Refusal :=
  runOn (.lea g d a b) (pointerOp leaResult d a (·.opX b)) s

/-- LEA with a constant (R212). -/
def execLeaCw (g : Guard) (d : Fin 32) (a : Fin 32) (cw : Fin 256) (s : State) : Host.Outcome State Fault Refusal :=
  runOn (.leaCw g d a cw) (pointerOp leaResult d a (·.opCw cw)) s

/-- ADDA (R212). -/
def execAdda (g : Guard) (d : Fin 32) (a : Fin 32) (b : Fin 32) (s : State) : Host.Outcome State Fault Refusal :=
  runOn (.adda g d a b) (pointerOp addaResult d a (·.opX b)) s

/-- ADDA with a constant (R212). -/
def execAddaCw (g : Guard) (d : Fin 32) (a : Fin 32) (cw : Fin 256) (s : State) : Host.Outcome State Fault Refusal :=
  runOn (.addaCw g d a cw) (pointerOp addaResult d a (·.opCw cw)) s

/-- SFMT (R211). -/
def execSfmt (g : Guard) (d : Fin 32) (a : Fin 32) (b : Fin 32) (s : State) : Host.Outcome State Fault Refusal :=
  runOn (.sfmt g d a b) (pointerOp sfmtResult d a (·.opX b)) s

/-- SFMT with a constant (R211). -/
def execSfmtCw (g : Guard) (d : Fin 32) (a : Fin 32) (cw : Fin 256) (s : State) : Host.Outcome State Fault Refusal :=
  runOn (.sfmtCw g d a cw) (pointerOp sfmtResult d a (·.opCw cw)) s

/-- PFMT (R211). -/
def execPfmt (g : Guard) (d : Fin 32) (a : Fin 32) (s : State) : Host.Outcome State Fault Refusal :=
  runOn (.pfmt g d a) (onCorePure fun c => c.setX d (pfmtResult (c.x a))) s

end Sys2Proof.Machine
end

