-- ==== Sys2Proof/Machine/Service.lean ====
section
/-! DEFINITION. Package time, power limit, bring-up and reset, firmware, the SPDM responder and readings (R23, R30 to R32,
R36, R379 to R382, R391, R392). -/

namespace Sys2Proof.Machine

/-! ### Package time and power (R30 to R32, R36) -/

/-- PTP_MESSAGE (R30 to R32): an offset from the grandmaster is removed by the rate, or, where the package is behind by more
than 1 ms, in one forward step; SYNC reads 1 while the offset is within 50 ns. -/
def syncTime (p : Ptp) (s : State) : State :=
  if 1000000 < p.behind then
    { s with iod := { s.iod with ptime := s.iod.ptime + p.behind.toNat, step := true, sync := true } }
  else { s with iod := { s.iod with sync := decide (p.behind.natAbs ≤ 50) } }

/-- SET_PLIM (R36): a power limit from 4.0 kW to 8.4 kW is set; any other is refused and logged. -/
def setPowerLimit (mw : Nat) (s : State) : State :=
  if 4000000 ≤ mw && decide (mw ≤ 8400000) then { s with sp := { s.sp with plim := mw } } else s.logSp (.plimRefused mw)

/-- Throttling to hold the power limit begins or ends on a core (R36). -/
def setThrottle (core : Nat) (on : Bool) (s : State) : State := s.modCore core fun c => { c with throttled := on }

/-! ### Maps and groups written by the service processors, errors they log (R22, R23, R330, R360, R363) -/

/-- A map entry names a physical die of this package: STATE 0, where PKG means nothing (R23). -/
def servedBy (e p : Nat) : Bool := e / 2 ^ 30 == 0 && e % 32 == p
/-- The logical XD that a physical XD serves, if any. -/
def State.logicalXd (s : State) (p : Nat) : Option Nat := (List.range dieCount).find? fun d => servedBy (s.xdNow d) p
/-- The logical MD that a physical MD serves, if any. -/
def State.logicalMd (s : State) (p : Nat) : Option Nat := (List.range 8).find? fun d => servedBy (s.mdNow d) p
/-- The on-package spares after a write of the die map: the sound XDs that no entry names (R365, R380). -/
def State.countSpares (s : State) : State :=
  { s with sp := { s.sp with spares := (List.range 26).filter fun p =>
      !s.sp.physFailed.contains p && (s.logicalXd p).isNone } }

/-- A map entry that names a unit and holds no reserved value, its res0 bits dropped (R5, R22, R23). -/
def MapChange.legal : MapChange → Option MapChange
  | .core n e =>
    if n < coreCount && e.toNat / 64 < 2 && e.toNat % 16 < 9 then some (.core n (e &&& 0xCF#8)) else none
  | .xd n e =>
    if n < dieCount && e.toNat / 2 ^ 30 < 3 && e.toNat % 32 < 26 then some (.xd n (e &&& 0xFFFFC01F#32)) else none
  | .md n e =>
    if n < 8 && e.toNat / 2 ^ 30 < 3 && e.toNat % 32 < 8 then some (.md n (e &&& 0xFFFFC01F#32)) else none
/-- A service processor writes a map entry (R22, R23, R25): the update enters the broadcast order; a reserved value leaves the
entry unchanged, and the refusal is logged. A sound die that an update leaves unnamed is a spare, and one it names is none. -/
def writeMap (m : MapChange) (s : State) : State := match m.legal with
  | some m => (s.broadcast (.map m)).countSpares
  | none => s.logSp (.reservedEntry m)

/-- The service processors take a group map with the frames that are the package's units (R330): twelve packages, no two of which share a tray,
or none at all. A map that is refused is logged. Where the package joins a group, its units and their stripes start as zeros
(log 21). -/
def setGroupMap (members : List (Nat × Nat)) (frames : List Nat) (s : State) : State :=
  let trays := members.map (·.2)
  if !members.isEmpty && (members.length != 12 || trays.eraseDups.length != 12) then s.logSp .groupMapRefused
  else
    let s : State := { s with sp := { s.sp with groupMap := members } }
    match members.findIdx? fun p => p.1 == Config.packageAddress.toNat with
    | none => { s with erasure := none }
    | some i =>
      let same : Bool := match s.erasure with
        | some e => e.position == i && e.frames == frames.eraseDups
        | none => false
      if same then s
      else { s with
        mem := s.mem.filter fun c => !frames.contains (c.1 / 65536)
        erasure := some ⟨i, frames.eraseDups, [], [], []⟩ }

/-- The IEEE 1588 domain number is set through the management interface (R381). -/
def setDomainNumber (n : Nat) (s : State) : State := { s with sp := { s.sp with domain := n } }

/-- A service processor begins to restart on its new Vahiben image, or has restarted: one at a time, and the other keeps
working (R382, log 74). -/
def restartProcessor (b : Bool) (s : State) : State :=
  if s.sp.restarting == some b then
    { s with sp := { s.sp with
      restarting := none
      due := s.sp.due.filter fun k => k != b } }
  else if s.sp.restarting.isNone && s.sp.due.contains b then { s with sp := { s.sp with restarting := some b } }
  else s

/-! ### Firmware (R382) -/

/-- A bank after a reset: the image written before takes effect, and the floor rises to its version. -/
def FwBank.activate (b : FwBank) : FwBank := match b.next with
  | none => b
  | some f => ⟨f, none, if b.floor.toNat ≤ f.version.toNat then f.version else b.floor⟩
/-- The bank of a target. -/
def bankOf : FwTarget → Fin 5
  | .spa => 0
  | .spb => 1
  | .iod => 2
  | .md => 3
  | .xd => 4

/-- FIRMWARE_IMAGE (R382): an image with a good signature and a version at or above the floor is written to the inactive
bank; any other is refused and logged. -/
def takeImage (i : FwImage) (s : State) : State :=
  let k := bankOf i.target
  if i.signed && decide ((s.sp.fw[k]).floor.toNat ≤ i.version.toNat) then
    { s with sp := { s.sp with fw := s.sp.fw.set k { s.sp.fw[k] with next := some ⟨i.version, i.digest⟩ } } }
  else s.logSp .imageRefused

/-! ### Reset and bring-up (R22, R23, R29, R32, R379, R383) -/

/-- What the rest of the broadcast order makes of a die's core map: its entries, its clusters whose spare is in use, and
whether its die is DOWN. A spare die that takes the identity starts with the map of its own (R22, R360). -/
def LogEntry.onMap (die : Nat) (k : Assoc (BitVec 8) × List Nat × Bool) : LogEntry → Assoc (BitVec 8) × List Nat × Bool
  | .map (.core c x) => if dieOf c == die then (k.1.put c x, k.2) else k
  | .map (.xd d x) =>
    if d != die then k
    else
      let down := x.toNat / 2 ^ 30 == 1
      if k.2.2 && !down then ([], [], down) else (k.1, k.2.1, down)
  | _ => k
/-- The core map of a die at the end of the broadcast order, and the clusters whose spare is in use: what the die has applied,
and then the entries it has not (R22, R25). -/
def State.coreMapNow (s : State) (die : Nat) : Assoc (BitVec 8) × List Nat :=
  let d := s.die die
  let (m, used, _) := (s.iod.log.drop d.applied).foldl (LogEntry.onMap die) (d.coreMap, d.csUsed, s.xdDown die die)
  (m, used)

/-- PACKAGE_RESET (R29, R32, R379, R382, R383): every register takes its reset value and package time starts at zero; the
firmware images written before take effect, and the service processors with a new one are to restart on it in turn. The service processors keep what they know of failed units, so that the maps
name only working ones (log 34); memory and the erasure group stay. -/
def resetPackage (s : State) : State :=
  let r := State.reset
  { r with
    cores := (s.cores.filter fun p => p.2.life != .alive).map fun (n, c) => (n, { Core.reset with life := c.life })
    dies := (List.range dieCount).filterMap fun d =>
      let (m, used) := s.coreMapNow d
      if m.isEmpty && used.isEmpty then none else some (d, { Die.reset with coreMap := m, csUsed := used })
    mem := s.mem
    iod := { r.iod with
      dieMap := Vector.ofFn fun n => BitVec.ofNat 32 (s.xdNow n.val)
      mdMap := Vector.ofFn fun n => BitVec.ofNat 32 (s.mdNow n.val) }
    sp := { r.sp with
      spaUp := s.sp.spaUp
      spbUp := s.sp.spbUp
      spares := s.sp.spares
      fw := Vector.ofFn fun i => (s.sp.fw[i]).activate
      lost := s.sp.lost
      failed := s.sp.failed
      quarantine := s.sp.quarantine
      physFailed := s.sp.physFailed
      log := s.sp.log
      domain := s.sp.domain
      due := (if (s.sp.fw[0]).next.isSome then [false] else []) ++ (if (s.sp.fw[1]).next.isSome then [true] else [])
      groupMap := s.sp.groupMap
      replaced := s.sp.replaced }
    erasure := s.erasure
    agenda := s.agenda
    cur := s.cur
    fresh := s.fresh }

/-- Physical dies that passed self-test, in increasing order. -/
def passing {n : Nat} (l : List (Fin n)) : List Nat := ((List.finRange n).filter fun p => l.contains p).map (·.val)
/-- POWER_GOOD (R23, R379): bring-up. With both images of Vahiben bad both processors stay in reset and nothing comes up;
one bad image is logged, and the other processor carries on alone. Logical units map to the units that passed. -/
def bringUp (t : SelfTest) (s : State) : State :=
  if !t.spaVerified && !t.spbVerified then s
  else
    let r := resetPackage s
    let xds := passing t.xds
    let mds := passing t.mds
    let bad := (if t.spaVerified then [] else [SpLog.processorFailed false]) ++
      (if t.spbVerified then [] else [SpLog.processorFailed true])
    let xdEntry (n : Nat) : Nat := match xds[n]? with
      | some p => p
      | none => 2 ^ 30 + n
    let mdEntry (n : Nat) : Nat := if mds.contains n then n else 2 ^ 30 + n
    { r with
      cores := []
      dies := []
      iod := { r.iod with
        dieMap := Vector.ofFn fun n => BitVec.ofNat 32 (xdEntry n.val)
        mdMap := Vector.ofFn fun n => BitVec.ofNat 32 (mdEntry n.val) }
      sp := { Sp.reset with
        spaUp := t.spaVerified
        spbUp := t.spbVerified
        rr := !bad.isEmpty
        spares := (xds.drop 24).take 2
        fw := r.sp.fw
        groupMap := r.sp.groupMap
        lost := ((List.range 24).filter fun n => decide (xds.length ≤ n)) ++
          ((List.range 8).filter fun n => !mds.contains n).map (24 + ·)
        physFailed := ((List.range 26).filter fun p => !xds.contains p) ++
          ((List.range 8).filter fun p => !mds.contains p).map (26 + ·)
        log := s.sp.log ++ bad } }

/-! ### The package report and the SPDM responder (R380, R381) -/

/-- The bank of the firmware a die of the report runs, by its place in report order. -/
def reportBank (p : Nat) : Fin 5 := if p < 26 then 4 else if p < 34 then 3 else 2
/-- The 32 bytes of the firmware digest of a die (R380). -/
def State.digestOf (s : State) (p : Nat) : List Byte := natToBytes 32 (s.sp.fw[reportBank p]).active.digest.toNat
/-- The 64 bytes of a die's entry in the package report, by its place in report order (R380). -/
def State.reportEntry (s : State) (p : Nat) : List Byte :=
  let kind := if p < 26 then 0 else if p < 34 then 1 else 2
  let number := if p < 26 then p else if p < 34 then p - 26 else 0
  let logical : Option Nat := if p < 26 then s.logicalXd number else if p < 34 then s.logicalMd number else some 0
  -- the memory dies stand from 26 among the failed ones
  let status := if logical.isSome then 0 else if s.sp.physFailed.contains p then 2 else 1
  let used := match logical with
    | some d => if p < 26 then (s.coreMapNow d).2.length % 256 else 0
    | none => 0
  natToBytes 8 (number + kind * 2 ^ 6 + status * 2 ^ 8 + logical.getD 0 * 2 ^ 16 + used * 2 ^ 24) ++ s.digestOf p ++
    (List.range 24).map (Config.keyDigest p)
/-- MAPGEN of the die map (R26, R380): the map updates that changed an entry of it. -/
def Iod.dieMapgen (i : Iod) : Nat := (i.log.zipIdx.filter fun (p : LogEntry × Nat) => match p.1 with
  | .map (.xd d x) => i.xdEntry p.2 d != x.toNat
  | _ => false).length
/-- The package report: 2,304 bytes, the header of DEVID, the package's address, XSPARE and MAPGEN of the die map first
(R380). -/
def State.report (s : State) : List Byte :=
  let mapgen := s.iod.dieMapgen
  (List.range 64).map (Config.reportHeader devId Config.packageAddress s.sp.spares.length mapgen) ++ (List.range 35).flatMap s.reportEntry

/-- Bytes signed by the key of a die of the report. -/
def signedBy (p : Nat) (bytes : List Byte) : List Byte := bytes ++ Config.signature p bytes
/-- A response of the SPDM responder that names no algorithms. -/
def State.answer (s : State) (r : SpdmRequest) (content : List Byte) : State :=
  { s with sp := { s.sp with spdm := some ⟨r, none, content⟩ } }
/-- A response about a die of the report: others do not exist. -/
def aboutDie (die : Nat) (f : State → State) (s : State) : Host.Outcome State Fault Refusal :=
  if 35 ≤ die then .fault .noSuchUnit else .next (f s)
/-- GET_MEASUREMENTS (R380, R381): index 1 + p is the firmware digest of die p, 0x40 the package report, each signed; an
index that names neither has no measurement to return. -/
def measure (index : Nat) (s : State) : State :=
  if index == 0x40 then s.answer .measurements (signedBy 34 s.report)
  else if 1 ≤ index && decide (index ≤ 35) then s.answer .measurements (signedBy (index - 1) (s.digestOf (index - 1)))
  else s.answer .measurements []

/-! ### Readings (R391, R392) -/

/-- Two readings overlap in time on a die of both scopes. -/
def readingsClash (a b : ReadingReq) : Bool :=
  decide (a.t0 < b.t1) && decide (b.t0 < a.t1) && (match a.scope, b.scope with
    | some c, some d => c == d
    | _, _ => true)
/-- READING_REQUEST (R392): a reading is taken, or refused where it begins less than 10 µs ahead, its event is not listed,
or it overlaps another. -/
def askReading (r : ReadingReq) (s : State) : State :=
  if decide (r.t0 < s.iod.ptime + 10000) || decide (r.t1 ≤ r.t0) || decide (0x0C < r.event.toNat) ||
      s.sp.readings.any fun k => readingsClash k.req r then s
  else { s with sp := { s.sp with readings := s.sp.readings ++ [⟨r, false, [], [], [], false, false, 0, none, none⟩] } }

/-- Change a reading. -/
def State.modReading (s : State) (i : Nat) (f : Reading → Reading) : State :=
  { s with sp := { s.sp with readings := s.sp.readings.modify i f } }
/-- Cores held by a gang of a job (R392). -/
def State.heldBy (s : State) (id : Word) : List Nat :=
  (s.cores.filter fun p => p.2.gang.isSome && ((s.job p.2.jobNo).map (·.launch.jobId == id)).getD false).map (·.1)
/-- A reading whose T0 has come selects its cores (R392). -/
def State.markReading (s : State) (r : Reading) : Reading :=
  if r.begun || decide (s.iod.ptime < r.req.t0) then r
  else { r with
    begun := true
    held := if r.req.jobId == 0 then [] else s.heldBy r.req.jobId }
/-- Every reading does so. -/
def State.markReadings (s : State) : State :=
  { s with sp := { s.sp with readings := s.sp.readings.map s.markReading } }
/-- READING_START (R391, R392): a selected core's first cycle at or after T0 arms its counter; one stopped for debug is armed
too, and counts nothing while it is halted. -/
def armReading (i core : Nat) (s : State) : State :=
  match s.sp.readings[i]? with
  | none => s
  | some r =>
    if r.done || r.armed.contains core || !r.selects core || (s.core core).life != .alive then s
    else
      let s := s.modCore core fun c => { c with dbg := { c.dbg with
        evsel := word (256 + r.req.event.toNat)
        evcnt := 0 } }
      s.modReading i fun r => { r with armed := r.armed ++ [core] }

/-- Whether a core latches at T1: it is not DOWN (R392). -/
def State.latches (s : State) (core : Nat) : Bool :=
  (s.core core).life == .alive && !s.coreEntryDown core && !s.xdDown (dieOf core) (dieOf core)
/-- The better of two latched values, each with its core: the lowest core wins a tie (R392). -/
def pick (least : Bool) (best : Option (Nat × Nat)) (v : Nat × Nat) : Option (Nat × Nat) := match best with
  | none => some v
  | some b =>
    let better := if least then decide (v.2 < b.2) else decide (b.2 < v.2)
    if better || (v.2 == b.2 && decide (v.1 < b.1)) then some v else some b
/-- The cores a reading selects: those it holds, or every core of its scope. -/
def Reading.cores (r : Reading) : List Nat :=
  if r.req.jobId != 0 then r.held.filter r.selects
  else (match r.req.scope with
    | some d => dieCores d.val
    | none => List.range coreCount).filter r.selects
/-- READING_END (R391, R392): at T1 the armed cores latch their counts, and the trees combine them; a selected core that does
not latch sets LOSS. A working core's first cycle since T0 comes before. -/
def endReading (i : Nat) (s : State) : State :=
  match s.sp.readings[i]? with
  | none => s
  | some r =>
    let chosen := r.cores
    let early := chosen.any fun n => !r.armed.contains n && s.latches n
    if r.done || !r.begun || decide (s.iod.ptime < r.req.t1) || early then s
    else
      let ok := r.armed.filter s.latches
      let values := ok.map fun n => (n, (s.core n).dbg.evcnt.toNat)
      let s := r.armed.foldl (fun s n => s.modCore n fun c => { c with dbg := { c.dbg with
        evsel := c.dbg.evsel &&& 0xFF#64 } }) s
      s.modReading i fun r => { r with
        latched := values
        loss := r.loss || decide (ok.length < chosen.length)
        done := true
        sum := if r.req.minMax then 0 else (values.map (·.2)).sum % 2 ^ 96
        min := if r.req.minMax then values.foldl (pick true) none else none
        max := if r.req.minMax then values.foldl (pick false) none else none }

/-! ### The events -/

/-- PTP_MESSAGE (R31). -/
def execPtpMessage (ptp : Ptp) (s : State) : Host.Outcome State Fault Refusal := .next (syncTime ptp s)

/-- POWER_GOOD (R379). -/
def execPowerGood (selfTest : SelfTest) (s : State) : Host.Outcome State Fault Refusal := .next (bringUp selfTest s)

/-- PACKAGE_RESET (R379). -/
def execPackageReset (s : State) : Host.Outcome State Fault Refusal := .next (resetPackage s)

/-- FIRMWARE_IMAGE (R382). -/
def execFirmwareImage (image : FwImage) (s : State) : Host.Outcome State Fault Refusal := .next (takeImage image s)

/-- SET_PLIM (R36). -/
def execSetPlim (milliwatts : Nat) (s : State) : Host.Outcome State Fault Refusal := .next (setPowerLimit milliwatts s)

/-- GET_VERSION (R381). -/
def execGetVersion (s : State) : Host.Outcome State Fault Refusal :=
  .next (s.answer .version (Config.spdmBytes 0 0 0))

/-- GET_CAPABILITIES (R381). -/
def execGetCapabilities (s : State) : Host.Outcome State Fault Refusal :=
  .next (s.answer .capabilities (Config.spdmBytes 1 0 0))

/-- NEGOTIATE_ALGORITHMS (R381): SHA-256 and the LMS signature are what it offers; the bytes of the answer are those of
SPDM 1.3. -/
def execNegotiateAlgorithms (s : State) : Host.Outcome State Fault Refusal :=
  .next { s with sp := { s.sp with
    spdm := some ⟨.algorithms, some (.sha256, .lmsSha256M32H10LmotsN32W4), Config.spdmBytes 2 0 0⟩ } }

/-- GET_DIGESTS (R381). -/
def execGetDigests (die : Nat) (s : State) : Host.Outcome State Fault Refusal :=
  aboutDie die (fun s => s.answer .digests (Config.spdmBytes 3 die 0)) s

/-- GET_CERTIFICATE (R381). -/
def execGetCertificate (die : Nat) (s : State) : Host.Outcome State Fault Refusal :=
  aboutDie die (fun s => s.answer .certificate (Config.spdmBytes 4 die 0)) s

/-- CHALLENGE (R381): the answer is signed by the die's key. -/
def execChallenge (die : Nat) (nonce : BitVec 256) (s : State) : Host.Outcome State Fault Refusal :=
  aboutDie die (fun s => s.answer .challenge (signedBy die (Config.spdmBytes 5 die nonce))) s

/-- GET_MEASUREMENTS (R381). -/
def execGetMeasurements (index : Nat) (s : State) : Host.Outcome State Fault Refusal := .next (measure index s)

/-- READING_REQUEST (R392). -/
def execReadingRequest (reading : ReadingReq) (s : State) : Host.Outcome State Fault Refusal := .next (askReading reading s)

/-- READING_START (R392). -/
def execReadingStart (reading : Nat) (core : Nat) (s : State) : Host.Outcome State Fault Refusal :=
  onRealCore core (armReading reading core) s

/-- READING_END (R392). -/
def execReadingEnd (reading : Nat) (s : State) : Host.Outcome State Fault Refusal := .next (endReading reading s)

end Sys2Proof.Machine
end

