-- ==== Sys2Proof/Machine/Special.lean ====
section
/-! DEFINITION. Special functions and the merge of softmax partials (R260, R261). -/

namespace Sys2Proof.Machine

/-- A special function on four FP32 lanes (R260). -/
def specialVec (f : SpecialFn) (a : Vec) : Vec × Flags := mapLanes 32 (specialFn f) a

/-- The scale of one side of a merge (R261): 1 where its maximum is the pair's, else 2 to the difference. -/
def mergeScale (mx m : Val) : Val :=
  if mx.eq m then .ofInt 1 else fp32.decode (exp2Fn (fp32.decode (rneF32 (mx.add m.neg)).1)).1
/-- One pair of MSMRG, from the pair of vd and the pair of va (R261). -/
def mergePair (md sd ma sa : Nat) : Nat × Nat × Flags :=
  let m := floatPick fp32 true md ma
  let mv := fp32.decode m
  let ed := mergeScale (fp32.decode md) mv
  let ea := mergeScale (fp32.decode ma) mv
  let d := fp32.decode sd
  let a := fp32.decode sa
  let total := (d.mul ed).add (a.mul ea)
  let (s, fl) := rneF32 total
  (m, s, fl ||| newNan [d, ed, a, ea] total)
/-- MSMRG (R261). -/
def mergeVec (a d : Vec) : Vec × Flags :=
  let (m0, s0, f0) := mergePair (lane d 32 0) (lane d 32 1) (lane a 32 0) (lane a 32 1)
  let (m1, s1, f1) := mergePair (lane d 32 2) (lane d 32 3) (lane a 32 2) (lane a 32 3)
  (ofLanes 32 [m0, s0, m1, s1], f0 ||| f1)

/-- EXP2 (R260). -/
def execExp2 (g : Guard) (d : Fin 32) (a : Fin 32) (s : State) : Host.Outcome State Fault Refusal :=
  runOn (.exp2 g d a) (vec1 (fun _ x => specialVec .exp2 x) d a) s

/-- LOG2 (R260). -/
def execLog2 (g : Guard) (d : Fin 32) (a : Fin 32) (s : State) : Host.Outcome State Fault Refusal :=
  runOn (.log2 g d a) (vec1 (fun _ x => specialVec .log2 x) d a) s

/-- RCP (R260). -/
def execRcp (g : Guard) (d : Fin 32) (a : Fin 32) (s : State) : Host.Outcome State Fault Refusal :=
  runOn (.rcp g d a) (vec1 (fun _ x => specialVec .rcp x) d a) s

/-- RSQ (R260). -/
def execRsq (g : Guard) (d : Fin 32) (a : Fin 32) (s : State) : Host.Outcome State Fault Refusal :=
  runOn (.rsq g d a) (vec1 (fun _ x => specialVec .rsq x) d a) s

/-- SQRT (R260). -/
def execSqrt (g : Guard) (d : Fin 32) (a : Fin 32) (s : State) : Host.Outcome State Fault Refusal :=
  runOn (.sqrt g d a) (vec1 (fun _ x => specialVec .sqrt x) d a) s

/-- TANH (R260). -/
def execTanh (g : Guard) (d : Fin 32) (a : Fin 32) (s : State) : Host.Outcome State Fault Refusal :=
  runOn (.tanh g d a) (vec1 (fun _ x => specialVec .tanh x) d a) s

/-- MSMRG (R261). -/
def execMsmrg (g : Guard) (d : Fin 32) (a : Fin 32) (s : State) : Host.Outcome State Fault Refusal :=
  runOn (.msmrg g d a) (vec2d (fun _ x z => mergeVec x z) d a) s

end Sys2Proof.Machine
end

