-- ==== Sys2Proof/Machine/Dispatch.lean ====
section
/-! DEFINITION. One arm for each instruction and event: one direct call of its meaning. -/

namespace Sys2Proof.Machine

/-- The outcome of an instruction or event. -/
def exec (i : Instr) (s : State) : Host.Outcome State Fault Refusal :=
  match i with
  | .add g d a b => Sys2Proof.Machine.execAdd g d a b s
  | .sub g d a b => Sys2Proof.Machine.execSub g d a b s
  | .mul g d a b => Sys2Proof.Machine.execMul g d a b s
  | .mulh g d a b => Sys2Proof.Machine.execMulh g d a b s
  | .mulhu g d a b => Sys2Proof.Machine.execMulhu g d a b s
  | .div g d a b => Sys2Proof.Machine.execDiv g d a b s
  | .divu g d a b => Sys2Proof.Machine.execDivu g d a b s
  | .rem g d a b => Sys2Proof.Machine.execRem g d a b s
  | .remu g d a b => Sys2Proof.Machine.execRemu g d a b s
  | .and g d a b => Sys2Proof.Machine.execAnd g d a b s
  | .or g d a b => Sys2Proof.Machine.execOr g d a b s
  | .xor g d a b => Sys2Proof.Machine.execXor g d a b s
  | .andn g d a b => Sys2Proof.Machine.execAndn g d a b s
  | .shl g d a b => Sys2Proof.Machine.execShl g d a b s
  | .shr g d a b => Sys2Proof.Machine.execShr g d a b s
  | .sra g d a b => Sys2Proof.Machine.execSra g d a b s
  | .ror g d a b => Sys2Proof.Machine.execRor g d a b s
  | .min g d a b => Sys2Proof.Machine.execMin g d a b s
  | .max g d a b => Sys2Proof.Machine.execMax g d a b s
  | .minu g d a b => Sys2Proof.Machine.execMinu g d a b s
  | .maxu g d a b => Sys2Proof.Machine.execMaxu g d a b s
  | .addCw g d a cw => Sys2Proof.Machine.execAddCw g d a cw s
  | .andCw g d a cw => Sys2Proof.Machine.execAndCw g d a cw s
  | .orCw g d a cw => Sys2Proof.Machine.execOrCw g d a cw s
  | .xorCw g d a cw => Sys2Proof.Machine.execXorCw g d a cw s
  | .shlCw g d a cw => Sys2Proof.Machine.execShlCw g d a cw s
  | .shrCw g d a cw => Sys2Proof.Machine.execShrCw g d a cw s
  | .sraCw g d a cw => Sys2Proof.Machine.execSraCw g d a cw s
  | .mulCw g d a cw => Sys2Proof.Machine.execMulCw g d a cw s
  | .cmpeq g d a b => Sys2Proof.Machine.execCmpeq g d a b s
  | .cmpne g d a b => Sys2Proof.Machine.execCmpne g d a b s
  | .cmplt g d a b => Sys2Proof.Machine.execCmplt g d a b s
  | .cmpge g d a b => Sys2Proof.Machine.execCmpge g d a b s
  | .cmpltu g d a b => Sys2Proof.Machine.execCmpltu g d a b s
  | .cmpgeu g d a b => Sys2Proof.Machine.execCmpgeu g d a b s
  | .cmpeqCw g d a cw => Sys2Proof.Machine.execCmpeqCw g d a cw s
  | .cmpneCw g d a cw => Sys2Proof.Machine.execCmpneCw g d a cw s
  | .cmpltCw g d a cw => Sys2Proof.Machine.execCmpltCw g d a cw s
  | .cmpltuCw g d a cw => Sys2Proof.Machine.execCmpltuCw g d a cw s
  | .pand g d a b => Sys2Proof.Machine.execPand g d a b s
  | .por g d a b => Sys2Proof.Machine.execPor g d a b s
  | .pxor g d a b => Sys2Proof.Machine.execPxor g d a b s
  | .pandn g d a b => Sys2Proof.Machine.execPandn g d a b s
  | .pmovx g d a => Sys2Proof.Machine.execPmovx g d a s
  | .extu g d a b => Sys2Proof.Machine.execExtu g d a b s
  | .exts g d a b => Sys2Proof.Machine.execExts g d a b s
  | .ins g d a b => Sys2Proof.Machine.execIns g d a b s
  | .clz g d a => Sys2Proof.Machine.execClz g d a s
  | .ctz g d a => Sys2Proof.Machine.execCtz g d a s
  | .popc g d a => Sys2Proof.Machine.execPopc g d a s
  | .brev g d a => Sys2Proof.Machine.execBrev g d a s
  | .bswap g d a => Sys2Proof.Machine.execBswap g d a s
  | .extuCw g d a cw => Sys2Proof.Machine.execExtuCw g d a cw s
  | .extsCw g d a cw => Sys2Proof.Machine.execExtsCw g d a cw s
  | .insCw g d a cw => Sys2Proof.Machine.execInsCw g d a cw s
  | .ldc g d cw => Sys2Proof.Machine.execLdc g d cw s
  | .lea g d a b => Sys2Proof.Machine.execLea g d a b s
  | .adda g d a b => Sys2Proof.Machine.execAdda g d a b s
  | .pfmt g d a => Sys2Proof.Machine.execPfmt g d a s
  | .sfmt g d a b => Sys2Proof.Machine.execSfmt g d a b s
  | .leaCw g d a cw => Sys2Proof.Machine.execLeaCw g d a cw s
  | .addaCw g d a cw => Sys2Proof.Machine.execAddaCw g d a cw s
  | .sfmtCw g d a cw => Sys2Proof.Machine.execSfmtCw g d a cw s
  | .br g off => Sys2Proof.Machine.execBr g off s
  | .call g off => Sys2Proof.Machine.execCall g off s
  | .jr g a => Sys2Proof.Machine.execJr g a s
  | .ret g => Sys2Proof.Machine.execRet g s
  | .loop g set n len => Sys2Proof.Machine.execLoop g set n len s
  | .endTask g => Sys2Proof.Machine.execEndTask g s
  | .lbrk g set => Sys2Proof.Machine.execLbrk g set s
  | .vfromx g d a b => Sys2Proof.Machine.execVfromx g d a b s
  | .vtox g d a => Sys2Proof.Machine.execVtox g d a s
  | .vtoxh g d a => Sys2Proof.Machine.execVtoxh g d a s
  | .vsplatx g d a => Sys2Proof.Machine.execVsplatx g d a s
  | .ltld g a => Sys2Proof.Machine.execLtld g a s
  | .sample g d a b => Sys2Proof.Machine.execSample g d a b s
  | .topkm g d a b => Sys2Proof.Machine.execTopkm g d a b s
  | .own g d a b => Sys2Proof.Machine.execOwn g d a b s
  | .ldN g d a b w => Sys2Proof.Machine.execLdN g d a b w s
  | .ldI g d a b w => Sys2Proof.Machine.execLdI g d a b w s
  | .ldCw g d a cw w => Sys2Proof.Machine.execLdCw g d a cw w s
  | .st g d a b w => Sys2Proof.Machine.execSt g d a b w s
  | .stCw g d a cw w => Sys2Proof.Machine.execStCw g d a cw w s
  | .vld g d a b => Sys2Proof.Machine.execVld g d a b s
  | .vst g d a b => Sys2Proof.Machine.execVst g d a b s
  | .vldx g d a b e => Sys2Proof.Machine.execVldx g d a b e s
  | .vstx g d a b e => Sys2Proof.Machine.execVstx g d a b e s
  | .gld g d a sc w ord => Sys2Proof.Machine.execGld g d a sc w ord s
  | .gst g d a sc w gack ord => Sys2Proof.Machine.execGst g d a sc w gack ord s
  | .gvld g d a sc ord => Sys2Proof.Machine.execGvld g d a sc ord s
  | .gvst g d a sc gack ord => Sys2Proof.Machine.execGvst g d a sc gack ord s
  | .gpfDc g a b => Sys2Proof.Machine.execGpfDc g a b s
  | .gpfLlc g a b => Sys2Proof.Machine.execGpfLlc g a b s
  | .aadd g d a b o wd => Sys2Proof.Machine.execAadd g d a b o wd s
  | .aand g d a b o wd => Sys2Proof.Machine.execAand g d a b o wd s
  | .aor g d a b o wd => Sys2Proof.Machine.execAor g d a b o wd s
  | .axor g d a b o wd => Sys2Proof.Machine.execAxor g d a b o wd s
  | .amin g d a b o un wd => Sys2Proof.Machine.execAmin g d a b o un wd s
  | .amax g d a b o un wd => Sys2Proof.Machine.execAmax g d a b o un wd s
  | .aswp g d a b o wd => Sys2Proof.Machine.execAswp g d a b o wd s
  | .acas g d a b o wd => Sys2Proof.Machine.execAcas g d a b o wd s
  | .afadd g d a b o => Sys2Proof.Machine.execAfadd g d a b o s
  | .vaor g d a b o => Sys2Proof.Machine.execVaor g d a b o s
  | .fenceAcq g sc => Sys2Proof.Machine.execFenceAcq g sc s
  | .fenceRel g sc => Sys2Proof.Machine.execFenceRel g sc s
  | .fenceFull g sc => Sys2Proof.Machine.execFenceFull g sc s
  | .tset g a b => Sys2Proof.Machine.execTset g a b s
  | .tgen g d a => Sys2Proof.Machine.execTgen g d a s
  | .bara g b => Sys2Proof.Machine.execBara g b s
  | .bard g b => Sys2Proof.Machine.execBard g b s
  | .barq g d b => Sys2Proof.Machine.execBarq g d b s
  | .rdef g h a => Sys2Proof.Machine.execRdef g h a s
  | .radvHd g h a => Sys2Proof.Machine.execRadvHd g h a s
  | .radvTl g h a => Sys2Proof.Machine.execRadvTl g h a s
  | .rqry g d h => Sys2Proof.Machine.execRqry g d h s
  | .bind g w h => Sys2Proof.Machine.execBind g w h s
  | .unbind g w => Sys2Proof.Machine.execUnbind g w s
  | .hpin g d a => Sys2Proof.Machine.execHpin g d a s
  | .hdem g a b => Sys2Proof.Machine.execHdem g a b s
  | .hevt g a => Sys2Proof.Machine.execHevt g a s
  | .send g a b => Sys2Proof.Machine.execSend g a b s
  | .sendv g a b => Sys2Proof.Machine.execSendv g a b s
  | .reply g a b => Sys2Proof.Machine.execReply g a b s
  | .dec g a b => Sys2Proof.Machine.execDec g a b s
  | .msgrd g d b => Sys2Proof.Machine.execMsgrd g d b s
  | .spawn g k a b v => Sys2Proof.Machine.execSpawn g k a b v s
  | .cpy g d a b => Sys2Proof.Machine.execCpy g d a b s
  | .cpys g d a b => Sys2Proof.Machine.execCpys g d a b s
  | .efq g d a b => Sys2Proof.Machine.execEfq g d a b s
  | .coll g d a b => Sys2Proof.Machine.execColl g d a b s
  | .gmask g d a b => Sys2Proof.Machine.execGmask g d a b s
  | .gstep g d a b => Sys2Proof.Machine.execGstep g d a b s
  | .csrr g d num => Sys2Proof.Machine.execCsrr g d num s
  | .csrw g d num => Sys2Proof.Machine.execCsrw g d num s
  | .trap g a => Sys2Proof.Machine.execTrap g a s
  | .hbt g => Sys2Proof.Machine.execHbt g s
  | .brk g => Sys2Proof.Machine.execBrk g s
  | .trc g a => Sys2Proof.Machine.execTrc g a s
  | .cdo g a => Sys2Proof.Machine.execCdo g a s
  | .cdc g a => Sys2Proof.Machine.execCdc g a s
  | .cdp g a b => Sys2Proof.Machine.execCdp g a b s
  | .vadd g d a b sat t => Sys2Proof.Machine.execVadd g d a b sat t s
  | .vsub g d a b sat t => Sys2Proof.Machine.execVsub g d a b sat t s
  | .vmul g d a b t => Sys2Proof.Machine.execVmul g d a b t s
  | .vfma g d a b t => Sys2Proof.Machine.execVfma g d a b t s
  | .vmin g d a b t => Sys2Proof.Machine.execVmin g d a b t s
  | .vmax g d a b t => Sys2Proof.Machine.execVmax g d a b t s
  | .vand g d a b => Sys2Proof.Machine.execVand g d a b s
  | .vor g d a b => Sys2Proof.Machine.execVor g d a b s
  | .vxor g d a b => Sys2Proof.Machine.execVxor g d a b s
  | .vandn g d a b => Sys2Proof.Machine.execVandn g d a b s
  | .vshl g d a b t => Sys2Proof.Machine.execVshl g d a b t s
  | .vshr g d a b t => Sys2Proof.Machine.execVshr g d a b t s
  | .vceq g d a b t => Sys2Proof.Machine.execVceq g d a b t s
  | .vclt g d a b t => Sys2Proof.Machine.execVclt g d a b t s
  | .vcle g d a b t => Sys2Proof.Machine.execVcle g d a b t s
  | .vsel g d a b => Sys2Proof.Machine.execVsel g d a b s
  | .vabs g d a t => Sys2Proof.Machine.execVabs g d a t s
  | .vneg g d a t => Sys2Proof.Machine.execVneg g d a t s
  | .vdot g d a b t => Sys2Proof.Machine.execVdot g d a b t s
  | .vperm g d a b => Sys2Proof.Machine.execVperm g d a b s
  | .vzipl g d a b e => Sys2Proof.Machine.execVzipl g d a b e s
  | .vziph g d a b e => Sys2Proof.Machine.execVziph g d a b e s
  | .vuzpe g d a b e => Sys2Proof.Machine.execVuzpe g d a b e s
  | .vuzpo g d a b e => Sys2Proof.Machine.execVuzpo g d a b e s
  | .vredadd g d a t => Sys2Proof.Machine.execVredadd g d a t s
  | .vredmax g d a t => Sys2Proof.Machine.execVredmax g d a t s
  | .vredmin g d a t => Sys2Proof.Machine.execVredmin g d a t s
  | .vaddCw g d a cw t => Sys2Proof.Machine.execVaddCw g d a cw t s
  | .vmulCw g d a cw t => Sys2Proof.Machine.execVmulCw g d a cw t s
  | .vfmaCw g d a cw t => Sys2Proof.Machine.execVfmaCw g d a cw t s
  | .vcvtRne g d a src sat t => Sys2Proof.Machine.execVcvtRne g d a src sat t s
  | .vcvtRtz g d a src sat t => Sys2Proof.Machine.execVcvtRtz g d a src sat t s
  | .vcvtRmi g d a src sat t => Sys2Proof.Machine.execVcvtRmi g d a src sat t s
  | .vcvtRpi g d a src sat t => Sys2Proof.Machine.execVcvtRpi g d a src sat t s
  | .qnt g d a b fmt => Sys2Proof.Machine.execQnt g d a b fmt s
  | .qntNs g d a b fmt => Sys2Proof.Machine.execQntNs g d a b fmt s
  | .dqn g d a b fmt => Sys2Proof.Machine.execDqn g d a b fmt s
  | .ltd g d a lt4 => Sys2Proof.Machine.execLtd g d a lt4 s
  | .lte g d a lt4 => Sys2Proof.Machine.execLte g d a lt4 s
  | .had g d a b n32 => Sys2Proof.Machine.execHad g d a b n32 s
  | .hadInv g d a b n32 => Sys2Proof.Machine.execHadInv g d a b n32 s
  | .rngCore g d a => Sys2Proof.Machine.execRngCore g d a s
  | .rngIdx g d a => Sys2Proof.Machine.execRngIdx g d a s
  | .srnd g d a b fmt => Sys2Proof.Machine.execSrnd g d a b fmt s
  | .exp2 g d a => Sys2Proof.Machine.execExp2 g d a s
  | .log2 g d a => Sys2Proof.Machine.execLog2 g d a s
  | .rcp g d a => Sys2Proof.Machine.execRcp g d a s
  | .rsq g d a => Sys2Proof.Machine.execRsq g d a s
  | .sqrt g d a => Sys2Proof.Machine.execSqrt g d a s
  | .tanh g d a => Sys2Proof.Machine.execTanh g d a s
  | .msmrg g d a => Sys2Proof.Machine.execMsmrg g d a s
  | .mma g a b t zc => Sys2Proof.Machine.execMma g a b t zc s
  | .mmas g a b t zc => Sys2Proof.Machine.execMmas g a b t zc s
  | .mmat g a b t zc => Sys2Proof.Machine.execMmat g a b t zc s
  | .czero g t => Sys2Proof.Machine.execCzero g t s
  | .cscl g t q => Sys2Proof.Machine.execCscl g t q s
  | .ccvt g t h => Sys2Proof.Machine.execCcvt g t h s
  | .cadd g t q => Sys2Proof.Machine.execCadd g t q s
  | .mdrain g => Sys2Proof.Machine.execMdrain g s
  | .mqry g d => Sys2Proof.Machine.execMqry g d s
  | .mxcfg g a => Sys2Proof.Machine.execMxcfg g a s
  | .stalledIssueResume core => Sys2Proof.Machine.execStalledIssueResume core s
  | .breakpointHalt core bp => Sys2Proof.Machine.execBreakpointHalt core bp s
  | .debugHalt core => Sys2Proof.Machine.execDebugHalt core s
  | .messageArrival idx => Sys2Proof.Machine.execMessageArrival idx s
  | .barrowRefill core => Sys2Proof.Machine.execBarrowRefill core s
  | .decArrival idx => Sys2Proof.Machine.execDecArrival idx s
  | .taskDispatch core => Sys2Proof.Machine.execTaskDispatch core s
  | .waitAging core chan => Sys2Proof.Machine.execWaitAging core chan s
  | .taskBudget core => Sys2Proof.Machine.execTaskBudget core s
  | .taskEndRelease core => Sys2Proof.Machine.execTaskEndRelease core s
  | .bufferedMessageSend core idx => Sys2Proof.Machine.execBufferedMessageSend core idx s
  | .lateFault core => Sys2Proof.Machine.execLateFault core s
  | .globalRequestAtHome core nth ecc => Sys2Proof.Machine.execGlobalRequestAtHome core nth ecc s
  | .atomicPerform core nth ecc => Sys2Proof.Machine.execAtomicPerform core nth ecc s
  | .orderedAtomicSend core nth => Sys2Proof.Machine.execOrderedAtomicSend core nth s
  | .globalResponse core nth => Sys2Proof.Machine.execGlobalResponse core nth s
  | .ackTimeout core nth => Sys2Proof.Machine.execAckTimeout core nth s
  | .crierOrder rec => Sys2Proof.Machine.execCrierOrder rec s
  | .replicaUpdate md => Sys2Proof.Machine.execReplicaUpdate md s
  | .gackExpose rec => Sys2Proof.Machine.execGackExpose rec s
  | .fwdStoreRemoteVisible die rec => Sys2Proof.Machine.execFwdStoreRemoteVisible die rec s
  | .pageWalk who via => Sys2Proof.Machine.execPageWalk who via s
  | .demandServiceExpiry token => Sys2Proof.Machine.execDemandServiceExpiry token s
  | .parityUpdate idx parity => Sys2Proof.Machine.execParityUpdate idx parity s
  | .frameZero frame job => Sys2Proof.Machine.execFrameZero frame job s
  | .engineCommandAccept core nth => Sys2Proof.Machine.execEngineCommandAccept core nth s
  | .engineBlockSend core nth ecc => Sys2Proof.Machine.execEngineBlockSend core nth ecc s
  | .engineBlockArrival core nth blk got => Sys2Proof.Machine.execEngineBlockArrival core nth blk got s
  | .blockResend core nth blk => Sys2Proof.Machine.execBlockResend core nth blk s
  | .engineCommandComplete core nth => Sys2Proof.Machine.execEngineCommandComplete core nth s
  | .collMatch job gid use => Sys2Proof.Machine.execCollMatch job gid use s
  | .grammarExecute core nth => Sys2Proof.Machine.execGrammarExecute core nth s
  | .mxuStart mxu => Sys2Proof.Machine.execMxuStart mxu s
  | .mmaRetire core => Sys2Proof.Machine.execMmaRetire core s
  | .czeroRetire core => Sys2Proof.Machine.execCzeroRetire core s
  | .csclRetire core => Sys2Proof.Machine.execCsclRetire core s
  | .caddRetire core => Sys2Proof.Machine.execCaddRetire core s
  | .sqDoorbell q tail => Sys2Proof.Machine.execSqDoorbell q tail s
  | .launchPacket q => Sys2Proof.Machine.execLaunchPacket q s
  | .graphPacket q => Sys2Proof.Machine.execGraphPacket q s
  | .translationInvalidate q => Sys2Proof.Machine.execTranslationInvalidate q s
  | .translationInvalidateApply unit => Sys2Proof.Machine.execTranslationInvalidateApply unit s
  | .invalidateComplete seq => Sys2Proof.Machine.execInvalidateComplete seq s
  | .dieApplyLaunch die => Sys2Proof.Machine.execDieApplyLaunch die s
  | .mapUpdate unit => Sys2Proof.Machine.execMapUpdate unit s
  | .gangGrant job g => Sys2Proof.Machine.execGangGrant job g s
  | .gangComplete job g => Sys2Proof.Machine.execGangComplete job g s
  | .jobCompletionRecord job => Sys2Proof.Machine.execJobCompletionRecord job s
  | .preemptStart die => Sys2Proof.Machine.execPreemptStart die s
  | .preemptSave job g => Sys2Proof.Machine.execPreemptSave job g s
  | .preemptSaveComplete job g => Sys2Proof.Machine.execPreemptSaveComplete job g s
  | .gangResume job g => Sys2Proof.Machine.execGangResume job g s
  | .cqhead q head => Sys2Proof.Machine.execCqhead q head s
  | .abort jobid => Sys2Proof.Machine.execAbort jobid s
  | .fqdb token verdict => Sys2Proof.Machine.execFqdb token verdict s
  | .gevent gid => Sys2Proof.Machine.execGevent gid s
  | .bar0RegisterWrite offset value => Sys2Proof.Machine.execBar0RegisterWrite offset value s
  | .graphKernelComplete gid => Sys2Proof.Machine.execGraphKernelComplete gid s
  | .jobStop job => Sys2Proof.Machine.execJobStop job s
  | .jobTimeout job => Sys2Proof.Machine.execJobTimeout job s
  | .heartbeat core => Sys2Proof.Machine.execHeartbeat core s
  | .heartbeatIntervalEnd die => Sys2Proof.Machine.execHeartbeatIntervalEnd die s
  | .parityLocal core => Sys2Proof.Machine.execParityLocal core s
  | .dieHeartbeat unit => Sys2Proof.Machine.execDieHeartbeat unit s
  | .dieHeartbeatTimeout unit => Sys2Proof.Machine.execDieHeartbeatTimeout unit s
  | .peerVote vote => Sys2Proof.Machine.execPeerVote vote s
  | .spareCoreTakeover core => Sys2Proof.Machine.execSpareCoreTakeover core s
  | .instanceReplay job g dom => Sys2Proof.Machine.execInstanceReplay job g dom s
  | .replayRootRestore job g dom => Sys2Proof.Machine.execReplayRootRestore job g dom s
  | .gangReplay job g => Sys2Proof.Machine.execGangReplay job g s
  | .jobReplay job => Sys2Proof.Machine.execJobReplay job s
  | .domainInstanceEnd job g dom => Sys2Proof.Machine.execDomainInstanceEnd job g dom s
  | .stripeRebuild stripe symbol => Sys2Proof.Machine.execStripeRebuild stripe symbol s
  | .ptpMessage ptp => Sys2Proof.Machine.execPtpMessage ptp s
  | .powerGood selfTest => Sys2Proof.Machine.execPowerGood selfTest s
  | .packageReset => Sys2Proof.Machine.execPackageReset s
  | .firmwareImage image => Sys2Proof.Machine.execFirmwareImage image s
  | .setPlim milliwatts => Sys2Proof.Machine.execSetPlim milliwatts s
  | .getVersion => Sys2Proof.Machine.execGetVersion s
  | .getCapabilities => Sys2Proof.Machine.execGetCapabilities s
  | .negotiateAlgorithms => Sys2Proof.Machine.execNegotiateAlgorithms s
  | .getDigests die => Sys2Proof.Machine.execGetDigests die s
  | .getCertificate die => Sys2Proof.Machine.execGetCertificate die s
  | .challenge die nonce => Sys2Proof.Machine.execChallenge die nonce s
  | .getMeasurements index => Sys2Proof.Machine.execGetMeasurements index s
  | .readingRequest reading => Sys2Proof.Machine.execReadingRequest reading s
  | .readingStart reading core => Sys2Proof.Machine.execReadingStart reading core s
  | .readingEnd reading => Sys2Proof.Machine.execReadingEnd reading s
  | .haltDie die => Sys2Proof.Machine.execHaltDie die s
  | .resumeDie die => Sys2Proof.Machine.execResumeDie die s
  | .dbgctl core value => Sys2Proof.Machine.execDbgctl core value s
  | .dbgstat core value => Sys2Proof.Machine.execDbgstat core value s
  | .trcctl core value => Sys2Proof.Machine.execTrcctl core value s
  | .slctl core value => Sys2Proof.Machine.execSlctl core value s
  | .debugRegisterWrite core num value => Sys2Proof.Machine.execDebugRegisterWrite core num value s
  | .debugPathAccess core access => Sys2Proof.Machine.execDebugPathAccess core access s
  | .traceRecordWrite core => Sys2Proof.Machine.execTraceRecordWrite core s
  | .stateLogRecordWrite core => Sys2Proof.Machine.execStateLogRecordWrite core s
  | .droopCapture die domain => Sys2Proof.Machine.execDroopCapture die domain s
  | .droopHoldoffExpiry die domain => Sys2Proof.Machine.execDroopHoldoffExpiry die domain s
  | .dieCacheTakesStore core nth => Sys2Proof.Machine.execDieCacheTakesStore core nth s
  | .residencyRequestAtSlice core nth md => Sys2Proof.Machine.execResidencyRequestAtSlice core nth md s

end Sys2Proof.Machine
end

