-- ==== Sys2Proof/Machine/Bundle.lean ====
section
/-! DEFINITION. Fetching, running and completing one bundle of a core (R96, R133, R162 to R167, R213 to R216, R385). -/

namespace Sys2Proof.Machine

/-- The trap of a decode check (R167). -/
def decodeTrap (e : DecodeError) : Trap :=
  match e with
  | .illegalBundle => ⟨TrapCode.illegalBundle.code, 0, 7, 0, 0, 0⟩
  | .illegalOpcode => ⟨TrapCode.illegalOpcode.code, 0, 7, 0, 0, 0⟩
  | .resField => ⟨TrapCode.resField.code, 0, 7, 0, 0, 0⟩

/-- Whether the host has still to answer a fault of a core's fetch (R140). -/
def State.fetchWaits (s : State) (core : Nat) : Bool := s.iod.tokens.any fun t => t.who == .fetch core

/-- Fetch the bundle at the pc (R140, R162): its low and high words, or the trap or stall that ends the fetch. A target
above 2^52 - 1 raises XLATE_FAULT; a fault under demand service waits for the host; an unreadable granule is a detected
error of the fetching task (R351, R363). Where its MD is DOWN, its unit is not rebuilt or its frame is another job's, no bytes
come (R161, R361, R362). -/
def State.fetch (s : State) (core : Nat) : State × Run (Nat × Nat) :=
  let c := s.core core
  let va := c.pc.toNat
  let j := c.jobNo
  if 2 ^ 52 ≤ va then (s, .error (.trap (translationTrap 4 4 0 0 c.pc)))
  else if s.fetchWaits core then (s, .error (.stall .fetch))
  else
    match s.translate core j va .fetch with
    | (.hit pa _, s) =>
      if !s.homeTakes core pa then (s.wantUnit pa, .error (.stall .fetch))
      else if s.foreign pa j then (s.logSp (.discarded core 0), .error (.stall .fetch))
      else if s.errorAt pa 8 && !s.dataUnit pa then (s, .error (.trap ⟨TrapCode.eccUncorr.code, 4, 7, 0, 0, 0⟩))
      else
        let b := s.view (some (dieOf core)) pa 8
        (s, .ok (bytesToNat (b.take 4), bytesToNat (b.drop 4)))
    | (.fault level cause, s) =>
      if s.demand j then
        match s.sendFault (.fetch core) j c.pc core 4 level cause with
        | some (_, s) => (s, .error (.stall .fetch))
        | none => (s, .error (.trap (translationTrap 4 level 1 cause c.pc)))
      else (s, .error (.trap (translationTrap 4 level 0 cause c.pc)))
    | (.barred (.waits pa), s) => (s.wantUnit pa, .error (.stall .fetch))
    | (.barred (.unreadable _), s) => (s, .error (.trap ⟨TrapCode.eccUncorr.code, 4, 7, 0, 0, 0⟩))

/-- The v registers a bundle's slots name. -/
def Instr.vNames (i : Instr) : List (Fin 32) :=
  (i.sources ++ i.dests).filterMap fun r => match r with
    | .v n => some n
    | _ => none
/-- Both slots name one bound window register (R133). -/
def Core.windowClash (c : Core) (i x : Instr) : Bool :=
  (Instr.vNames i).any fun n => c.bound n && (Instr.vNames x).contains n

/-- A core reads from here on what its registers, BUFACL and window bindings hold now (R165, R181). -/
def Core.snapshot (c : Core) : Core := { c with before := some ⟨c.regs, c.bufacl, (c.task.map (·.binds)).getD []⟩ }
/-- The bundle is over: what it read as before is forgotten. -/
def Core.forget (c : Core) : Core := { c with before := none }

/-- Run the instructions of a bundle on the current core (R165, R166): the C slot first, both reading what stood before
the bundle; if either slot traps or stalls, the bundle writes nothing. -/
def runSlots (b : Bundle) (s : State) : Host.Outcome State Fault Refusal :=
  match b with
  | .lone i => exec i s
  | .pair i x =>
    if (s.core s.cur).windowClash i x then s.finish (.error (.trap ⟨TrapCode.illegalBundle.code, 0, 7, 0, 0, 0⟩))
    else
      match exec i (s.modCore s.cur Core.snapshot) with
      | .next s1 => match s1.last with
        | .done => match exec x s1 with
          | .next s2 => match s2.last with
            | .done => .next (s2.modCore s2.cur Core.forget)
            | .stalled w => s.finish (.error (.stall w))
            | .trapped t => s.finish (.error (.trap t))
          | o => o
        | .stalled w => s.finish (.error (.stall w))
        | .trapped t => s.finish (.error (.trap t))
      | o => o

/-- The order in which the loop sets are looked at (R215): the larger lb first, set 1 first where equal. -/
def Regs.innerFirst (r : Regs) : List (Fin 2) := if r.lb[1].toNat < r.lb[0].toNat then [0, 1] else [1, 0]

/-- One pass of the loop check over sets in order: the next pc where a set repeats, and the counts (R215). -/
def loopCheck (p : Word) : List (Fin 2) → Regs → Option Word × Regs
  | [], r => (none, r)
  | k :: ks, r =>
    if r.lc[k] != 0 && r.le[k] == p then
      let n := r.lc[k] - 1
      let r' := { r with lc := r.lc.set k n }
      if n != 0 then (some r.lb[k], r') else loopCheck p ks r'
    else loopCheck p ks r

/-- The choice of the next bundle (R215): a control transfer, the end of the task, a loop, or the bundle that follows. -/
def Core.advance (c : Core) : Core :=
  match c.target with
  | some t => { c with pc := t, target := none, endSeen := false }
  | none =>
    if c.endSeen then { c.modTask (fun t => { t with ended := true }) with endSeen := false }
    else
      let (next, r) := loopCheck c.pc c.regs.innerFirst c.regs
      { c with pc := next.getD (c.pc + 8), regs := r }

/-- The halt that follows a bundle, if any: BRK, HALTREQ or a step (R385, R387, log 61); one over END waits for task end. -/
def Core.haltAfter (c : Core) (brk : Bool) : Core :=
  if (c.task.map (·.ended)).getD true then c
  else if brk then c.halt 1 c.pc
  else if c.haltAsked then c.halt 3 c.pc
  else if wbit c.dbg.dbgctl 1 then c.halt 2 c.pc
  else c

/-- A request issued by an earlier bundle of a task is no longer that of its last one (R342). -/
def Req.pass (r : Req) (serial pos : Nat) : Req :=
  { r with exact := r.exact && !(r.serial == serial && decide (r.pos < pos)) }
/-- Likewise for a late fault not yet delivered. -/
def Late.pass (l : Late) (serial : Nat) : Late := { l with exact := l.exact && !(l.serial == serial) }

/-- A bundle has completed: no stall or BRK stands, breakpoints count again, and the requests of earlier bundles are no
longer those of the last one. -/
def Core.passBundle (c : Core) : Core :=
  { c with
    stalled := none
    brkSeen := false
    dbg := { c.dbg with skipBp := false }
    reqs := c.reqs.map (Req.pass · c.serial c.bundlePos)
    late := c.late.map (Late.pass · c.serial) }

/-- A bundle that ran without a trap or stall: the next pc, the event counts, then a halt (R215, R385, R391). -/
def Core.complete (c : Core) : Core :=
  let brk := c.brkSeen
  ((c.passBundle.countEvent 4 1).advance).haltAfter brk

/-- Whether a core has a bundle to run: a task that has not executed END, on a working core that is not halted. -/
def Core.runs (c : Core) : Bool :=
  c.clocked && (match c.task with
    | some t => !t.ended
    | none => false)

/-- What is left to do after the instructions of a bundle: choose the next bundle where it ran; an idle core whose halt
is requested halts. -/
def State.afterSlots (s : State) (core : Nat) : State :=
  match s.last with
  | .done => s.modCore core Core.complete
  | .stalled _ => s
  | .trapped _ => s.modCore core Core.haltIdle

/-- One bundle of a core, one cycle at least: a late fault that has arrived (R348), the budget, a breakpoint, the fetch, the decode checks in their order, the
slots, and the choice of the next bundle. A core with no bundle to run lets a cycle pass. -/
def State.runBundle (s : State) (core : Nat) : Host.Outcome State Fault Refusal :=
  let s := { s with cur := core, last := .done }.runCycles core 1
  let c := s.core core
  if !c.runs then .next s
  else
    match c.task with
    | none => .next s
    | some t =>
      if !c.late.isEmpty then .next (deliverLate core s)
      else if t.left == 0 then
        match s.finish (.error (.trap (budgetTrap t))) with
        | .next s' => .next (s'.afterSlots core)
        | o => o
      else match c.breakpointAt with
        | some n => .next (s.setCore core (c.halt (4 + n) c.pc))
        | none =>
          let (s, r) := (s.setCore core { c with bundlePos := c.positions }).fetch core
          let out := match r with
            | .error e => s.finish (.error e)
            | .ok (lo, hi) => match decodeBundle lo hi with
              | .error e => s.finish (.error (.trap (decodeTrap e)))
              | .ok b => runSlots b s
          match out with
          | .next s' => .next (s'.afterSlots core)
          | o => o

end Sys2Proof.Machine
end

