-- ==== Sys2Proof/Machine/Place.lean ====
section
/-! DEFINITION. Package time passing (R30, R31, R140, R157, R267), what follows every step of the package (R93, R267, R347,
R387, R392, R395), and an instruction word placed where the next step fetches it (log 1). -/

namespace Sys2Proof.Machine

/-- Counted time passes for a core: the timers of its requests, except those that demand service holds, and the ages of its
sequence blocks; none of it while the core is halted (R157, R267, R386). -/
def Core.elapse (c : Core) (ns : Nat) : Core :=
  if c.dbg.halted then c
  else
    { c with
      reqs := c.reqs.map fun r => if c.serviceHeld r then r else { r with elapsed := r.elapsed + ns }
      seqBlocks := c.seqBlocks.map fun (b, k) => (b, { k with age := k.age + ns }) }

/-- `ns` nanoseconds of package time pass. -/
def State.elapse (s : State) (ns : Nat) : State :=
  { s with
    cores := s.cores.map fun (n, c) => (n, c.elapse ns)
    iod := { s.iod with
      ptime := s.iod.ptime + ns
      elapsed := s.iod.elapsed + ns
      tokens := s.iod.tokens.map fun t => { t with since := t.since + ns } } }

/-! ### After every step -/

/-- Messages of cores' own that waited for a number and find one go on their way (R267). -/
def State.flushAll (s : State) : State :=
  s.cores.foldl (fun s p => if p.2.posts.isEmpty then s else s.flushPosts p.1 p.2.posts.length) s
/-- A die under a halt counts as stopped once its last core has halted, until every core runs again; the monitor then does not
count the interval in progress (R358, R387). -/
def State.haltedDie (s : State) (die : Nat) (d : Die) : Die :=
  if !d.halting then d
  else if s.cores.any fun p => dieOf p.1 == die && p.2.dbg.dieHalt then
    { d with stopped := d.stopped || (dieCores die).all fun n => (s.core n).dbg.halted }
  else
    let mark (m : Assoc Nat) (n : Nat) : Assoc Nat :=
      let k := (m.find n).getD 0
      m.put n (if k < 16 then k + 16 else k)
    { d with halting := false, stopped := false, beats := if d.stopped then (dieCores die).foldl mark d.beats else d.beats }
/-- Every channel that has ceased to be ready starts WAIT again (R93), and every halted die is looked at. -/
def State.rest (s : State) : State :=
  let s : State := { s with cores := s.cores.map fun (n, c) => (n, c.restWaits) }
  { s with dies := s.dies.map fun (n, d) => (n, s.haltedDie n d) }
/-- Every core with its log enabled records a change of its state (R395). -/
def State.observe (s : State) : State :=
  { s with cores := s.cores.map fun (n, c) => (n, if wbit c.dbg.slctl 0 then c.logState (s.condition n) else c) }
/-- What follows every step, whatever it was: slots of cancelled commands are released, waiting posts find their numbers,
WAITs and halted dies follow, readings begin, and the state logs note every change. -/
def State.settle (s : State) : State := s.reap.flushAll.rest.markReadings.observe

/-! ### Placing an instruction -/

/-- The leaf that maps the placed bundle: physical page 0 for loads, stores and fetch (R138). -/
def placedLeaf : Word := 0x3D

/-- The bundle that holds an instruction word: alone, or with the canonical NOP of the other slot where its SL bits say a
pair (R163, R182). -/
def placedBundle (w : Nat) : List Byte :=
  match tableSlot w, w / 2 ^ 30 with
  | some .x, 0 => natToBytes 4 0x00800000 ++ natToBytes 4 w
  | _, 0 => natToBytes 4 w ++ natToBytes 4 0x00800000
  | _, _ => natToBytes 8 w

/-- Core 0 ready to fetch its next bundle at address 0: a task with budget, not halted, no breakpoint, the page mapped. -/
def Core.readyAt (c : Core) : Core :=
  let t := c.task.getD (Task.start c.serials 0 (selfMsg 0 0 0 0 [] c.jobNo) 0x100000 0)
  { c with
    pc := 0, target := none, endSeen := false, brkSeen := false, before := none, life := .alive
    task := some { t with left := 0x100000, ended := false, dead := [] }
    late := []
    tlb := [⟨c.jobNo, 0, 16, placedLeaf⟩]
    dbg := { c.dbg with halted := false, skipBp := true } }

/-- The state with an instruction word of the opcode table placed as the next bundle of core 0 (log 1). -/
def State.placeWord (s : State) (nbits w : Nat) : State :=
  let s := s.applyAll 0 (if nbits == 32 then placedBundle w else natToBytes 8 w)
  let s := s.modCore 0 Core.readyAt
  { s with
    net := { s.net with early := s.net.early.filter fun e => !overlaps 0 8 e.pa e.bytes.length }
    iod := { s.iod with
      errMap := s.iod.errMap.filter fun g => g != 0
      frames := s.iod.frames.filter fun p => p.1 != 0
      tokens := s.iod.tokens.filter fun t => t.who != .fetch 0 }
    agenda := [], cur := 0 }

end Sys2Proof.Machine
end

