-- ==== Sys2Proof/Machine/Step.lean ====
section
/-! DEFINITION. One step of the package: what stands first in the agenda, else a bundle of the current core (log 1). -/

namespace Sys2Proof.Machine

/-- What an agenda entry does. -/
def State.act (s : State) (a : Action) : Host.Outcome State Fault Refusal :=
  match a with
  | .bundle n => if coreCount ≤ n then .fault .noSuchUnit else s.runBundle n
  | .event i => exec i s
  | .elapse ns => .next (s.elapse ns)
  | .cycles n k => if coreCount ≤ n then .fault .noSuchUnit else .next (s.runCycles n k)
  | .conflict n k => if coreCount ≤ n then .fault .noSuchUnit else .next (s.conflict n k)
  | .mapWrite m => .next (writeMap m s)
  | .groupMap members frames => .next (setGroupMap members frames s)
  | .corrected addr => .next (s.logSp (.corrected addr))
  | .throttle n on => if coreCount ≤ n then .fault .noSuchUnit else .next (setThrottle n on s)
  | .ptpDomain n => .next (setDomainNumber n s)
  | .restart b => .next (restartProcessor b s)
  | .memoryError pa => .next (s.noteError pa)

/-- One step: the head of the agenda, or a bundle of the current core where the agenda is empty, and what follows every step. -/
def step (s : State) : Host.Outcome State Fault Refusal :=
  let out := match s.agenda with
    | [] => s.act (.bundle s.cur)
    | a :: rest => { s with agenda := rest }.act a
  match out with
  | .next s' => .next s'.settle
  | o => o

/-- The state with an instruction word placed where the next step fetches (log 1). -/
def State.withFetchWord (s : State) (nbits w : Nat) : State := s.placeWord nbits w

end Sys2Proof.Machine
end

