-- ==== Sys2Proof/Safety.lean ====
section
/-! DEFINITION. What counts as a safe run, in the terms the statements use. -/

namespace Sys2Proof.Machine

/-- What the model keeps in every state: memories in canonical form, those of the cores, of pre-empted gangs and of
the other packages' symbols included. -/
structure State.Canonical (s : State) : Prop where
  global : s.mem.wf = true
  cores : ∀ p ∈ s.cores, p.2.loc.wf = true
  saved : ∀ x ∈ s.gangs, ∀ c ∈ x.saved, c.loc.wf = true
  symbols : ∀ e, s.erasure = some e → e.symbols.wf = true

/-- A run of `n` steps ends in a state, without a fault or a refusal. -/
def State.Reaches (s : State) : Nat → State → Prop
  | 0, t => s = t
  | n + 1, t => ∃ u, step s = .next u ∧ u.Reaches n t

/-! ### The terms the statements use -/

/-- The rational number that a finite exact value is (R8); 0 for an infinity or NaN. -/
def Val.rat : Val → Rat
  | .fin neg num den => (if neg then -1 else 1) * (num : Rat) / (den : Rat)
  | _ => 0

/-- The current core: the one whose bundle runs. -/
def State.me (s : State) : Core := s.core s.cur

/-- An encoded instruction runs now: its guard holds (R164) and none of its registers waits for a response (R225). -/
structure State.Runs (s : State) (i : Instr) : Prop where
  guard : s.me.guardHolds i.guard = true
  ready : ∀ r ∈ i.sources ++ i.dests, r ∉ s.me.pendingRegs

/-- The state once the instruction is done and has left its core as `c`. Every other part of the package is as before. -/
def State.doneAs (s : State) (c : Core) : State := { s.setCore s.cur c with last := .done }
/-- The state once the instruction is done with no effect. -/
def State.doneSame (s : State) : State := { s with last := .done }

/-- The effective address of a local access: base and offset modulo 2^64 (R220). -/
def eaOf (base off : Word) : Nat := (base.toNat + off.toNat) % 2 ^ 64
/-- The buffer a local address names (R123). -/
def laBuf (la : Nat) : Nat := la / 2 ^ 30 % 4
/-- The offset a local address names (R123). -/
def laOff (la : Nat) : Nat := la % 2 ^ 18
/-- The place in a core's local memory of the byte a local address names. -/
def laPlace (la : Nat) : Nat := laBuf la * 0x40000 + laOff la

/-- An access of `n` bytes at a local address lies in its buffer and is aligned (R123, R220). -/
structure LocalSpan (la n : Nat) : Prop where
  small : la < 2 ^ 32
  zero : la / 2 ^ 18 % 2 ^ 12 = 0
  buffer : laBuf la ≠ 3
  fits : laOff la + n ≤ (if laBuf la = 2 then 0x20000 else 0x30000)
  aligned : la % n = 0

/-- A core may load `n` bytes from a buffer: no acquire load is out (R226). -/
structure Core.CanRead (c : Core) (la n : Nat) : Prop where
  span : LocalSpan la n
  free : c.acquiring = false

/-- A core may store `n` bytes to a buffer: CORE_W is set, the constant window, preserved ranges and bytes held by the MXU
are not touched (R125, R127, R294, R303). -/
structure Core.CanWrite (c : Core) (la n : Nat) : Prop where
  span : LocalSpan la n
  free : c.acquiring = false
  right : aclBit c.acl (laBuf la) 6 = true
  window : laBuf la = 0 → 0x800 ≤ laOff la
  kept : c.preservedBytes (laBuf la) (laOff la) n = false
  held : c.heldBytes (laBuf la) (laOff la) n = false

/-- The `n`-byte little-endian value at a local address of a core (R4). -/
def Core.localValue (c : Core) (la n : Nat) : Nat := bytesToNat (c.loc.readList (laPlace la) n)
/-- A core with `n` bytes of a value stored at a local address. -/
def Core.withLocal (c : Core) (la n v : Nat) : Core := { c with loc := c.loc.writeNat (laPlace la) n v }

/-- A core can issue a global request: fewer than 256 are outstanding (R156), the next number is free (R267) and no acquire
load is out (R226). -/
structure Core.CanIssue (c : Core) : Prop where
  room : c.outstanding < 256
  number : c.seqReady = true
  free : c.acquiring = false

/-- `t` is the state once the current core has issued one request, of a pointer, an operation and a destination, with
the next sequence number, its registers and local buffers unchanged (R225). -/
structure State.Issued (s t : State) (ptr : Word) (op : ReqOp) (dest : Option RegName) (acq rel : Bool) (scope : Nat) :
    Prop where
  request : ∃ r : Req, t.me.reqs = s.me.reqs ++ [r] ∧ r.ptr = ptr ∧ r.op = op ∧ r.dest = dest ∧ r.acquire = acq ∧
    r.release = rel ∧ r.scope = scope ∧ r.phase = .issued ∧ r.seq = s.me.seqctr ∧ r.serial = s.me.serial
  number : t.me.seqctr = (s.me.seqctr + 1) % 2 ^ 24
  regs : t.me.regs = s.me.regs
  fstat : t.me.fstat = s.me.fstat
  loc : t.me.loc = s.me.loc
  others : ∀ n, n ≠ s.cur → t.core n = s.core n
  mem : t.mem = s.mem
  done : t.last = .done

/-- A core may issue a product on rings `a` and `b` (R125, R300, R304, R305): an MXA and an MXB ring, the MXU's rights,
operand formats, with `scaled` a partner ring beside each scaled one, slots that hold the operands, and on every ring used
a filled slot that no queued operation holds and a pop left. -/
structure Core.ProductReady (c : Core) (scaled : Bool) (a b : Fin 16) (zc : Bool) : Prop where
  ringA : (c.rings[a]).valid = true ∧ (c.rings[a]).role = 1
  ringB : (c.rings[b]).valid = true ∧ (c.rings[b]).role = 2
  rights : c.right 0 5 = true ∧ c.right 1 5 = true ∧ c.right 2 4 = true ∧ (zc = true ∨ c.right 2 5 = true)
  formats : if scaled then fmtOperand (c.rings[a]).fmt = true ∧ fmtOperand (c.rings[b]).fmt = true ∧
      (fmtScaled (c.rings[a]).fmt = true ∨ fmtScaled (c.rings[b]).fmt = true)
    else plainOperand (c.rings[a]).fmt = true ∧ plainOperand (c.rings[b]).fmt = true
  sizeA : 2 * pairK (c.rings[a]).fmt (c.rings[b]).fmt * ringBits (c.rings[a]).fmt ≤ 2 ^ (c.rings[a]).slog
  sizeB : 4 * pairK (c.rings[a]).fmt (c.rings[b]).fmt * ringBits (c.rings[b]).fmt ≤ 2 ^ (c.rings[b]).slog
  slots : ∀ r : Fin 16, r = a ∨ r = b ∨
      (scaled = true ∧ ((r.val = a.val + 1 ∧ fmtScaled (c.rings[a]).fmt = true) ∨
        (r.val = b.val + 1 ∧ fmtScaled (c.rings[b]).fmt = true))) →
    c.takenSlots r.val < c.filled r ∧ ∀ t n, c.task = some t → t.popAllow.find r.val = some n → t.pops[r] < n
  partners : ∀ (r q : Fin 16) (rows : Nat), scaled = true → fmtScaled (c.rings[r]).fmt = true →
      (r = a ∧ rows = 16) ∨ (r = b ∧ rows = 32) → q.val = (r.val + 1) % 16 →
    r.val % 2 = 0 ∧ (c.rings[q]).valid = true ∧ (c.rings[q]).role = (c.rings[r]).role ∧
      (c.rings[q]).fmt = (if fmtMx (c.rings[r]).fmt then 37 else 6) ∧
      rows * pairK (c.rings[a]).fmt (c.rings[b]).fmt / fmtBlock (c.rings[r]).fmt ≤ 2 ^ (c.rings[q]).slog

/-- A target word names a core of the package or a remote one, and its res0 bits are zero (R270). -/
structure TargetWord (w : Nat) : Prop where
  core : w % 2 ^ 15 < 24576
  zeroLow : w / 2 ^ 15 % 2 ^ 3 = 0
  zeroHigh : w / 2 ^ 33 % 2 ^ 3 = 0
  scope : w / 2 ^ 44 % 2 ^ 3 ≤ 4
  package : w / 2 ^ 47 % 2 = 1 ∨ w / 2 ^ 48 = 0

/-- A core may send `n` payload bytes from a local address: none, or bytes of one of A, W and C from a multiple of 8 on,
with no acquire load out (R226, R273). -/
def Core.CanSend (c : Core) (la n : Nat) : Prop :=
  n = 0 ∨ (c.acquiring = false ∧ la / 2 ^ 18 % 2 ^ 12 = 0 ∧ laBuf la ≠ 3 ∧
    laOff la + n ≤ (if laBuf la = 2 then 0x20000 else 0x30000) ∧ la % 8 = 0)

/-- `t` is the state once the current core, with its operands read as `c`, has buffered the message `m` until its task
ends (R267, R271): it carries the core's number and the next sequence number, and nothing has left the core. -/
structure State.Buffers (s t : State) (c : Core) (m : Msg) : Prop where
  done : t.last = .done
  buffered : t.me.task.map (·.buffered) = c.task.map (·.buffered ++ [.msg m])
  source : m.src = s.cur ∧ m.seq = c.seqctr ∧ t.me.seqctr = (c.seqctr + 1) % 2 ^ 24
  loc : t.me.loc = c.loc
  fstat : t.me.fstat = c.fstat
  others : ∀ n, n ≠ s.cur → t.core n = s.core n
  world : { t with cores := s.cores, last := s.last } = s

/-- A message that reaches its core on this package finds its units up, the core held by a running gang of its job from which
it has not retired, and none of its messages in the gang's Barrow (R24, R86, R107, R113, R272). -/
structure State.Arrives (s : State) (m : Msg) (x : Gang) : Prop where
  here : m.remote = false
  up : s.targetDown m.src m.dest = false
  gang : s.holder m.job m.dest = some x
  running : x.state = .running
  held : s.rankIn x m.dest ∉ x.retired
  spilled : ∀ k ∈ x.barrow, k.dest ≠ m.dest

/-- A request of a core stands translated, its home takes it, its frame is its job's, and what goes before it has
performed (R147, R152, R161, R226, R232, R361). -/
structure State.AtHome (s : State) (core nth : Nat) (r : Req) (pa : Nat) (near : Bool) : Prop where
  req : s.req core nth = some r
  phase : r.phase = .translated pa
  home : s.homeTakes core pa = true
  own : s.foreign pa r.job = false
  clear : s.mayLeave core r near = true

/-- What an instruction that stores nothing leaves unchanged besides the registers: memory, every other core, and
everything of its core but the register files. -/
structure State.SameButRegs (s t : State) : Prop where
  cur : t.cur = s.cur
  mem : ∀ a, t.mem.read a = s.mem.read a
  loc : ∀ a, t.me.loc.read a = s.me.loc.read a
  others : ∀ n, n ≠ s.cur → t.core n = s.core n
  rest : { t.me with regs := s.me.regs } = s.me
  world : { t with cores := s.cores, last := s.last } = s

end Sys2Proof.Machine
end

