-- ==== Sys2Proof/Certificates/Slice0/Obligations.lean ====
section
/-! DEFINITION. The statements for the provers, from the numbered rules of the manual. `s.me` is the current core,
`s.Runs i` the conditions under which R164 and R225 let an instruction run, and `s.doneAs c` the state in which nothing
but the current core has changed, to `c`. -/

section
open Sys2Proof Sys2Proof.Machine

/-! ### Scalar, predicate and control instructions -/

/-- R202: the register forms but division and shifts write xd := f(xa, xb) and change nothing else; a write to x0 is
discarded by `setX`.
R199, R202, R210: the constant forms take the 64-bit constant-window entry cwN, the little-endian bytes at A offset
8 N, as their second operand; LDC loads it. -/
def Obligations.ScalarArithmetic : Prop :=
  (∀ p : (Guard → Fin 32 → Fin 32 → Fin 32 → Instr) × (Word → Word → Word),
     p ∈ [(.add, fun a b => a + b), (.sub, fun a b => a - b), (.mul, fun a b => a * b),
       (.mulh, fun (a b : Word) => (a.signExtend 128 * b.signExtend 128).extractLsb' 64 64),
       (.mulhu, fun (a b : Word) => (a.setWidth 128 * b.setWidth 128).extractLsb' 64 64),
       (.and, fun a b => a &&& b), (.or, fun a b => a ||| b), (.xor, fun a b => a ^^^ b),
       (.andn, fun a b => a &&& ~~~b),
       (.min, fun a b => if a.toInt ≤ b.toInt then a else b), (.max, fun a b => if a.toInt ≤ b.toInt then b else a),
       (.minu, fun a b => if a.toNat ≤ b.toNat then a else b), (.maxu, fun a b => if a.toNat ≤ b.toNat then b else a)] →
     ∀ g d a b s, s.Runs (p.1 g d a b) →
       exec (p.1 g d a b) s = .next (s.doneAs (s.me.setX d (p.2 (s.me.x a) (s.me.x b))))) ∧
  (∀ g d a (cw : Fin 256) s,
     let k : Word := word (bytesToNat (s.me.loc.readList (8 * cw.val) 8))
     (s.Runs (.addCw g d a cw) → exec (.addCw g d a cw) s = .next (s.doneAs (s.me.setX d (s.me.x a + k)))) ∧
     (s.Runs (.andCw g d a cw) → exec (.andCw g d a cw) s = .next (s.doneAs (s.me.setX d (s.me.x a &&& k)))) ∧
     (s.Runs (.orCw g d a cw) → exec (.orCw g d a cw) s = .next (s.doneAs (s.me.setX d (s.me.x a ||| k)))) ∧
     (s.Runs (.xorCw g d a cw) → exec (.xorCw g d a cw) s = .next (s.doneAs (s.me.setX d (s.me.x a ^^^ k)))) ∧
     (s.Runs (.mulCw g d a cw) → exec (.mulCw g d a cw) s = .next (s.doneAs (s.me.setX d (s.me.x a * k)))) ∧
     (s.Runs (.ldc g d cw) → exec (.ldc g d cw) s = .next (s.doneAs (s.me.setX d k))))

/-- R203, whole: DIV, DIVU, REM and REMU truncate towards zero, never trap, and give the table's values for a zero divisor
and for −2^63 by −1. -/
def Obligations.Division : Prop :=
  ∀ g d a b s,
    (s.Runs (.div g d a b) → ∃ w : Word, exec (.div g d a b) s = .next (s.doneAs (s.me.setX d w)) ∧
      (s.me.x b = 0 → w = 0xFFFFFFFFFFFFFFFF#64) ∧
      (s.me.x a = 0x8000000000000000#64 → (s.me.x b).toInt = -1 → w = 0x8000000000000000#64) ∧
      (s.me.x b ≠ 0 → ¬(s.me.x a = 0x8000000000000000#64 ∧ (s.me.x b).toInt = -1) →
        w.toInt = (s.me.x a).toInt.tdiv (s.me.x b).toInt)) ∧
    (s.Runs (.divu g d a b) → ∃ w : Word, exec (.divu g d a b) s = .next (s.doneAs (s.me.setX d w)) ∧
      (s.me.x b = 0 → w = 0xFFFFFFFFFFFFFFFF#64) ∧
      (s.me.x b ≠ 0 → w.toNat = (s.me.x a).toNat / (s.me.x b).toNat)) ∧
    (s.Runs (.rem g d a b) → ∃ w : Word, exec (.rem g d a b) s = .next (s.doneAs (s.me.setX d w)) ∧
      (s.me.x b = 0 → w = s.me.x a) ∧
      (s.me.x a = 0x8000000000000000#64 → (s.me.x b).toInt = -1 → w = 0) ∧
      (s.me.x b ≠ 0 → ¬(s.me.x a = 0x8000000000000000#64 ∧ (s.me.x b).toInt = -1) →
        w.toInt = (s.me.x a).toInt - (s.me.x b).toInt * (s.me.x a).toInt.tdiv (s.me.x b).toInt ∧
        (w.toInt = 0 ∨ (w.toInt < 0 ↔ (s.me.x a).toInt < 0)))) ∧
    (s.Runs (.remu g d a b) → ∃ w : Word, exec (.remu g d a b) s = .next (s.doneAs (s.me.setX d w)) ∧
      (s.me.x b = 0 → w = s.me.x a) ∧
      (s.me.x b ≠ 0 → w.toNat = (s.me.x a).toNat % (s.me.x b).toNat))

/-- R204, whole: the shifts use the whole 64-bit count, and only ROR reduces it modulo 64. The same holds of the constant
forms, whose count is the constant-window entry. -/
def Obligations.Shifts : Prop :=
  ∀ (f : Word → Word → Word) (s : State) (g : Guard) (d a b : Fin 32) (cw : Fin 256),
    (f = (fun u n => if 64 ≤ n.toNat then 0 else word (u.toNat * 2 ^ n.toNat)) →
      (s.Runs (.shl g d a b) → exec (.shl g d a b) s = .next (s.doneAs (s.me.setX d (f (s.me.x a) (s.me.x b))))) ∧
      (s.Runs (.shlCw g d a cw) →
        exec (.shlCw g d a cw) s = .next (s.doneAs (s.me.setX d (f (s.me.x a) (s.me.cwN cw.val)))))) ∧
    (f = (fun u n => if 64 ≤ n.toNat then 0 else word (u.toNat / 2 ^ n.toNat)) →
      (s.Runs (.shr g d a b) → exec (.shr g d a b) s = .next (s.doneAs (s.me.setX d (f (s.me.x a) (s.me.x b))))) ∧
      (s.Runs (.shrCw g d a cw) →
        exec (.shrCw g d a cw) s = .next (s.doneAs (s.me.setX d (f (s.me.x a) (s.me.cwN cw.val)))))) ∧
    (f = (fun u n => if 64 ≤ n.toNat then (if u.toInt < 0 then 0xFFFFFFFFFFFFFFFF#64 else 0)
        else BitVec.ofInt 64 (u.toInt.fdiv (2 ^ n.toNat))) →
      (s.Runs (.sra g d a b) → exec (.sra g d a b) s = .next (s.doneAs (s.me.setX d (f (s.me.x a) (s.me.x b))))) ∧
      (s.Runs (.sraCw g d a cw) →
        exec (.sraCw g d a cw) s = .next (s.doneAs (s.me.setX d (f (s.me.x a) (s.me.cwN cw.val)))))) ∧
    (f = (fun u n => word (u.toNat / 2 ^ (n.toNat % 64)) ||| word (u.toNat * 2 ^ (64 - n.toNat % 64))) →
      s.Runs (.ror g d a b) → exec (.ror g d a b) s = .next (s.doneAs (s.me.setX d (f (s.me.x a) (s.me.x b)))))

/-- R205, R206: the compares write a predicate, in their register and constant forms; PAND, POR, PXOR and PANDN combine
predicates, and PMOVX moves one to an x register. A write to k0 is discarded by `setK`. -/
def Obligations.Predicates : Prop :=
  ∀ (g : Guard) (s : State),
    (∀ p : (Guard → Fin 8 → Fin 32 → Fin 32 → Instr) × (Word → Word → Bool),
      p ∈ [(.cmpeq, fun a b => decide (a.toNat = b.toNat)), (.cmpne, fun a b => decide (a.toNat ≠ b.toNat)),
        (.cmplt, fun a b => decide (a.toInt < b.toInt)), (.cmpge, fun a b => decide (a.toInt ≥ b.toInt)),
        (.cmpltu, fun a b => decide (a.toNat < b.toNat)), (.cmpgeu, fun a b => decide (a.toNat ≥ b.toNat))] →
      ∀ d a b, s.Runs (p.1 g d a b) →
        exec (p.1 g d a b) s = .next (s.doneAs (s.me.setK d (p.2 (s.me.x a) (s.me.x b))))) ∧
    (∀ p : (Guard → Fin 8 → Fin 32 → Fin 256 → Instr) × (Word → Word → Bool),
      p ∈ [(.cmpeqCw, fun a b => decide (a.toNat = b.toNat)), (.cmpneCw, fun a b => decide (a.toNat ≠ b.toNat)),
        (.cmpltCw, fun a b => decide (a.toInt < b.toInt)), (.cmpltuCw, fun a b => decide (a.toNat < b.toNat))] →
      ∀ d a cw, s.Runs (p.1 g d a cw) →
        exec (p.1 g d a cw) s = .next (s.doneAs (s.me.setK d (p.2 (s.me.x a) (s.me.cwN cw.val))))) ∧
    (∀ p : (Guard → Fin 8 → Fin 8 → Fin 8 → Instr) × (Bool → Bool → Bool),
      p ∈ [(.pand, fun a b => a && b), (.por, fun a b => a || b), (.pxor, fun a b => a != b),
        (.pandn, fun a b => a && !b)] →
      ∀ d a b, s.Runs (p.1 g d a b) →
        exec (p.1 g d a b) s = .next (s.doneAs (s.me.setK d (p.2 (s.me.k a) (s.me.k b))))) ∧
    (∀ d a, s.Runs (.pmovx g d a) →
      exec (.pmovx g d a) s = .next (s.doneAs (s.me.setX d (if s.me.k a then 1 else 0))))

/-- R207: EXTU, EXTS and INS, with the control word from xb or from the constant window, bit by bit.
R208: CLZ and CTZ count leading and trailing zero bits (64 for zero), POPC the one bits, BREV reverses the bits and
BSWAP the bytes. -/
def Obligations.BitOperations : Prop :=
  (∀ (g : Guard) (d a b : Fin 32) (cw : Fin 256) (s : State),
     ∀ p : Instr × Instr × Instr × Word,
       p ∈ [(.extu g d a b, .exts g d a b, .ins g d a b, s.me.x b),
         (.extuCw g d a cw, .extsCw g d a cw, .insCw g d a cw, s.me.cwN cw.val)] →
       let pos := p.2.2.2.toNat % 64
       let len := min (p.2.2.2.toNat / 2 ^ 8 % 128) (64 - pos)
       (s.Runs p.1 → ∃ w : Word, exec p.1 s = .next (s.doneAs (s.me.setX d w)) ∧
         ∀ i, i < 64 → w.getLsbD i = (decide (i < len) && (s.me.x a).getLsbD (pos + i))) ∧
       (s.Runs p.2.1 → ∃ w : Word, exec p.2.1 s = .next (s.doneAs (s.me.setX d w)) ∧
         ∀ i, i < 64 → w.getLsbD i = (decide (0 < len) && (s.me.x a).getLsbD (pos + min i (len - 1)))) ∧
       (s.Runs p.2.2.1 → ∃ w : Word, exec p.2.2.1 s = .next (s.doneAs (s.me.setX d w)) ∧
         ∀ i, i < 64 → w.getLsbD i =
           if pos ≤ i ∧ i < pos + len then (s.me.x a).getLsbD (i - pos) else (s.me.x d).getLsbD i)) ∧
  (∀ (g : Guard) (d a : Fin 32) (s : State),
     let x := s.me.x a
     (s.Runs (.clz g d a) → ∃ n : Nat, exec (.clz g d a) s = .next (s.doneAs (s.me.setX d (word n))) ∧ n ≤ 64 ∧
       (∀ i, 64 - n ≤ i → x.getLsbD i = false) ∧ (n < 64 → x.getLsbD (63 - n) = true)) ∧
     (s.Runs (.ctz g d a) → ∃ n : Nat, exec (.ctz g d a) s = .next (s.doneAs (s.me.setX d (word n))) ∧ n ≤ 64 ∧
       (∀ i, i < n → x.getLsbD i = false) ∧ (n < 64 → x.getLsbD n = true)) ∧
     (s.Runs (.popc g d a) → exec (.popc g d a) s =
       .next (s.doneAs (s.me.setX d (word ((List.range 64).filter fun i => x.getLsbD i).length)))) ∧
     (s.Runs (.brev g d a) → ∃ w : Word, exec (.brev g d a) s = .next (s.doneAs (s.me.setX d w)) ∧
       ∀ i, i < 64 → w.getLsbD (63 - i) = x.getLsbD i) ∧
     (s.Runs (.bswap g d a) → ∃ w : Word, exec (.bswap g d a) s = .next (s.doneAs (s.me.setX d w)) ∧
       ∀ i, i < 8 → w.toNat / 2 ^ (8 * (7 - i)) % 256 = x.toNat / 2 ^ (8 * i) % 256))

/-- R211, R212, R121: PFMT reads a pointer's format word, SFMT writes it, LEA and ADDA move the VA and change only bits
[51:0]; each in its register and constant forms, with the traps of R201 in their order. -/
def Obligations.Pointers : Prop :=
  ∀ (g : Guard) (d a b : Fin 32) (cw : Fin 256) (s : State),
    let p := s.me.x a
    let va : Nat := p.toNat % 2 ^ 52
    let top : Nat := p.toNat / 2 ^ 52
    let formatOk (f blg : Nat) : Prop := fmtAssigned f = true ∧ blg = fmtBlg f
    (s.Runs (.pfmt g d a) →
      exec (.pfmt g d a) s = .next (s.doneAs (s.me.setX d (word (top / 4 % 16 * 64 + top / 64))))) ∧
    ∀ q : Instr × Instr × Instr × Word,
      q ∈ [(.sfmt g d a b, .lea g d a b, .adda g d a b, s.me.x b),
        (.sfmtCw g d a cw, .leaCw g d a cw, .addaCw g d a cw, s.me.cwN cw.val)] →
      let k := q.2.2.2
      let moved (off : Int) (i : Instr) : Prop :=
        (0 ≤ (va : Int) + off → (va : Int) + off < 2 ^ 52 →
          exec i s = .next (s.doneAs (s.me.setX d (word (top * 2 ^ 52 + ((va : Int) + off).toNat))))) ∧
        ((va : Int) + off < 0 ∨ 2 ^ 52 ≤ (va : Int) + off → exec i s = s.finish (.error (trapPlain .ptrOverflow)))
      (s.Runs q.1 →
        (k.toNat / 2 ^ 10 = 0 → formatOk (k.toNat % 64) (k.toNat / 64 % 16) →
          exec q.1 s = .next (s.doneAs (s.me.setX d (word (k.toNat % 64 * 2 ^ 58 + k.toNat / 64 % 16 * 2 ^ 54 + va))))) ∧
        (¬(k.toNat / 2 ^ 10 = 0 ∧ formatOk (k.toNat % 64) (k.toNat / 64 % 16)) →
          exec q.1 s = s.finish (.error (trapPlain .fmtMismatch)))) ∧
      (s.Runs q.2.2.1 → moved k.toInt q.2.2.1) ∧
      (s.Runs q.2.1 →
        let f : Nat := top / 64
        (¬(top % 4 = 0 ∧ formatOk f (top / 4 % 16)) → exec q.2.1 s = s.finish (.error (trapPlain .fmtMismatch))) ∧
        (top % 4 = 0 → formatOk f (top / 4 % 16) →
          (f = 0 → moved k.toInt q.2.1) ∧
          (f ≠ 0 → fmtScaled f = false → 8 ≤ fmtBits f → moved (k.toInt * ((fmtBits f / 8 : Nat) : Int)) q.2.1) ∧
          (f ≠ 0 → fmtScaled f = false → fmtBits f < 8 →
            ((k.toInt * (fmtBits f : Int)) % 8 ≠ 0 → exec q.2.1 s = s.finish (.error (trapPlain .align))) ∧
            ((k.toInt * (fmtBits f : Int)) % 8 = 0 → moved (k.toInt * (fmtBits f : Int) / 8) q.2.1)) ∧
          (fmtScaled f = true →
            (k.toInt % ((16 * fmtBlock f : Nat) : Int) ≠ 0 → exec q.2.1 s = s.finish (.error (trapPlain .align))) ∧
            (k.toInt % ((16 * fmtBlock f : Nat) : Int) = 0 →
              moved (k.toInt / ((16 * fmtBlock f : Nat) : Int) * (fmtGroupBytes f : Int)) q.2.1))))

/-- R162, R213: a transfer to a multiple of 8 is taken after the bundle, CALL writing x31; any other target raises ALIGN
and transfers nothing; the FADDR 0 of that trap is the model's reading (log 10).
R214, R216, R218: LOOP writes its whole set and, with a trip count of zero, transfers past the body; LBRK clears the
count; END ends the task after its bundle, or raises PROT_FAULT where the domain stack is not empty.
R215: the choice of the next bundle. A transfer goes to its target; END ends the task; else every active set whose
le is the bundle's address is counted down, the set with the larger lb first (set 1 where equal), and the first whose
count stays above zero repeats. -/
def Obligations.ControlFlow : Prop :=
  (∀ (g : Guard) (off : BitVec 20) (a : Fin 32) (s : State),
     let c := s.me
     let target : Word := c.pc + BitVec.ofInt 64 (8 * off.toInt)
     (∀ p : Instr × Core × Word,
       p ∈ [(.br g off, c, target), (.call g off, c.setX 31 (c.pc + 8), target), (.jr g a, c, c.x a),
         (.ret g, c, c.x 31)] →
       s.Runs p.1 →
         (p.2.2.toNat % 8 = 0 →
           exec p.1 s = .next (s.doneAs ({ p.2.1 with target := some p.2.2 }.trace 2 c.pc p.2.2))) ∧
         (p.2.2.toNat % 8 ≠ 0 → exec p.1 s = s.finish (.error (trapWith .align 0))))) ∧
  (∀ (g : Guard) (k : Fin 2) (n : Fin 32) (len : Fin 16384) (s : State),
     let c := s.me
     let le : Word := c.pc + word (8 * len.val)
     let opened : Core := { c with regs := { c.regs with
       lb := c.regs.lb.set k (c.pc + 8), le := c.regs.le.set k le, lc := c.regs.lc.set k (c.x n) } }
     (s.Runs (.loop g k n len) → c.x n ≠ 0 → exec (.loop g k n len) s = .next (s.doneAs opened)) ∧
     (s.Runs (.loop g k n len) → c.x n = 0 →
       exec (.loop g k n len) s = .next (s.doneAs ({ opened with target := some (le + 8) }.trace 2 c.pc (le + 8)))) ∧
     (s.Runs (.lbrk g k) → exec (.lbrk g k) s =
       .next (s.doneAs { c with regs := { c.regs with lc := c.regs.lc.set k 0 } })) ∧
     (s.Runs (.endTask g) → (∀ t, c.task = some t → t.domains = []) →
       exec (.endTask g) s = .next (s.doneAs { c with endSeen := true })) ∧
     (∀ t, s.Runs (.endTask g) → c.task = some t → t.domains ≠ [] →
       exec (.endTask g) s = s.finish (.error (trapPlain .protFault)))) ∧
  (∀ c : Core,
     let p := c.pc
     let first : Fin 2 := if c.regs.lb[1].toNat < c.regs.lb[0].toNat then 0 else 1
     let second : Fin 2 := 1 - first
     let hit (k : Fin 2) : Prop := c.regs.lc[k] ≠ 0 ∧ c.regs.le[k] = p
     let less (k : Fin 2) (r : Regs) : Regs := { r with lc := r.lc.set k (r.lc[k] - 1) }
     (∀ t, c.target = some t → c.advance = { c with pc := t, target := none, endSeen := false }) ∧
     (c.target = none → c.endSeen = true → (c.advance.task = c.task.map fun t => { t with ended := true }) ∧
       c.advance.pc = p ∧ c.advance.regs = c.regs) ∧
     (c.target = none → c.endSeen = false →
       (¬hit first → ¬hit second → c.advance = { c with pc := p + 8 }) ∧
       (hit first → c.regs.lc[first] ≠ 1 → c.advance = { c with pc := c.regs.lb[first], regs := less first c.regs }) ∧
       (hit first → c.regs.lc[first] = 1 → ¬hit second → c.advance = { c with pc := p + 8, regs := less first c.regs }) ∧
       (hit second → (hit first → c.regs.lc[first] = 1) →
         let r := if c.regs.lc[first] ≠ 0 ∧ c.regs.le[first] = p then less first c.regs else c.regs
         c.advance = { c with
           pc := if c.regs.lc[second] = 1 then p + 8 else c.regs.lb[second]
           regs := less second r })))

/-! ### Local memory -/

/-- R4, R220, R221: a load of 1, 2, 4 or 8 bytes writes the little-endian value at its effective address to xd,
zero-extended (LD.nN, also with a constant offset) or sign-extended (LD.iN); VLD loads 16 bytes and writes vd. The
first part's forms read a buffer.
R124, R129: an aligned 8-byte load from the control space reads half of a ring descriptor as the task sees it; a load
of another size or any store there raises BUF_ACCESS. -/
def Obligations.LocalLoads : Prop :=
  (∀ (g : Guard) (d a b : Fin 32) (cw : Fin 256) (w : Fin 4) (s : State),
     let c := s.me
     let n := 2 ^ w.val
     let la := eaOf (c.x a) (c.x b)
     let ka := eaOf (c.x a) (c.cwN cw.val)
     (s.Runs (.ldN g d a b w) → c.CanRead la n →
       exec (.ldN g d a b w) s = .next (s.doneAs (c.setX d (word (c.localValue la n))))) ∧
     (s.Runs (.ldI g d a b w) → c.CanRead la n →
       exec (.ldI g d a b w) s = .next (s.doneAs (c.setX d (BitVec.ofInt 64 (sintN (8 * n) (c.localValue la n)))))) ∧
     (s.Runs (.ldCw g d a cw w) → c.CanRead ka n →
       exec (.ldCw g d a cw w) s = .next (s.doneAs (c.setX d (word (c.localValue ka n))))) ∧
     (∀ c2, s.Runs (.vld g d a b) → c.CanRead la 16 → writeV d (BitVec.ofNat 128 (c.localValue la 16)) c = .ok c2 →
       exec (.vld g d a b) s = .next (s.doneAs c2))) ∧
  (∀ (g : Guard) (d a b : Fin 32) (w : Fin 4) (h : Fin 16) (hi : Bool) (s : State),
     let c := s.me
     let la := eaOf (c.x a) (c.x b)
     la = 3 * 2 ^ 30 + 16 * h.val + (if hi then 8 else 0) → c.acquiring = false →
     (s.Runs (.ldN g d a b 3) → exec (.ldN g d a b 3) s = .next (s.doneAs (c.setX d (word
       (if hi then c.headOf h * 2 ^ 9 + c.tailOf h else (c.rings[h]).low))))) ∧
     (s.Runs (.ldN g d a b w) → w ≠ 3 → exec (.ldN g d a b w) s = s.finish (.error (trapLocal .bufAccess la))) ∧
     (s.Runs (.st g d a b w) → exec (.st g d a b w) s = s.finish (.error (trapLocal .bufAccess la))))

/-- R220, R221: ST stores the low bytes of xd at its effective address, also with a constant offset; VST stores a v
register, popped where it is a window.
R220: the checks of a local access in their order, of every scalar and vector load and store: an address at or above 2^32 or
outside its buffer raises BUF_BOUNDS, then a misaligned one ALIGN, then a store to the constant window, the control space or without
CORE_W, and a load of another size than 8 bytes from the control space, BUF_ACCESS; the core stores nothing. That bounds come before the alignment of an access that breaks both is the model's reading (log 13). -/
def Obligations.LocalStores : Prop :=
  (∀ (g : Guard) (d a b : Fin 32) (cw : Fin 256) (w : Fin 4) (s : State),
     let c := s.me
     let n := 2 ^ w.val
     let la := eaOf (c.x a) (c.x b)
     let ka := eaOf (c.x a) (c.cwN cw.val)
     (s.Runs (.st g d a b w) → c.CanWrite la n →
       exec (.st g d a b w) s = .next (s.doneAs (c.withLocal la n (c.x d).toNat))) ∧
     (s.Runs (.stCw g d a cw w) → c.CanWrite ka n →
       exec (.stCw g d a cw w) s = .next (s.doneAs (c.withLocal ka n (c.x d).toNat))) ∧
     (∀ v c1, s.Runs (.vst g d a b) → c.CanWrite la 16 → readVs [d] [] c = .ok ([v], c1) →
       exec (.vst g d a b) s = .next (s.doneAs (c1.withLocal la 16 v.toNat)))) ∧
  (∀ (g : Guard) (d a b : Fin 32) (cw : Fin 256) (w : Fin 4) (s : State),
     let c := s.me
     let ea := eaOf (c.x a) (c.x b)
     let ka := eaOf (c.x a) (c.cwN cw.val)
     c.acquiring = false →
     ∀ p : Instr × Bool × Nat × Nat, p ∈ [(.ldN g d a b w, false, ea, 2 ^ w.val), (.ldI g d a b w, false, ea, 2 ^ w.val),
         (.ldCw g d a cw w, false, ka, 2 ^ w.val), (.vld g d a b, false, ea, 16), (.st g d a b w, true, ea, 2 ^ w.val),
         (.stCw g d a cw w, true, ka, 2 ^ w.val), (.vst g d a b, true, ea, 16)] → s.Runs p.1 →
       let la := p.2.2.1
       let n := p.2.2.2
       let size := if laBuf la = 3 then 0x100 else if laBuf la = 2 then 0x20000 else 0x30000
       (2 ^ 32 ≤ la ∨ la / 2 ^ 18 % 2 ^ 12 ≠ 0 ∨ size < laOff la + n →
         exec p.1 s = s.finish (.error (trapLocal .bufBounds la))) ∧
       (la < 2 ^ 32 → la / 2 ^ 18 % 2 ^ 12 = 0 → laOff la + n ≤ size → la % n ≠ 0 →
         exec p.1 s = s.finish (.error (trapLocal .align la))) ∧
       (la < 2 ^ 32 → la / 2 ^ 18 % 2 ^ 12 = 0 → laOff la + n ≤ size → la % n = 0 → laBuf la = 3 → p.2.1 = true ∨ n ≠ 8 →
         exec p.1 s = s.finish (.error (trapLocal .bufAccess la))) ∧
       (p.2.1 = true → LocalSpan la n →
         (aclBit c.acl (laBuf la) 6 = false ∨ (laBuf la = 0 ∧ laOff la < 0x800) ∨
           c.preservedBytes (laBuf la) (laOff la) n = true) →
         exec p.1 s = s.finish (.error (trapLocal .bufAccess la))))

/-- R222: VLDX loads each lane of vd from xa plus the offset in the same lane of vb; VSTX stores each lane of vd there, in
rising order.
R220, R222: all lanes are checked first, in lane order, each by the checks of R220 in their order: the first lane that fails decides
the trap, and no lane is read or written. That a bound vb or vd is read before the lanes are checked is the model's choice (log 79). -/
def Obligations.GatherScatter : Prop :=
  ∀ (g : Guard) (d a b : Fin 32) (e : Fin 4) (o v : Vec) (c1 c2 : Core) (s : State),
    let c := s.me
    let n := 2 ^ e.val
    let la (i : Nat) : Nat := eaOf (c.x a) (word (lane o (8 * n) i))
    (s.Runs (.vldx g d a b e) → readVs [b] [] c = .ok ([o], c1) → (∀ i, i < 16 / n → c1.CanRead (la i) n) →
      writeV d (ofLanes (8 * n) ((List.range (16 / n)).map fun i => c.localValue (la i) n)) c1 = .ok c2 →
      exec (.vldx g d a b e) s = .next (s.doneAs c2)) ∧
    (s.Runs (.vstx g d a b e) → readVs [b, d] [] c = .ok ([o, v], c1) → (∀ i, i < 16 / n → c1.CanWrite (la i) n) →
      exec (.vstx g d a b e) s = .next (s.doneAs
        ((List.range (16 / n)).foldl (fun k i => k.withLocal (la i) n (lane v (8 * n) i)) c1))) ∧
    (∀ p : Instr × List (Fin 32) × Bool, p ∈ [(.vldx g d a b e, [b], false), (.vstx g d a b e, [b, d], true)] → s.Runs p.1 →
      c.acquiring = false → ∀ l, readVs p.2.1 [] c = .ok (o :: l, c1) →
      let size (i : Nat) : Nat := if laBuf (la i) = 3 then 0x100 else if laBuf (la i) = 2 then 0x20000 else 0x30000
      let inside (i : Nat) : Prop := la i < 2 ^ 32 ∧ la i / 2 ^ 18 % 2 ^ 12 = 0 ∧ laOff (la i) + n ≤ size i
      let allowed (i : Nat) : Prop := if p.2.2 = true then laBuf (la i) ≠ 3 ∧ aclBit c.acl (laBuf (la i)) 6 = true ∧
          (laBuf (la i) = 0 → 0x800 ≤ laOff (la i)) ∧ c.preservedBytes (laBuf (la i)) (laOff (la i)) n = false
        else laBuf (la i) = 3 → n = 8
      ∀ k, k < 16 / n → (∀ i, i < k → inside i ∧ la i % n = 0 ∧ allowed i) →
        (¬inside k → exec p.1 s = s.finish (.error (trapLocal .bufBounds (la k)))) ∧
        (inside k → la k % n ≠ 0 → exec p.1 s = s.finish (.error (trapLocal .align (la k)))) ∧
        (inside k → la k % n = 0 → ¬allowed k → exec p.1 s = s.finish (.error (trapLocal .bufAccess (la k)))))

/-- R209: the moves between x and v registers, for registers that are no windows; the rest is what a window adds.
R133: reading a window register takes 16 bytes of the slot at HEAD at its read cursor, once however often the
instruction names it; at the end of the slot the slot is popped. With the cursor at 0 and no pop left it raises
RING_UNDERRUN. Shown on VTOX; the binding is the one from before the bundle (R165, R239).
R133, R131: writing a window register stores 16 bytes in the slot at TAIL at its write cursor; at the end of the slot
the slot is pushed. With the cursor at 0 and no push left it raises RING_OVERRUN; on a RECV ring it raises BUF_ACCESS,
which is the model's reading (logs 14 and 76). Shown on VSPLATX.
R133, R165, R241: what reading and writing v registers does. Registers that are no windows give their values from
before the bundle and change nothing; writing one changes it alone; a window named twice is read once. -/
def Obligations.Windows : Prop :=
  (∀ (g : Guard) (d a b : Fin 32) (s : State),
    let c := s.me
    (s.Runs (.vfromx g d a b) → c.binding d = none →
      exec (.vfromx g d a b) s = .next (s.doneAs (c.putV d (c.x b ++ c.x a)))) ∧
    (s.Runs (.vsplatx g d a) → c.binding d = none →
      exec (.vsplatx g d a) s = .next (s.doneAs (c.putV d (c.x a ++ c.x a)))) ∧
    (s.Runs (.vtox g d a) → c.binding a = none →
      exec (.vtox g d a) s = .next (s.doneAs (c.setX d (c.old.v[a].extractLsb' 0 64)))) ∧
    (s.Runs (.vtoxh g d a) → c.binding a = none →
      exec (.vtoxh g d a) s = .next (s.doneAs (c.setX d (c.old.v[a].extractLsb' 64 64))))) ∧
  (∀ (g : Guard) (d a : Fin 32) (k : Binding) (s : State),
     let c := s.me
     let h : Fin 16 := Fin.ofNat 16 k.ring
     let r := c.rings[h]
     let place := locKey r.buf (r.base + c.headOf h % 2 ^ r.clog * 2 ^ r.slog + k.rcur)
     let w : Word := word (bytesToNat (c.loc.readList place 8))
     s.Runs (.vtox g d a) → c.readBinding a = some k → c.acquiring = false →
     (¬(k.rcur = 0 ∧ c.popsLeft h = 0) → k.rcur + 16 ≠ 2 ^ r.slog →
       exec (.vtox g d a) s = .next (s.doneAs ((c.setBinding a { k with rcur := k.rcur + 16 }).setX d w))) ∧
     (¬(k.rcur = 0 ∧ c.popsLeft h = 0) → k.rcur + 16 = 2 ^ r.slog →
       exec (.vtox g d a) s = .next (s.doneAs (((c.setBinding a { k with rcur := 0 }).popSlots h 1).setX d w))) ∧
     (k.rcur = 0 → c.popsLeft h = 0 → exec (.vtox g d a) s = s.finish (.error (trapPlain .ringUnderrun)))) ∧
  (∀ (g : Guard) (d a : Fin 32) (k : Binding) (s : State),
     let c := s.me
     let h : Fin 16 := Fin.ofNat 16 k.ring
     let r := c.rings[h]
     let off := r.base + c.tailOf h % 2 ^ r.clog * 2 ^ r.slog + k.wcur
     let stored : Core := { c with loc := c.loc.writeList (locKey r.buf off) (natToBytes 16 ((c.x a ++ c.x a).toNat)) }
     s.Runs (.vsplatx g d a) → c.binding d = some k → c.acquiring = false →
     (r.role ≠ 3 → exec (.vsplatx g d a) s = s.finish (.error (trapPlain .bufAccess))) ∧
     (r.role = 3 → k.wcur = 0 → c.pushesLeft h = 0 →
       exec (.vsplatx g d a) s = s.finish (.error (trapPlain .ringOverrun))) ∧
     (r.role = 3 → ¬(k.wcur = 0 ∧ c.pushesLeft h = 0) → aclBit c.acl r.buf 6 = true → c.preservedBytes r.buf off 16 = false →
       c.heldBytes r.buf off 16 = false →
       exec (.vsplatx g d a) s = .next (s.doneAs (if k.wcur + 16 = 2 ^ r.slog
         then (stored.setBinding d { k with wcur := 0 }).pushSlots h 1
         else stored.setBinding d { k with wcur := k.wcur + 16 })))) ∧
  (∀ (c : Core) (vs : List (Fin 32)) (d : Fin 32) (x : Vec),
     ((∀ v ∈ vs, c.readBinding v = none) → readVs vs [] c = .ok (vs.map fun v => c.old.v[v], c)) ∧
     (∀ v, c.binding v = none → c.readBinding v = none) ∧ (c.before = none → ∀ v, c.readBinding v = c.binding v) ∧
     (∀ b v, c.before = some b → b.binds.find v.val = none → c.readBinding v = none) ∧
     (c.binding d = none → writeV d x c = .ok (c.putV d x)) ∧
     (∀ y c', readVs [d] [] c = .ok ([y], c') → c.binding d ≠ none → readVs [d, d] [] c = .ok ([y, y], c')))

/-! ### Rings -/

/-- R130, R236 to R239: RDEF defines an empty ring and ends every binding of the old one, or undefines it (with VALID 0
only the reserved bits and the slot count are checked, the model's reading, log 14); RADV pops or
pushes k slots; RQRY reads the ring as the task sees it; BIND and UNBIND make and end a window.
R132, R237: what a pop or a push of k slots does to the counters as the task sees them and to its counts; the ring's
own counters, which every other agent sees, stay.
R90, R238: the word RQRY reads, field by field: what the task may still pop and push under its allowances, the free count
without the reserved slots, the counters and LIM; an undefined ring reads zero.
R130, R131, R236, R237, R239: what RDEF, RADV and BIND refuse: a descriptor whose slots or place do not fit BUF_BOUNDS, one with a
reserved bit, a role or format that is reserved or in the wrong buffer, or of a ring in use FMT_MISMATCH; a ring, a role or an open
cursor that RADV may not move, and a ring or register that may not be bound, BUF_ACCESS. That BUF_BOUNDS comes before FMT_MISMATCH is
the model's choice (log 90), and so is the order of RADV's checks before its count, which R237 gives no order (log 90). -/
def Obligations.Rings : Prop :=
  (∀ (g : Guard) (d a : Fin 32) (h : Fin 16) (w : Fin 4) (s : State),
     let c := s.me
     let r := c.rings[h]
     let v := Word.windowReg w
     (s.Runs (.rdef g h a) → c.filled h = 0 → r.reserved = 0 → wbits (c.x a) 25 0 = 0 →
       (wbit (c.x a) 26 = false → exec (.rdef g h a) s = .next (s.doneAs ((c.unbindRing h.val).putRing h Ring.zero))) ∧
       (wbit (c.x a) 26 = true → (ringOfWord (c.x a)).placed = true → (ringOfWord (c.x a)).typed = true →
         exec (.rdef g h a) s = .next (s.doneAs ((c.unbindRing h.val).putRing h (ringOfWord (c.x a)))))) ∧
     (s.Runs (.rdef g h a) →
       let z := (c.x a).toNat
       let slog := z / 2 ^ 40 % 16
       let clog := z / 2 ^ 36 % 16
       let base := z / 2 ^ 44 % 2 ^ 18
       let buf := z / 2 ^ 62
       let placed := 4 ≤ slog ∧ slog ≤ 12 ∧ 1 ≤ clog ∧ clog ≤ 8 ∧ buf ≠ 3 ∧ base % 2 ^ slog = 0 ∧
         base + 2 ^ clog * 2 ^ slog ≤ (if buf = 2 then 0x20000 else 0x30000) ∧ (buf = 0 → 0x800 ≤ base)
       let role := z / 2 ^ 27 % 8
       let typed := z % 2 ^ 26 = 0 ∧ role ≤ 4 ∧ fmtAssigned (z / 2 ^ 30 % 64) = true ∧ (role = 1 → buf = 0) ∧ (role = 2 → buf = 1)
       let idle := c.filled h = 0 ∧ r.reserved = 0
       (ringOfWord (c.x a)).placed = decide placed ∧
       (z / 2 ^ 26 % 2 = 1 → ¬placed → exec (.rdef g h a) s = s.finish (.error (trapPlain .bufBounds))) ∧
       (z / 2 ^ 26 % 2 = 1 → placed → ¬(typed ∧ idle) → exec (.rdef g h a) s = s.finish (.error (trapPlain .fmtMismatch))) ∧
       (z / 2 ^ 26 % 2 = 0 → ¬(z % 2 ^ 26 = 0 ∧ idle) → exec (.rdef g h a) s = s.finish (.error (trapPlain .fmtMismatch)))) ∧
     (let cursor (p : Nat × Binding → Bool) : Prop := ∃ t, c.task = some t ∧ ∃ q ∈ t.binds, q.2.ring = h.val ∧ p q = true
      (s.Runs (.radvHd g h a) → r.valid = false ∨ r.role ∉ [0, 3, 4] ∨ cursor (fun q => q.2.rcur != 0) →
        exec (.radvHd g h a) s = s.finish (.error (trapPlain .bufAccess))) ∧
      (s.Runs (.radvTl g h a) → r.valid = false ∨ r.role ∉ [0, 1, 2, 3] ∨ cursor (fun q => q.2.wcur != 0) →
        exec (.radvTl g h a) s = s.finish (.error (trapPlain .bufAccess))) ∧
      (s.Runs (.bind g w h) → r.valid = false ∨ r.role ∉ [3, 4] ∨ cursor (fun _ => true) ∨ c.binding v ≠ none →
        exec (.bind g w h) s = s.finish (.error (trapPlain .bufAccess)))) ∧
     (s.Runs (.radvHd g h a) → r.valid = true → r.role ∈ [0, 3, 4] → c.cursorOpen h true = false →
       ((c.x a).toNat ≤ c.popsLeft h → (c.x a).toNat ≠ 0 →
         exec (.radvHd g h a) s = .next (s.doneAs (c.popSlots h (c.x a).toNat))) ∧
       (c.x a = 0 → exec (.radvHd g h a) s = .next (s.doneAs c)) ∧
       (c.popsLeft h < (c.x a).toNat → exec (.radvHd g h a) s = s.finish (.error (trapPlain .ringUnderrun)))) ∧
     (s.Runs (.radvTl g h a) → r.valid = true → r.role ∈ [0, 1, 2, 3] → c.cursorOpen h false = false →
       ((c.x a).toNat ≤ c.pushesLeft h → (c.x a).toNat ≠ 0 →
         exec (.radvTl g h a) s = .next (s.doneAs (c.pushSlots h (c.x a).toNat))) ∧
       (c.x a = 0 → exec (.radvTl g h a) s = .next (s.doneAs c)) ∧
       (c.pushesLeft h < (c.x a).toNat → exec (.radvTl g h a) s = s.finish (.error (trapPlain .ringOverrun)))) ∧
     (s.Runs (.rqry g d h) → exec (.rqry g d h) s = .next (s.doneAs (c.setX d (ringWord c h)))) ∧
     (s.Runs (.bind g w h) → r.valid = true → r.role = 3 ∨ r.role = 4 → (∀ t, c.task = some t → ∀ p ∈ t.binds, p.2.ring ≠ h.val ∧ p.1 ≠ v.val) →
       exec (.bind g w h) s = .next (s.doneAs ((c.putV v 0).setBinding v ⟨h.val, 0, 0⟩))) ∧
     (s.Runs (.unbind g w) → c.binding v = none → exec (.unbind g w) s = .next (s.doneAs c)) ∧
     (∀ k, s.Runs (.unbind g w) → c.binding v = some k → ∃ t, exec (.unbind g w) s = .next t ∧ t.last = .done ∧
       t.me.binding v = none ∧ t.me.regs = c.regs.setV v 0)) ∧
  (∀ (c : Core) (h : Fin 16) (k : Nat) (t : Task), c.task = some t →
     (c.popSlots h k).headOf h = (c.headOf h + k) % 512 ∧ (c.popSlots h k).tailOf h = c.tailOf h ∧
     (c.pushSlots h k).tailOf h = (c.tailOf h + k) % 512 ∧ (c.pushSlots h k).headOf h = c.headOf h ∧
     ((c.popSlots h k).task.map fun u => u.pops[h]) = some (t.pops[h] + k) ∧
     ((c.pushSlots h k).task.map fun u => u.pushes[h]) = some (t.pushes[h] + k) ∧
     (c.popSlots h k).rings = c.rings ∧ (c.pushSlots h k).rings = c.rings) ∧
  (∀ (c : Core) (h : Fin 16),
     let r := c.rings[h]
     let n := (ringWord c h).toNat
     let filled := (c.tailOf h + 512 - c.headOf h) % 512
     let free := 2 ^ r.clog - filled - r.reserved
     (r.valid = false → n = 0) ∧
     (r.valid = true → r.clog ≤ 8 → c.headOf h < 512 → c.tailOf h < 512 →
       n / 2 ^ 56 = 0 ∧ n / 2 ^ 28 % 2 ^ 9 = free ∧ n / 2 ^ 19 % 2 ^ 9 = filled ∧ n / 2 ^ 10 % 2 ^ 9 = c.tailOf h ∧
       n / 2 % 2 ^ 9 = c.headOf h ∧ n % 2 = 1 ∧ n / 2 ^ 46 % 2 ^ 9 = c.pushesLeft h ∧ n / 2 ^ 37 % 2 ^ 9 = c.popsLeft h ∧
       c.filled h = filled ∧ c.free h = free ∧
       (∀ t, c.task = some t →
         n / 2 ^ 55 % 2 = (if t.popAllow.find h.val = none ∧ t.pushAllow.find h.val = none then 0 else 1) ∧
         (t.pushAllow.find h.val = none → c.pushesLeft h = free) ∧
         (∀ a, t.pushAllow.find h.val = some a → c.pushesLeft h = min free (a - t.pushes[h])) ∧
         (t.popAllow.find h.val = none → c.popsLeft h = filled) ∧
         (∀ a, t.popAllow.find h.val = some a → c.popsLeft h = min filled (a - t.pops[h])))))

/-! ### Global memory -/

/-- R38, R120: a pointer whose format and alignment allow an access of `n` bytes.
R224, R225: GLD, GST, GVLD and GVST issue one request: the access width, the data read at issue, the destination, the
scope and the order come from the instruction.
R228: prefetch has no effect on any state a program can see.
R240: HPIN, HDEM and HEVT on a record pointer of FMT 0 that is a multiple of 32 issue a request, HPIN's with a
destination; another pointer raises FMT_MISMATCH or ALIGN. That FMT_MISMATCH comes before the ALIGN of a pointer that
breaches both is the model's choice (log 90). -/
def Obligations.GlobalAccess : Prop :=
  (∀ (kind : Nat) (p : Word) (n : Nat), n ∈ [1, 2, 4, 8, 16] →
     let f := p.toNat / 2 ^ 58
     let va := p.toNat % 2 ^ 52
     let legal := p.toNat / 2 ^ 52 % 4 = 0 ∧ fmtAssigned f = true ∧ p.toNat / 2 ^ 54 % 16 = fmtBlg f
     (checkPointer kind p n = .ok () ↔ legal ∧ va % n = 0 ∧
       (fmtScaled f = true → va % 16 = 0) ∧
       (fmtScaled f = false → 8 ≤ fmtBits f → fmtBits f / 8 ≤ n ∧ va % (fmtBits f / 8) = 0)) ∧
     (¬legal → checkPointer kind p n = .error (trapGlobal .fmtMismatch kind p))) ∧
  (∀ (g : Guard) (d a : Fin 32) (sc : Fin 8) (w : Fin 4) (gack ord : Bool) (s : State),
     let c := s.me
     let p := c.x a
     let n := 2 ^ w.val
     c.CanIssue →
     (s.Runs (.gld g d a sc w ord) → checkPointer 1 p n = .ok () →
       ∃ t, exec (.gld g d a sc w ord) s = .next t ∧ s.Issued t p (.load n) (some (.x d)) ord false sc.val) ∧
     (s.Runs (.gst g d a sc w gack ord) → checkPointer 2 p n = .ok () →
       ∃ t, exec (.gst g d a sc w gack ord) s = .next t ∧
         s.Issued t p (.store (natToBytes n (c.x d).toNat) gack) none false ord sc.val) ∧
     (s.Runs (.gvld g d a sc ord) → checkPointer 1 p 16 = .ok () → c.binding d = none →
       ∃ t, exec (.gvld g d a sc ord) s = .next t ∧ s.Issued t p (.load 16) (some (.v d)) ord false sc.val) ∧
     (∀ v c1, s.Runs (.gvst g d a sc gack ord) → checkPointer 2 p 16 = .ok () → readVs [d] [] c = .ok ([v], c1) →
       ∃ t, exec (.gvst g d a sc gack ord) s = .next t ∧
         s.Issued t p (.store (natToBytes 16 v.toNat) gack) none false ord sc.val) ∧
     (s.Runs (.gvld g d a sc ord) → checkPointer 1 p 16 = .ok () → c.binding d ≠ none →
       exec (.gvld g d a sc ord) s = s.finish (.error (trapGlobal .bufAccess 1 p)))) ∧
  (∀ (g : Guard) (a b : Fin 32) (s : State),
     (s.Runs (.gpfDc g a b) → exec (.gpfDc g a b) s = .next (s.doneAs s.me)) ∧
     (s.Runs (.gpfLlc g a b) → exec (.gpfLlc g a b) s = .next (s.doneAs s.me))) ∧
  ∀ (g : Guard) (d a b : Fin 32) (s : State),
    let p := s.me.x a
    ∀ q : Instr × ReqOp × Option RegName,
      q ∈ [(.hpin g d a, .residency .pin, some (.x d)), (.hdem g a b, .residency (.demote ((s.me.x b).toNat % 8)), none),
        (.hevt g a, .residency .evict, none)] → s.Runs q.1 →
      (s.me.CanIssue → p.toNat / 2 ^ 52 = 0 → p.toNat % 32 = 0 →
        ∃ t, exec q.1 s = .next t ∧ s.Issued t p q.2.1 q.2.2 false false 0) ∧
      (p.toNat / 2 ^ 52 ≠ 0 → exec q.1 s = s.finish (.error (trapGlobal .fmtMismatch 1 p))) ∧
      (p.toNat / 2 ^ 52 = 0 → p.toNat % 32 ≠ 0 → exec q.1 s = s.finish (.error (trapGlobal .align 1 p)))

/-- R38, R120, R229: the checks of an atomic's pointer in their order: its format bits, the alignment its format
requires, the formats the instruction allows, the alignment to the width; each trap, and where all pass one request with the
operation, its operand from xb (for ACAS also the compare value, the before-value of xd) and its destination. AFADD raises
PROT_FAULT in reproducible mode before any check of the pointer.
R224: a bound destination of VAOR raises BUF_ACCESS, after the checks of the pointer (that order is the model's, log 79).
R230: what an atomic unit leaves in memory, for a content m and an operand b of the access width: ACAS stores only on a
match, AFADD the FP32 sum rounded once, VAOR the bitwise or of 16 bytes; an operand and a compare value count with their low 32
bits in a 4-byte access. -/
def Obligations.Atomics : Prop :=
  (∀ (g : Guard) (d a b : Fin 32) (o u wd : Bool) (s : State),
     let c := s.me
     let p := c.x a
     let n := if wd then 8 else 4
     let f := p.toNat / 0x400000000000000
     let va := p.toNat % 0x10000000000000
     let legal := p.toNat / 0x10000000000000 % 4 = 0 ∧ fmtAssigned f = true ∧ p.toNat / 0x40000000000000 % 16 = fmtBlg f
     let fits := if fmtScaled f then va % 16 = 0 else fmtBits f < 8 ∨ va % (fmtBits f / 8) = 0
     let whole : Bool := decide (f = 0 ∨ (wd = false ∧ (f = 35 ∨ f = 36)))
     let integer : List (Instr × AtomicOp) :=
       [(.aadd g d a b o wd, .add), (.aand g d a b o wd, .and), (.aor g d a b o wd, .or), (.axor g d a b o wd, .xor),
         (.aswp g d a b o wd, .swap), (.amin g d a b o u wd, .min u), (.amax g d a b o u wd, .max u),
         (.acas g d a b o wd, .cas (c.x d).toNat)]
     c.acquiring = false →
     (c.CanIssue → legal → fits →
       (∀ q ∈ integer, s.Runs q.1 → whole = true → va % n = 0 →
         ∃ t, exec q.1 s = .next t ∧ s.Issued t p (.atomic q.2 n (c.x b).toNat o) (some (.x d)) false false 0) ∧
       (s.Runs (.afadd g d a b o) → c.jobattr = false → f = 0 ∨ f = 1 → va % 4 = 0 →
         ∃ t, exec (.afadd g d a b o) s = .next t ∧
           s.Issued t p (.atomic .fadd 4 ((c.x b).toNat % 0x100000000) o) (some (.x d)) false false 0) ∧
       (∀ v c1, s.Runs (.vaor g d a b o) → readVs [b] [] c = .ok ([v], c1) → c.binding d = none → f = 0 → va % 16 = 0 →
         ∃ t, exec (.vaor g d a b o) s = .next t ∧
           s.Issued t p (.atomic .vor 16 v.toNat o) (some (.v d)) false false 0)) ∧
     (s.Runs (.afadd g d a b o) → c.jobattr = true →
       exec (.afadd g d a b o) s = s.finish (.error (trapGlobal .protFault 3 p))) ∧
     (∀ q ∈ integer.map (fun q => (q.1, whole, n)) ++ [(.afadd g d a b o, decide (f = 0 ∨ f = 1), 4),
         (.vaor g d a b o, decide (f = 0), 16)], s.Runs q.1 → (q.1 = .afadd g d a b o → c.jobattr = false) →
       (¬legal → exec q.1 s = s.finish (.error (trapGlobal .fmtMismatch 3 p))) ∧
       (legal → ¬fits → exec q.1 s = s.finish (.error (trapGlobal .align 3 p))) ∧
       (legal → fits → q.2.1 = false → exec q.1 s = s.finish (.error (trapGlobal .fmtMismatch 3 p))) ∧
       (legal → fits → q.2.1 = true → va % q.2.2 ≠ 0 → exec q.1 s = s.finish (.error (trapGlobal .align 3 p)))) ∧
     (s.Runs (.vaor g d a b o) → legal → f = 0 → va % 16 = 0 → c.binding d ≠ none →
       exec (.vaor g d a b o) s = s.finish (.error (trapGlobal .bufAccess 3 p)))) ∧
  (∀ (n m b cmp : Nat), n ∈ [4, 8] → m < 2 ^ (8 * n) →
     (∀ op ∈ [AtomicOp.add, .and, .or, .xor, .swap, .min true, .min false, .max true, .max false, .cas cmp],
       op.apply n m b = op.apply n m (b % 2 ^ (8 * n))) ∧
     AtomicOp.apply (.cas cmp) n m b = AtomicOp.apply (.cas (cmp % 2 ^ (8 * n))) n m b) ∧
  (∀ (n m b cmp : Nat), n ∈ [4, 8] → m < 2 ^ (8 * n) → b < 2 ^ (8 * n) → cmp < 2 ^ (8 * n) →
     AtomicOp.apply .add n m b = some ((m + b) % 2 ^ (8 * n)) ∧
     AtomicOp.apply .and n m b = some (m &&& b) ∧ AtomicOp.apply .or n m b = some (m ||| b) ∧
     AtomicOp.apply .xor n m b = some (m ^^^ b) ∧ AtomicOp.apply .swap n m b = some b ∧
     AtomicOp.apply (.min true) n m b = some (min m b) ∧ AtomicOp.apply (.max true) n m b = some (max m b) ∧
     (∃ v, AtomicOp.apply (.min false) n m b = some v ∧ sintN (8 * n) v = min (sintN (8 * n) m) (sintN (8 * n) b)) ∧
     (∃ v, AtomicOp.apply (.max false) n m b = some v ∧ sintN (8 * n) v = max (sintN (8 * n) m) (sintN (8 * n) b)) ∧
     AtomicOp.apply (.cas cmp) n m b = (if m = cmp then some b else none)) ∧
  (∀ m b : Nat, b < 0x100000000 →
     AtomicOp.apply .fadd 4 m b = some (rneF32 ((fp32.decode m).add (fp32.decode b))).1) ∧
  (∀ m b : Nat, b < 0x100000000000000000000000000000000 → AtomicOp.apply .vor 16 m b = some (m ||| b))

/-! ### Fences, Tills and barriers -/

/-- R232: FENCE.acq waits for every earlier load and atomic, FENCE.rel completes and holds later stores, FENCE.full does
both once its condition holds; until then the bundle stalls. R151, R232: that condition, over the core's earlier requests
and the stores of its own that still spread: no load or atomic has still to return its value, every store has performed at its home or, for
the scopes of a die, is known to the die, and for the wider scopes none is still to be exposed or to reach a replica. -/
def Obligations.Fences : Prop :=
  ∀ (g : Guard) (sc : Fin 8) (s : State),
    let c := s.me
    (s.Runs (.fenceAcq g sc) → c.reqs.any (·.returnsValue) = false → exec (.fenceAcq g sc) s = .next (s.doneAs c)) ∧
    (s.Runs (.fenceAcq g sc) → c.reqs.any (·.returnsValue) = true →
      exec (.fenceAcq g sc) s = s.finish (.error (.stall .fence))) ∧
    (s.Runs (.fenceRel g sc) →
      exec (.fenceRel g sc) s = .next (s.doneAs { c with holds := c.holds ++ [⟨c.positions, sc.val, c.readFrom, false⟩] })) ∧
    (s.Runs (.fenceFull g sc) → s.fenceDone s.cur c.positions sc.val = true →
      exec (.fenceFull g sc) s = .next (s.doneAs { c with holds := c.holds ++ [⟨c.positions, sc.val, c.readFrom, true⟩] })) ∧
    (s.Runs (.fenceFull g sc) → s.fenceDone s.cur c.positions sc.val = false →
      exec (.fenceFull g sc) s = s.finish (.error (.stall .fence))) ∧
    ∀ core pos scope, s.fenceDone core pos scope = true ↔
      (∀ r ∈ (s.core core).reqs, r.pos < pos → (∀ q, r.op ≠ .residency q) → (∀ n, r.op ≠ .preserve n) →
        (∃ data gack, r.op = .store data gack) ∧ ((∃ pa v, r.phase = .applied pa v) ∨ (∃ v, r.phase = .answered v) ∨
          (∃ e, r.phase = .refused e) ∨ (r.cached = true ∧ scope < 3))) ∧
      ∀ u ∈ s.net.updates, u.author.engine = false → u.author.core = core → u.author.pos < pos →
        u.gack = false ∧ scope < 3

/-- R134, R135, R233: TSET writes TARGET, TAG, CHAN and ARM of a Till and advances it as often as COUNT holds TARGETs (not at
all for a TARGET of 0): COUNT loses them, GEN counts them, and with ARM each posts TAG, GEN and the offset to CHAN, in order;
TGEN reads COUNT and GEN.
R87, R88, R269: a post of a core to its own channel enters the queue at once, where it meets no obstacle.
R104, R234, R235, R271: BARA and BARD at an enabled barrier at which the core has not arrived are buffered until task
end; an arrival again, or at a disabled barrier, raises BARRIER_OVERRUN, which the model takes before the limit of
buffered operations (log 16); BARQ reads a snapshot, field by field, and zero of a disabled barrier. That a core that arrived by BARD shows ARR
until its phase completes is the model's choice (log 98).
R95, R103, R269: the release of an arrival at task end. It is counted, by BARD with DROPPED set; where the arrivals reach E the phase
completes: every core that arrived by BARA is posted the phase and the barrier's number on the continuation channel, with its next
number, E is lowered by the departures, ARRIVED cleared and the phase advanced. -/
def Obligations.TillsAndBarriers : Prop :=
  (∀ (g : Guard) (d a b : Fin 32) (s : State),
     let c := s.me
     let la := (c.x a).toNat
     let w := c.x b
     let count := bytesToNat (c.loc.readList (laPlace la + 4) 4)
     let gen := bytesToNat (c.loc.readList (laPlace la + 8) 4)
     c.loc.wf = true → laBuf la = 0 → 0x800 ≤ laOff la →
     let target := w.toNat % 2 ^ 32
     let k := if target = 0 then 0 else count / target
     let payload (i : Nat) : List Byte :=
       natToBytes 4 (laOff la) ++ natToBytes 4 ((gen + i + 1) % 2 ^ 32) ++ natToBytes 8 (w.toNat / 2 ^ 32 % 2 ^ 16)
     (s.Runs (.tset g a b) → c.CanWrite la 16 →
       ∃ m : Memory,
         let s1 := s.setCore s.cur { c with loc := m }
         exec (.tset g a b) s = .next { (if w.toNat < 2 ^ 63 then s1 else (List.range k).foldl (fun u i =>
           u.post s.cur 4 (w.toNat / 2 ^ 48 % 16) (payload i)) s1) with last := .done } ∧
         bytesToNat (m.readList (laPlace la) 4) = target ∧
         bytesToNat (m.readList (laPlace la + 4) 4) = (if target = 0 then count else count % target) ∧
         bytesToNat (m.readList (laPlace la + 8) 4) = (gen + k) % 2 ^ 32 ∧
         bytesToNat (m.readList (laPlace la + 12) 4) = w.toNat / 2 ^ 32 % 2 ^ 20 +
           bytesToNat (c.loc.readList (laPlace la + 12) 4) / 2 ^ 20 % 2 ^ 11 * 2 ^ 20 + w.toNat / 2 ^ 63 * 2 ^ 31 ∧
         ∀ k, k < laPlace la ∨ laPlace la + 16 ≤ k → m.read k = c.loc.read k) ∧
     (s.Runs (.tgen g d a) → c.CanRead la 16 →
       exec (.tgen g d a) s = .next (s.doneAs (c.setX d (word (count * 2 ^ 32 + gen)))))) ∧
  (∀ (core : Nat) (n : Fin 16) (payload : List Byte) (x : Gang) (k : Nat) (s : State),
     let c := s.core core
     let m := selfMsg core c.seqctr 4 n.val payload c.jobNo
     let t := s.post core 4 n.val payload
     c.posts = [] → c.seqReady = true → s.Arrives m x → s.refuses x m = false → c.slotFor n.val = some k →
     (c.chans[15]).hnd.toNat / 8 % 2 ^ 49 ≠ 0 →
     ((t.core core).chans[n]).queue = (c.chans[n]).queue ++ [{ m with slot := k }] ∧
     (∀ i, i ≠ n → (t.core core).chans[i] = c.chans[i]) ∧ (t.core core).seqctr = (c.seqctr + 1) % 2 ^ 24 ∧
     (t.core core).loc = c.loc ∧ t.net = s.net ∧ t.mem = s.mem) ∧
  (∀ (g : Guard) (d : Fin 32) (b : Fin 8) (s : State),
     let c := s.me
     let x := s.barrier c b
     let here := (x.arrived ++ x.leaving ++ x.dropped).contains c.rank || c.arrivalBuffered b.val
     (∀ p : Instr × Buffered, p ∈ [(.bara g b, .bara b.val), (.bard g b, .bard b.val)] → s.Runs p.1 →
       (x.en = true → here = false → c.bufferRoom 0 = true →
         exec p.1 s = .next (s.doneAs (c.modTask fun t => { t with buffered := t.buffered ++ [p.2] }))) ∧
       (x.en = false ∨ here = true →
         exec p.1 s = s.finish (.error (trapWith .barrierOverrun (word b.val))))) ∧
     (s.Runs (.barq g d b) → exec (.barq g d b) s = .next (s.doneAs (c.setX d (barrierWord c x b.val)))) ∧
     (x.en = false → barrierWord c x b.val = 0) ∧
     (x.en = true → x.arrived.length + x.leaving.length < 2048 → x.expected < 2048 →
       let n := (barrierWord c x b.val).toNat
       n / 2 ^ 63 = 1 ∧ (n / 2 ^ 62 % 2 = 1 ↔ c.rank ∈ x.arrived ++ x.leaving) ∧ (n / 2 ^ 61 % 2 = 1 ↔ c.rank ∈ x.dropped) ∧
       (n / 2 ^ 60 % 2 = 1 ↔ c.arrivalBuffered b.val = true) ∧ n / 2 ^ 54 % 2 ^ 6 = 0 ∧
       n / 2 ^ 43 % 2 ^ 11 = x.arrived.length + x.leaving.length ∧ n / 2 ^ 32 % 2 ^ 11 = x.expected ∧
       n % 2 ^ 32 = x.phase % 2 ^ 32) ∧
     (c.arrivalBuffered b.val = true ↔ ∃ t, c.task = some t ∧ (Buffered.bara b.val ∈ t.buffered ∨ Buffered.bard b.val ∈ t.buffered))) ∧
  ∀ (core j gn : Nat) (b : Fin 8) (leaving : Bool) (x : Gang) (a : Job) (k : Task) (s : State),
    let c := s.core core
    let y := x.bars[b]
    let arrived := if leaving then y.arrived else y.arrived ++ [c.rank]
    let left := if leaving then y.leaving ++ [c.rank] else y.leaving
    let dropped := if leaving then y.dropped ++ [c.rank] else y.dropped
    let told := arrived.map fun r => x.coreOf a.launch.gw r
    let text := natToBytes 4 b.val ++ natToBytes 4 y.phase
    let t := s.arriveBarrier core b.val leaving
    c.gang = some (j, gn) → s.gang j gn = some x → s.job j = some a →
    (∃ z, t.gang j gn = some z ∧ (∀ i, i ≠ b → z.bars[i] = x.bars[i]) ∧ z.bars[b] = (if arrived.length + left.length < y.expected then
        { y with arrived := arrived, leaving := left, dropped := dropped }
      else { y with arrived := [], leaving := [], dropped := dropped, expected := y.expected - left.length, phase := (y.phase + 1) % 2 ^ 32 })) ∧
    (arrived.length + left.length < y.expected → t.net = s.net ∧ t.cores = s.cores) ∧
    (y.expected ≤ arrived.length + left.length → told.Nodup → (∀ n ∈ told, (s.core n).posts = [] ∧ (s.core n).seqReady = true) →
      ∃ l : List Msg, t.net.msgs = s.net.msgs ++ l ∧ l.length = told.length ∧ ∀ (i n : Nat), told[i]? = some n → ∃ m : Msg, l[i]? = some m ∧
        m.dest = n ∧ m.chan = y.chan ∧ m.kind = 4 ∧ m.payload = text ∧ m.seq = (s.core n).seqctr) ∧
    (c.task = some k → k.ended = true → k.retire = false → c.mxq = [] → c.clocked = true → core < 24576 →
      k.buffered = [if leaving then .bard b.val else .bara b.val] → (c.chans[15]).queue = [] →
      ∃ u, exec (.taskEndRelease core) s = .next u ∧ (u.gang j gn).map (·.bars) = (t.gang j gn).map (·.bars) ∧
        u.net.msgs = t.net.msgs ∧ (u.core core).task = none)

/-! ### Vector instructions -/

/-- R241, R242 to R249, R252 to R258: every lane-wise instruction of two vector operands reads va and vb (a window is
popped, once where both name it), computes from what it read, writes vd and raises the flags; nothing else changes.
R241, R244 to R247, R250, R252, R256, R257, R260: the same of the instructions of one vector operand, some with a
constant-window entry, the decode table or the job seed beside it.
R241, R244 to R246, R261: the instructions that also read the before-value of vd: VFMA, VSEL and VDOT of two operands,
VFMA with a constant and MSMRG of one. -/
def Obligations.VectorLanes : Prop :=
  (∀ (sat : Bool) (t : Fin 16) (e : Fin 4) (f : Fin 32) (s : State),
     let T := s.me.table
     let w := laneBits t.val
     let noFlag (r : Nat → Nat → Nat) : Nat → Nat → Nat × Flags := fun p q => (r p q, 0#6)
     ∀ p : (Guard → Fin 32 → Fin 32 → Fin 32 → Instr) × (Vec → Vec → Vec × Flags),
       p ∈ [((.vadd · · · · sat t), arithVec .add sat t.val), ((.vsub · · · · sat t), arithVec .sub sat t.val),
         ((.vmul · · · · t), arithVec .mul false t.val),
         ((.vmin · · · · t), zipLanes w (noFlag (pickLane false t.val))),
         ((.vmax · · · · t), zipLanes w (noFlag (pickLane true t.val))),
         (.vand, fun x y => (x &&& y, 0#6)), (.vor, fun x y => (x ||| y, 0#6)), (.vxor, fun x y => (x ^^^ y, 0#6)),
         (.vandn, fun x y => (x &&& ~~~y, 0#6)),
         ((.vshl · · · · t), zipLanes w (noFlag (shlLane t.val))), ((.vshr · · · · t), zipLanes w (noFlag (shrLane t.val))),
         ((.vceq · · · · t), zipLanes w (noFlag (cmpLane .eq t.val))), ((.vclt · · · · t), zipLanes w (noFlag (cmpLane .lt t.val))),
         ((.vcle · · · · t), zipLanes w (noFlag (cmpLane .le t.val))), (.vperm, fun x y => (permute x y, 0#6)),
         ((.vzipl · · · · e), fun x y => (zipVec .zipLow e x y, 0#6)), ((.vziph · · · · e), fun x y => (zipVec .zipHigh e x y, 0#6)),
         ((.vuzpe · · · · e), fun x y => (zipVec .even e x y, 0#6)), ((.vuzpo · · · · e), fun x y => (zipVec .odd e x y, 0#6)),
         ((.qnt · · · · f), zipLanes 32 (qntLane T f.val true)), ((.qntNs · · · · f), zipLanes 32 (qntLane T f.val false)),
         ((.dqn · · · · f), zipLanes 32 (dqnLane T f.val)), ((.srnd · · · · f), zipLanes 32 (srndLane T f.val))] →
       ∀ g d a b x y c1 c2, s.Runs (p.1 g d a b) → readVs [a, b] [] s.me = .ok ([x, y], c1) →
         writeV d (p.2 x y).1 (c1.raise (p.2 x y).2) = .ok c2 → exec (p.1 g d a b) s = .next (s.doneAs c2)) ∧
  (∀ (sat lt4 : Bool) (t u : Fin 16) (k : Fin 4) (cw : Fin 256) (s : State),
     let c := s.me
     let w := laneBits t.val
     let entry : Vec := c.cwN cw.val ++ c.cwN cw.val
     ∀ p : (Guard → Fin 32 → Fin 32 → Instr) × (Vec → Vec × Flags),
       p ∈ [((.vabs · · · t), mapLanes w fun x => (absLane t.val x, 0#6)), ((.vneg · · · t), mapLanes w fun x => (negLane t.val x, 0#6)),
         ((.vredadd · · · t), reduceVec t.val (addNode t.val)),
         ((.vredmax · · · t), reduceVec t.val fun x y => (pickLane true t.val x.1 y.1, 0#6)),
         ((.vredmin · · · t), reduceVec t.val fun x y => (pickLane false t.val x.1 y.1, 0#6)),
         ((.vaddCw · · · cw k), fun x => arithVec .add false (cwLane k) x entry),
         ((.vmulCw · · · cw k), fun x => arithVec .mul false (cwLane k) x entry),
         ((.vcvtRne · · · u sat t), convertVec .rne sat t.val u.val), ((.vcvtRtz · · · u sat t), convertVec .rtz sat t.val u.val),
         ((.vcvtRmi · · · u sat t), convertVec .rmi sat t.val u.val), ((.vcvtRpi · · · u sat t), convertVec .rpi sat t.val u.val),
         ((.ltd · · · lt4), mapLanes 32 fun x => (((c.table.getD (x % (if lt4 then 16 else 256)) 0#19).toNat, 0#6))),
         ((.lte · · · lt4), mapLanes 32 fun x => tableEncode c.table (if lt4 then 15 else 255) (fp32.decode x)),
         (.rngCore, fun x => (ofLanes 32 ((List.range 4).map fun i =>
           mix (mixKey 1 s.cur (c.cwN 230).toNat) ((x.toNat + i) % 2 ^ 128) % 2 ^ 32), 0#6)),
         (.rngIdx, fun x => (ofLanes 32 ((List.range 4).map fun i =>
           mix (mixKey 2 0 (c.cwN 230).toNat) (x.toNat / 2 ^ 64 * 2 ^ 64 + (x.toNat + i) % 2 ^ 64) % 2 ^ 32), 0#6)),
         (.exp2, specialVec .exp2), (.log2, specialVec .log2), (.rcp, specialVec .rcp), (.rsq, specialVec .rsq),
         (.sqrt, specialVec .sqrt), (.tanh, specialVec .tanh)] →
       ∀ g d a x c1 c2, s.Runs (p.1 g d a) → readVs [a] [] c = .ok ([x], c1) →
         writeV d (p.2 x).1 (c1.raise (p.2 x).2) = .ok c2 → exec (p.1 g d a) s = .next (s.doneAs c2)) ∧
  (∀ (t : Fin 16) (k : Fin 4) (cw : Fin 256) (s : State),
     let c := s.me
     let entry : Vec := c.cwN cw.val ++ c.cwN cw.val
     (∀ p : (Guard → Fin 32 → Fin 32 → Fin 32 → Instr) × (Vec → Vec → Vec → Vec × Flags),
       p ∈ [((.vfma · · · · t), fmaVec t.val), (.vsel, fun x y m => ((x &&& m) ||| (y &&& ~~~m), 0#6)),
         ((.vdot · · · · t), dotVec t.val)] →
       ∀ g d a b x y z c1 c2, s.Runs (p.1 g d a b) → readVs [a, b, d] [] c = .ok ([x, y, z], c1) →
         writeV d (p.2 x y z).1 (c1.raise (p.2 x y z).2) = .ok c2 → exec (p.1 g d a b) s = .next (s.doneAs c2)) ∧
     (∀ p : (Guard → Fin 32 → Fin 32 → Instr) × (Vec → Vec → Vec × Flags),
       p ∈ [((.vfmaCw · · · cw k), fun x z => fmaVec (cwLane k) x entry z), (.msmrg, mergeVec)] →
       ∀ g d a x z c1 c2, s.Runs (p.1 g d a) → readVs [a, d] [] c = .ok ([x, z], c1) →
         writeV d (p.2 x z).1 (c1.raise (p.2 x z).2) = .ok c2 → exec (p.1 g d a) s = .next (s.doneAs c2)))

/-- R243, R241: the integer lanes of VADD, VSUB and VMUL wrap and raise no flag; with saturation VADD and VSUB clamp to the
range of the lane type and raise OVF where a lane is clamped; VMIN and VMAX pick by value; shifts of the lane width or more
give 0, or the sign.
R53, R54: an FP32 value that is representable is returned unchanged by round_rne, with no flag.
R52, R244, R62: a floating lane of VADD, VSUB, VMUL and VFMA is its exact result rounded once to the lane type,
non-saturating; the flags are those of all lanes, INV also for a NaN from operands that are none.
R246: VDOT and its flags. R63, R64, R250: VREDADD over FP32 lanes with the flags of its three nodes, and over integers, where it
wraps without a flag; VREDMAX and VREDMIN give a lane that none exceeds or falls below, with no flag, or the canonical NaN. R64:
the larger or smaller of two codes of a floating lane type.
R261: MSMRG merges a pair of maximum and sum with another; its flags are those of the two final roundings, INV also for a NaN
of its sum from operands that are none.
R252: VCVT, lane by lane: between integers it wraps or clamps, to an integer it rounds into the range, to a floating type
it rounds once; its flags are those of the lanes it converts.
R241, R52: what a lane-wise instruction of one or two operands makes of a function of lanes. R245: the masks of the compares.
R243, R244: VABS and VNEG. R249: the zips and unzips. R254, R42, R46, R48: DQN, the codes it decodes and the table of R254.
R258, R55: SRND, its NaN and infinity rows, and the codes of an integer format. -/
def Obligations.LaneArithmetic : Prop :=
  (∀ (t : Nat) (x y : Vec) (i : Nat), t ≤ 7 → i < 128 / laneBits t →
     let w := laneBits t
     let value (n : Nat) : Int := if t ≤ 3 then sintN w n else n
     let lo : Int := if t ≤ 3 then -(2 ^ (w - 1)) else 0
     let hi : Int := if t ≤ 3 then 2 ^ (w - 1) - 1 else 2 ^ w - 1
     let a := lane x w i
     let b := lane y w i
     let clamped (f : Int → Int → Int) : Flags := if (List.range (128 / w)).any (fun k =>
       let v := f (value (lane x w k)) (value (lane y w k)); decide (v < lo ∨ hi < v)) then 4#6 else 0#6
     lane (arithVec .add false t x y).1 w i = (a + b) % 2 ^ w ∧
     lane (arithVec .sub false t x y).1 w i = (a + 2 ^ w - b) % 2 ^ w ∧
     lane (arithVec .mul false t x y).1 w i = a * b % 2 ^ w ∧
     (arithVec .add false t x y).2 = 0#6 ∧ (arithVec .sub false t x y).2 = 0#6 ∧ (arithVec .mul false t x y).2 = 0#6 ∧
     value (lane (arithVec .add true t x y).1 w i) = max lo (min hi (value a + value b)) ∧
     value (lane (arithVec .sub true t x y).1 w i) = max lo (min hi (value a - value b)) ∧
     (arithVec .add true t x y).2 = clamped (fun u v => u + v) ∧ (arithVec .sub true t x y).2 = clamped (fun u v => u - v) ∧
     value (lane (zipLanes w (fun p q => (pickLane false t p q, 0#6)) x y).1 w i) = min (value a) (value b) ∧
     value (lane (zipLanes w (fun p q => (pickLane true t p q, 0#6)) x y).1 w i) = max (value a) (value b) ∧
     lane (zipLanes w (fun p q => (shlLane t p q, 0#6)) x y).1 w i = (if w ≤ b then 0 else a * 2 ^ b % 2 ^ w) ∧
     value (lane (zipLanes w (fun p q => (shrLane t p q, 0#6)) x y).1 w i) =
       (if w ≤ b then (if value a < 0 then -1 else 0) else value a / 2 ^ b)) ∧
  (∀ c, c < 2 ^ 32 → (fp32.decode c).isFinite = true → rneF32 (fp32.decode c) = (c, 0#6)) ∧
  (∀ (p : Nat × FloatFmt) (sat : Bool) (x y z : Vec), p ∈ [(8, fp16), (9, bf16), (10, fp32), (11, e8m10)] →
     let w := laneBits p.1
     let val (v : Vec) (i : Nat) : Val := p.2.decode (lane v w i % 2 ^ (1 + p.2.ebits + p.2.mbits))
     let isVec (r : Vec × Flags) (exact : Nat → Val) (operands : Nat → List Val) : Prop :=
       (∀ i, i < 128 / w → lane r.1 w i = (roundTo p.2 .rne false (exact i)).1 % 2 ^ w) ∧
       r.2 = (List.range (128 / w)).foldl (fun fl i => fl ||| ((roundTo p.2 .rne false (exact i)).2 |||
         (if exact i = .nan ∧ ∀ v ∈ operands i, v ≠ .nan then 8#6 else 0#6))) 0#6
     isVec (arithVec .add sat p.1 x y) (fun i => (val x i).add (val y i)) (fun i => [val x i, val y i]) ∧
     isVec (arithVec .sub sat p.1 x y) (fun i => (val x i).add (val y i).neg) (fun i => [val x i, val y i]) ∧
     isVec (arithVec .mul sat p.1 x y) (fun i => (val x i).mul (val y i)) (fun i => [val x i, val y i]) ∧
     isVec (fmaVec p.1 x y z) (fun i => ((val x i).mul (val y i)).add (val z i)) (fun i => [val x i, val y i, val z i])) ∧
  (∀ (x y z : Vec) (i : Nat), i < 4 →
     let f (v : Vec) (k : Nat) : Val := bf16.decode (lane v 16 k)
     let d (k : Nat) : Val := fp32.decode (lane z 32 k)
     let total (k : Nat) : Val := ((d k).add ((f x (2 * k)).mul (f y (2 * k)))).add ((f x (2 * k + 1)).mul (f y (2 * k + 1)))
     let newNan (k : Nat) : Flags := if total k = .nan ∧
       [d k, f x (2 * k), f y (2 * k), f x (2 * k + 1), f y (2 * k + 1)].all (fun v => !v.isNan) = true then 8#6 else 0#6
     lane (dotVec 9 x y z).1 32 i = (rneF32 (total i)).1 % 2 ^ 32 ∧
     (dotVec 9 x y z).2 = (List.range 4).foldl (fun fl k => fl ||| ((rneF32 (total k)).2 ||| newNan k)) 0#6 ∧
     (∀ t : Nat, t = 0 ∨ t = 4 → (dotVec t x y z).2 = 0#6 ∧
       let byte (v : Vec) (j : Nat) : Int := if t = 0 then sintN 8 (lane v 8 (4 * i + j)) else lane v 8 (4 * i + j)
       (lane (dotVec t x y z).1 32 i : Int) =
         (lane z 32 i + byte x 0 * byte y 0 + byte x 1 * byte y 1 + byte x 2 * byte y 2 + byte x 3 * byte y 3) % 2 ^ 32)) ∧
  (∀ x : Vec, let v (i : Nat) : Val := fp32.decode (lane x 32 i)
     let r (a b : Val) : Val := fp32.decode (rneF32 (a.add b)).1
     let flags (a b : Val) : Flags := (rneF32 (a.add b)).2 ||| if a.add b = .nan ∧ a ≠ .nan ∧ b ≠ .nan then 8#6 else 0#6
     reduceVec 10 (addNode 10) x = (BitVec.ofNat 128 (rneF32 ((r (v 0) (v 1)).add (r (v 2) (v 3)))).1,
       flags (v 0) (v 1) ||| flags (v 2) (v 3) ||| flags (r (v 0) (v 1)) (r (v 2) (v 3)))) ∧
  (∀ (t : Nat) (x : Vec), t ∈ [2, 3, 6, 7] →
     reduceVec t (addNode t) x =
       (BitVec.ofNat 128 (((List.range (128 / laneBits t)).map (lane x (laneBits t))).sum % 2 ^ laneBits t), 0#6)) ∧
  (∀ (larger : Bool) (t : Nat) (x : Vec), t ≤ 7 →
     let w := laneBits t
     let value (n : Nat) : Int := if t ≤ 3 then sintN w n else n
     ∃ i, i < 128 / w ∧ reduceVec t (fun p q => (pickLane larger t p.1 q.1, 0#6)) x = (BitVec.ofNat 128 (lane x w i), 0#6) ∧
       ∀ j, j < 128 / w → if larger then value (lane x w j) ≤ value (lane x w i) else value (lane x w i) ≤ value (lane x w j)) ∧
  (∀ (p : Nat × FloatFmt × Nat) (larger : Bool) (x : Vec), p ∈ [(8, fp16, 0x7E00), (9, bf16, 0x7FC0), (10, fp32, 0x7FC00000),
       (11, e8m10, 0x3FE00)] →
     let w := laneBits p.1
     let F := p.2.1
     let code (i : Nat) : Nat := lane x w i % 2 ^ (1 + F.ebits + F.mbits)
     let v (i : Nat) : Val := F.decode (code i)
     let r := reduceVec p.1 (fun a b => (pickLane larger p.1 a.1 b.1, 0#6)) x
     ((∃ i, i < 128 / w ∧ v i = .nan) → r = (BitVec.ofNat 128 p.2.2, 0#6)) ∧
     ((∀ i, i < 128 / w → v i ≠ .nan) → ∃ i, i < 128 / w ∧ r = (BitVec.ofNat 128 (code i), 0#6) ∧
       ∀ j, j < 128 / w →
         if larger then (v i).lt (v j) = false ∧ ((v i).eq (v j) = true → (v j).sign = false → (v i).sign = false)
         else (v j).lt (v i) = false ∧ ((v i).eq (v j) = true → (v j).sign = true → (v i).sign = true))) ∧
  (∀ (p : Nat × FloatFmt × Nat) (a b : Nat), p ∈ [(8, fp16, 0x7E00), (9, bf16, 0x7FC0), (10, fp32, 0x7FC00000),
       (11, e8m10, 0x3FE00)] →
     let F := p.2.1
     let u := F.decode a
     let v := F.decode b
     let minus := 2 ^ (F.ebits + F.mbits)
     (u = .nan ∨ v = .nan → floatPick F true a b = p.2.2 ∧ floatPick F false a b = p.2.2) ∧
     (u ≠ .nan → v ≠ .nan → (floatPick F true a b = a ∨ floatPick F true a b = b) ∧
       (u.lt v = true → floatPick F true a b = b ∧ floatPick F false a b = a) ∧
       (v.lt u = true → floatPick F true a b = a ∧ floatPick F false a b = b)) ∧
     floatPick F true minus 0 = 0 ∧ floatPick F true 0 minus = 0 ∧ floatPick F false 0 minus = minus ∧
     floatPick F false minus 0 = minus ∧
     (∀ m : Bool, a < 2 ^ laneBits p.1 → b < 2 ^ laneBits p.1 →
       pickLane m p.1 a b = floatPick F m (a % 2 ^ (1 + F.ebits + F.mbits)) (b % 2 ^ (1 + F.ebits + F.mbits)))) ∧
  (∀ (a d : Vec) (p : Nat), p < 2 →
     let val (v : Vec) (i : Nat) : Val := fp32.decode (lane v 32 i)
     let m := floatPick fp32 true (lane d 32 (2 * p)) (lane a 32 (2 * p))
     let best (p : Nat) : Val := fp32.decode (floatPick fp32 true (lane d 32 (2 * p)) (lane a 32 (2 * p)))
     let scale (v : Vec) (p : Nat) : Val := if (val v (2 * p)).eq (best p) = true then .ofInt 1
       else fp32.decode (specialFn .exp2 (rneF32 ((val v (2 * p)).add (best p).neg)).1).1
     let total (p : Nat) : Val := ((val d (2 * p + 1)).mul (scale d p)).add ((val a (2 * p + 1)).mul (scale a p))
     let flags (p : Nat) : Flags := (rneF32 (total p)).2 |||
       if total p = .nan ∧ [val d (2 * p + 1), scale d p, val a (2 * p + 1), scale a p].all (fun v => !v.isNan) = true then 8#6 else 0#6
     lane (mergeVec a d).1 32 (2 * p) = m % 2 ^ 32 ∧
     lane (mergeVec a d).1 32 (2 * p + 1) = (rneF32 (total p)).1 % 2 ^ 32 ∧ (mergeVec a d).2 = (flags 0 ||| flags 1)) ∧
  (∀ (r : Rounding) (sat : Bool) (t u : Nat) (x : Vec) (i : Nat), t ≤ 11 → u ≤ 11 → i < 128 / laneBits t →
     let w := laneBits t
     let n (k : Nat) : Nat := lane x (laneBits u) k
     let int (k : Nat) : Int := if u ≤ 3 then sintN (laneBits u) (n k) else n k
     let lo : Int := if t ≤ 3 then -(2 ^ (w - 1)) else 0
     let hi : Int := if t ≤ 3 then 2 ^ (w - 1) - 1 else 2 ^ w - 1
     let val (k : Nat) : Val := if u ≤ 7 then .ofInt (int k) else (laneFmt u).decode (if u = 11 then n k % 2 ^ 19 else n k)
     let flags (k : Nat) : Flags :=
       if t ≤ 7 ∧ u ≤ 7 then (if sat = true ∧ (int k < lo ∨ hi < int k) then 4#6 else 0#6)
       else if t ≤ 7 then (toIntRange lo hi r (val k)).2 else (roundTo (laneFmt t) r sat (val k)).2
     let result := lane (convertVec r sat t u x).1 w i
     (128 / laneBits u ≤ i → result = 0) ∧
     (i < 128 / laneBits u → t ≤ 7 → u ≤ 7 → result = ((if sat then max lo (min hi (int i)) else int i) % 2 ^ w).toNat) ∧
     (i < 128 / laneBits u → t ≤ 7 → 8 ≤ u → result = ((toIntRange lo hi r (val i)).1 % 2 ^ w).toNat) ∧
     (i < 128 / laneBits u → 8 ≤ t → result = (roundTo (laneFmt t) r sat (val i)).1 % 2 ^ w) ∧
     (convertVec r sat t u x).2 =
       (List.range (min (128 / laneBits t) (128 / laneBits u))).foldl (fun fl k => fl ||| flags k) 0#6) ∧
  (∀ (w : Nat) (f : Nat → Nat → Nat × Flags) (g : Nat → Nat × Flags) (x y : Vec) (i : Nat), w ∈ [8, 16, 32, 64] → i < 128 / w →
     lane (zipLanes w f x y).1 w i = (f (lane x w i) (lane y w i)).1 % 2 ^ w ∧
     (zipLanes w f x y).2 = (List.range (128 / w)).foldl (fun fl k => fl ||| (f (lane x w k) (lane y w k)).2) 0#6 ∧
     lane (mapLanes w g x).1 w i = (g (lane x w i)).1 % 2 ^ w ∧
     (mapLanes w g x).2 = (List.range (128 / w)).foldl (fun fl k => fl ||| (g (lane x w k)).2) 0#6) ∧
  (∀ t x y : Nat, t ≤ 7 →
     let w := laneBits t
     let value (n : Nat) : Int := if t ≤ 3 then sintN w n else n
     let mask (b : Bool) : Nat := if b then 2 ^ w - 1 else 0
     cmpLane .eq t x y = mask (decide (value x = value y)) ∧ cmpLane .lt t x y = mask (decide (value x < value y)) ∧
     cmpLane .le t x y = mask (decide (value x ≤ value y)) ∧
     (t ≤ 3 → (absLane t x : Int) = (value x).natAbs % 2 ^ w ∧ (negLane t x : Int) = -(value x) % 2 ^ w)) ∧
  (∀ (p : Nat × FloatFmt × Nat) (x y : Nat), p ∈ [(8, fp16, 15), (9, bf16, 15), (10, fp32, 31), (11, e8m10, 18)] →
     let w := laneBits p.1
     let u := p.2.1.decode (x % 2 ^ (p.2.2 + 1))
     let v := p.2.1.decode (y % 2 ^ (p.2.2 + 1))
     let mask (b : Bool) : Nat := if b then 2 ^ w - 1 else 0
     (u = .nan ∨ v = .nan → ∀ r, cmpLane r p.1 x y = 0) ∧
     (u.isFinite = true → v.isFinite = true → cmpLane .eq p.1 x y = mask (decide (u.rat = v.rat)) ∧
       cmpLane .lt p.1 x y = mask (decide (u.rat < v.rat)) ∧ cmpLane .le p.1 x y = mask (decide (u.rat ≤ v.rat))) ∧
     (∀ s, u = .inf s → v.isFinite = true →
       cmpLane .eq p.1 x y = 0 ∧ cmpLane .lt p.1 x y = mask s ∧ cmpLane .le p.1 x y = mask s) ∧
     (∀ s, u.isFinite = true → v = .inf s →
       cmpLane .eq p.1 x y = 0 ∧ cmpLane .lt p.1 x y = mask (!s) ∧ cmpLane .le p.1 x y = mask (!s)) ∧
     (∀ s q, u = .inf s → v = .inf q → cmpLane .eq p.1 x y = mask (s == q) ∧ cmpLane .lt p.1 x y = mask (s && !q) ∧
       cmpLane .le p.1 x y = mask (s || !q)) ∧
     (∀ k, x < 2 ^ w → (absLane p.1 x).testBit k = (decide (k < p.2.2) && x.testBit k) ∧
       (negLane p.1 x).testBit k = (if k = p.2.2 then !x.testBit k else decide (k < p.2.2) && x.testBit k))) ∧
  (∀ (e : Fin 4) (x y : Vec) (j : Nat),
     let w := 8 * 2 ^ e.val
     let h := 64 / w
     j < h →
     lane (zipVec .zipLow e x y) w (2 * j) = lane x w j ∧ lane (zipVec .zipLow e x y) w (2 * j + 1) = lane y w j ∧
     lane (zipVec .zipHigh e x y) w (2 * j) = lane x w (h + j) ∧ lane (zipVec .zipHigh e x y) w (2 * j + 1) = lane y w (h + j) ∧
     lane (zipVec .even e x y) w j = lane x w (2 * j) ∧ lane (zipVec .even e x y) w (h + j) = lane y w (2 * j) ∧
     lane (zipVec .odd e x y) w j = lane x w (2 * j + 1) ∧ lane (zipVec .odd e x y) w (h + j) = lane y w (2 * j + 1)) ∧
  (∀ (T : Machine.DecodeTable) (f c s : Nat),
     let e := decodeElem T f (c % 2 ^ fmtBits f)
     let v := fp32.decode s
     (dqnLane T f c s = ((rneF32 (e.mul v)).1, (rneF32 (e.mul v)).2 |||
       if e.mul v = .nan ∧ e ≠ .nan ∧ v ≠ .nan then 8#6 else 0#6)) ∧
     (∀ p ∈ [(2, e8m10, 32), (3, bf16, 16), (4, fp16, 16), (5, e5m2, 8), (6, e4m3, 8), (7, e3m2, 6), (8, e2m3, 6), (9, e2m1, 4)],
       fmtBits p.1 = p.2.2 ∧ decodeElem T p.1 c = p.2.1.decode (c % 2 ^ (1 + p.2.1.ebits + p.2.1.mbits))) ∧
     (fmtBits 19 = 8 ∧ decodeElem T 19 c = .ofInt (sintN 8 c) ∧ fmtBits 20 = 8 ∧ decodeElem T 20 c = .ofInt (c % 256 : Nat) ∧
       fmtBits 21 = 4 ∧ decodeElem T 21 c = .ofInt (sintN 4 c) ∧ fmtBits 22 = 4 ∧ decodeElem T 22 c = .ofInt (c % 16 : Nat) ∧
       fmtBits 23 = 2 ∧ decodeElem T 23 c = .ofInt (sintN 2 c)) ∧
     (fmtBits 24 = 2 ∧ decodeElem T 24 c = .ofInt (if c % 4 = 1 then 1 else if c % 4 = 3 then -1 else 0)) ∧
     (fmtBits 25 = 8 ∧ decodeElem T 25 c = e8m10.decode (T.getD (c % 256) 0#19).toNat ∧
       fmtBits 26 = 4 ∧ decodeElem T 26 c = e8m10.decode (T.getD (c % 16) 0#19).toNat) ∧
     -- the table of R254
     (∀ p ∈ [(0x40F00000, 4, 1#6, 0x40C00000), (0x41280000, 6, 1#6, 0x41400000), (0x41B00000, 7, 5#6, 0x41900000),
         (0xBF400000, 8, 3#6, 0x80000000)],
       qntLane T 9 true p.1 0x40400000 = (p.2.1, p.2.2.1) ∧ dqnLane T 9 p.2.1 0x40400000 = (p.2.2.2, 0#6))) ∧
  (∀ (T : Machine.DecodeTable) (f x y : Nat),
     srndLane T f x y = encodeElem T f (.sto (y % 65536)) true (fp32.decode x) ∧
     (∀ p ∈ [(3, 0x7F7F, 0x8000, 0x7FC0, 0#6), (4, 0x7BFF, 0x8000, 0x7E00, 0#6), (5, 0x7B, 0x80, 0x7E, 0#6),
         (6, 0x7E, 0x80, 0x7F, 0#6), (7, 0x1F, 0x20, 0, 8#6), (8, 0x1F, 0x20, 0, 8#6), (9, 7, 8, 0, 8#6)],
       srndLane T p.1 0x7F800000 y = (p.2.1, 4#6) ∧ srndLane T p.1 0xFF800000 y = (p.2.1 + p.2.2.1, 4#6) ∧
       (fp32.decode x = .nan → srndLane T p.1 x y = (p.2.2.2.1, p.2.2.2.2))) ∧
     (∀ p ∈ [((19 : Nat), (8 : Nat), (-128 : Int), (127 : Int)), (20, 8, 0, 255), (21, 4, -8, 7), (22, 4, 0, 15), (23, 2, -2, 1),
         (24, 2, -1, 1)], ∀ (r : Rounding) (sat : Bool) (v : Val), encodeElem T p.1 r sat v =
       (((toIntRange p.2.2.1 p.2.2.2 r v).1 % 2 ^ p.2.1).toNat, (toIntRange p.2.2.1 p.2.2.2 r v).2)))

/-- R8, R62: exact sums and products of finite values are those of the rationals; a NaN, an infinity and a zero's sign come
out as R62 says.
R42, R53, R56: a magnitude lies on the grid of a format between two neighbouring codes, the format's exponent unbounded
above, `rem / den` of their distance above the lower one. That round_sto keeps the grid of the subnormals below the smallest
normal value, so that R56's unbounded exponent lifts the upper bound only, is the model's reading (log 7, DEDUCED): the clauses
on `gridOf`, `roundsUp` and `roundTo` rest on it there.
R9, R53 to R56: which of the two each rounding takes, the overflow of R54 in both modes, and the flags; the largest finite
codes of R41; the halfway cases of R56.
R55: rounding into an integer range. R57: the quotient that quantisation rounds once, and the special rows. R50: an
equal entry of a decode table encodes with no flag; the worked table of R50.
R70, R71: the special functions of a nonzero value by E and m, a subnormal normalised, and EXP2 by the floor; the entries of the
tables c0, c1 and c2 of every function, each by the half-open interval its rni means, and what `interp` makes of them. R73: TANH,
branch by branch. R66: mix, round by round; for one key it is a bijection of the counter. -/
def Obligations.FloatRounding : Prop :=
  (∀ (p q : Bool) (n d m e : Nat), d ≠ 0 → e ≠ 0 →
     let a : Val := .fin p n d
     let b : Val := .fin q m e
     (∃ s k l, a.add b = .fin s k l ∧ l ≠ 0 ∧ (k = 0 → s = (p && q))) ∧ (a.add b).rat = a.rat + b.rat ∧
     (∃ k l, a.mul b = .fin (p != q) k l ∧ l ≠ 0) ∧ (a.mul b).rat = a.rat * b.rat ∧
     (a.lt b = true ↔ a.rat < b.rat)) ∧
  (∀ a b : Val,
     (a.add b = .nan ↔ a = .nan ∨ b = .nan ∨ ∃ s, a = .inf s ∧ b = .inf (!s)) ∧
     (∀ s, a.add b = .inf s ↔ a ≠ .nan ∧ b ≠ .nan ∧ (a = .inf s ∨ b = .inf s) ∧ a ≠ .inf (!s) ∧ b ≠ .inf (!s)) ∧
     (a.mul b = .nan ↔ a = .nan ∨ b = .nan ∨ (∃ s p d, a = .inf s ∧ b = .fin p 0 d) ∨ ∃ s p d, a = .fin p 0 d ∧ b = .inf s)) ∧
  (∀ (F : FloatFmt) (num den : Nat), F ∈ [fp32, e8m10, bf16, fp16, e5m2, e4m3, e3m2, e2m3, e2m1] → 0 < den →
     let g := gridOf F num den
     let below := (F.magVal false g.1).rat
     let above := (F.magVal false (g.1 + 1)).rat
     g.2.1 < g.2.2 ∧ below < above ∧ (num : Rat) / (den : Rat) = below + (g.2.1 : Rat) / (g.2.2 : Rat) * (above - below)) ∧
  (∀ (neg : Bool) (q rem den b : Nat),
     (roundsUp .rne neg q rem den = true ↔ den < 2 * rem ∨ (2 * rem = den ∧ q % 2 = 1)) ∧ roundsUp .rtz neg q rem den = false ∧
     (roundsUp .rmi neg q rem den = true ↔ neg = true ∧ rem ≠ 0) ∧ (roundsUp .rpi neg q rem den = true ↔ neg = false ∧ rem ≠ 0) ∧
     (roundsUp (.sto b) neg q rem den = true ↔ rem ≠ 0 ∧ 2 ^ 16 ≤ rem * 2 ^ 16 / den + b)) ∧
  (∀ (p : FloatFmt × Nat × Nat) (r : Rounding) (sat neg : Bool) (num den : Nat),
     p ∈ [(fp32, 0x7F7FFFFF, 0x7F800000), (e8m10, 0x3FBFF, 0x3FC00), (bf16, 0x7F7F, 0x7F80), (fp16, 0x7BFF, 0x7C00),
       (e5m2, 0x7B, 0x7C), (e4m3, 0x7E, 0), (e3m2, 0x1F, 0x1F), (e2m3, 0x1F, 0x1F), (e2m1, 7, 7)] →
     let F := p.1
     let M := p.2.1
     let g := gridOf F num den
     let up := roundsUp r neg g.1 g.2.1 g.2.2
     let sign : Nat := if neg then 2 ^ (F.ebits + F.mbits) else 0
     let beyond : Nat := if sat then M + sign else if F = e4m3 then 0x7F else p.2.2 + sign
     let code := (roundTo F r sat (.fin neg num den)).1
     let exceeds := match r with
       | .rne => M < g.1 ∨ (g.1 = M ∧ g.2.2 ≤ 2 * g.2.1)
       | .sto _ => M < g.1 + up.toNat
       | _ => M < g.1 ∨ (g.1 = M ∧ g.2.1 ≠ 0)
     (¬exceeds → code = g.1 + up.toNat + sign ∧ (roundTo F r sat (.fin neg num den)).2 =
       (if g.2.1 = 0 then 0#6 else if g.1 < 2 ^ F.mbits then 3#6 else 1#6)) ∧
     (exceeds → (roundTo F r sat (.fin neg num den)).2 = 5#6 ∧
       code = (if r = .rtz ∨ (r = .rpi ∧ neg = true) ∨ (r = .rmi ∧ neg = false) then M + sign else beyond))) ∧
  (roundTo fp16 .rne false (.ofInt 65519) = (0x7BFF, 1#6) ∧ roundTo fp16 .rne false (.ofInt 65520) = (0x7C00, 5#6) ∧
    roundTo fp16 .rne true (.ofInt 65520) = (0x7BFF, 5#6) ∧ roundTo e4m3 .rne false (.ofInt 460) = (0x7E, 1#6) ∧
    roundTo e4m3 .rne false (.ofInt 464) = (0x7F, 5#6) ∧ roundTo e4m3 .rne true (.ofInt 464) = (0x7E, 5#6) ∧
    roundTo e2m1 .rne false (.ofInt 7) = (7, 5#6) ∧ toIntRange (-128) 127 .rne (.fin false 255 2) = (127, 5#6) ∧
    toIntRange 0 255 .rne (.fin true 1 2) = (0, 1#6)) ∧
  (∀ (lo hi : Int) (r : Rounding) (neg : Bool) (num den : Nat), lo ≤ hi → 0 < den →
     let mag : Int := num / den + (roundsUp r neg (num / den) (num % den) den).toNat
     let i := if neg then -mag else mag
     toIntRange lo hi r (.fin neg num den) =
       (max lo (min hi i), if i < lo ∨ hi < i then 5#6 else if num % den = 0 then 0#6 else 1#6) ∧
     toIntRange lo hi r .nan = (0, 8#6) ∧ toIntRange lo hi r (.inf neg) = (if neg then lo else hi, 4#6)) ∧
  (∀ (T : Machine.DecodeTable) (f : Nat) (r : Rounding) (sat : Bool) (x s : Val),
     let q := quantise T f r sat x s
     let enc (v : Val) (fl : Flags) : Prop := q = ((encodeElem T f r sat v).1, fl ||| (encodeElem T f r sat v).2)
     let sign := x.sign != s.sign
     (x = .nan ∨ s = .nan → enc .nan 0#6) ∧
     (x.isZero = true → s.isZero = true → enc .nan 8#6) ∧
     (x ≠ .nan → s ≠ .nan → x.isFinite = false → s.isFinite = false → enc .nan 8#6) ∧
     (x ≠ .nan → x.isZero = false → s.isZero = true → enc (.inf sign) 4#6) ∧
     (x.isFinite = true → s ≠ .nan → s.isFinite = false → enc (.fin sign 0 1) 0#6) ∧
     (x ≠ .nan → x.isFinite = false → s.isFinite = true → s.isZero = false → enc (.inf sign) 0#6) ∧
     (∀ n d m e a b, x = .fin a n d → s = .fin b m e → d ≠ 0 → m ≠ 0 → e ≠ 0 →
       ∃ k l, l ≠ 0 ∧ (Val.fin sign k l).rat = x.rat / s.rat ∧ enc (.fin sign k l) 0#6) ∧
     (∀ F, fmtFloat f = some F → ∀ v, encodeElem T f r sat v = roundTo F r sat v) ∧
     (f ∈ [25, 27] → ∀ v, encodeElem T f r sat v = tableEncode T 255 v) ∧
     (f ∈ [26, 28] → ∀ v, encodeElem T f r sat v = tableEncode T 15 v)) ∧
  (let T : Machine.DecodeTable := [394240#19, 393216#19, 392192#19, 391168#19, 0#19, 129024#19, 130048#19, 131072#19, 131584#19,
     132096#19, 132608#19, 133120#19, 133632#19, 134144#19, 261632#19, 261120#19]
   tableEncode T 15 (.fin false 5 2) = (8, 1#6) ∧ tableEncode T 15 (.fin false 1 4) = (4, 1#6) ∧
   tableEncode T 15 (.ofInt 20) = (13, 1#6) ∧ tableEncode T 15 (.ofInt (-5)) = (0, 5#6) ∧ tableEncode T 15 .nan = (14, 0#6)) ∧
  (∀ (T : Machine.DecodeTable) (x : Val) (c k : Nat), c ≤ k → (tableVal T c).eq x = true →
     (∀ i, i < c → (tableVal T i).eq x = false) → tableEncode T k x = (c, 0#6)) ∧
  (∀ (c m : Nat) (e : Int), c < 0x7F800000 → m < 2 ^ 23 → (fp32.decode c).rat = (Val.dyadic false (2 ^ 23 + m) (e - 23)).rat →
     specialFn .log2 c = rneF32 ((Val.ofInt e).add (scaled (interp .log2 m) (-30))) ∧
     specialFn .rcp c = rneF32 ((scaled (interp .rcp m) (-e - 30)).withSign false) ∧
     specialFn .rcp (c + 2 ^ 31) = rneF32 ((scaled (interp .rcp m) (-e - 30)).withSign true) ∧
     specialFn .rsq c = (if e % 2 = 0 then rneF32 (scaled (interp .rsqEven m) (-(e / 2) - 30))
       else rneF32 (scaled (interp .rsqOdd m) (-((e - 1) / 2) - 30))) ∧
     specialFn .sqrt c = (if e % 2 = 0 then rneF32 (scaled (interp .sqrtEven m) (e / 2 - 30))
       else rneF32 (scaled (interp .sqrtOdd m) ((e - 1) / 2 - 30)))) ∧
  (∀ c : Nat, c < 2 ^ 32 → (fp32.decode c).isFinite = true →
     let x := (fp32.decode c).rat
     (128 ≤ x → specialFn .exp2 c = (0x7F800000, 5#6)) ∧ (x < -150 → specialFn .exp2 c = (0, 3#6)) ∧
     (-150 ≤ x → x < 128 → x ≠ 0 → specialFn .exp2 c =
       rneF32 (scaled (interp .exp2 ((x - x.floor) * 2 ^ 23).floor.toNat) (x.floor - 30)))) ∧
  (∀ c : Nat, c < 2 ^ 32 →
     let sign : Nat := c / 2 ^ 31 * 2 ^ 31
     let x := fp32.decode (c % 2 ^ 31)
     let a := x.rat
     let z := (fp32.decode (rneF32 (x.mul (fp32.decode 0x4038AA3B))).1).rat
     let V := (scaled (interp .exp2 ((z - z.floor) * 2 ^ 23).floor.toNat) (z.floor - 30)).rat
     let rounded (y : Rat) : Prop := ∃ k l, l ≠ 0 ∧ (Val.fin false k l).rat = y ∧
       specialFn .tanh c = ((rneF32 (.fin false k l)).1 + sign, (rneF32 (.fin false k l)).2)
     (x = .nan → specialFn .tanh c = (0x7FC00000, 0#6)) ∧
     (x = .inf false ∨ (x.isFinite = true ∧ 19 ≤ 2 * a) → specialFn .tanh c = (0x3F800000 + sign, 0#6)) ∧
     (x.isFinite = true → 16 * a < 1 → rounded (a - a * a * a / 3 + 2 * (a * a * a * a * a) / 15)) ∧
     (x.isFinite = true → 1 ≤ 16 * a → 2 * a < 19 → rounded ((V - 1) / (V + 1)))) ∧
  (∀ j : Nat, j < 256 →
     let c (f : Interp) : Int := interp f (j * 2 ^ 15)
     let u : Int := 256 + j
     -- rni(g(j/256) × 2^30), by what its half-open interval means for each g
     (2 * c .exp2 - 1) ^ 256 ≤ 2 ^ (j + 7936) ∧ 2 ^ (j + 7936) < (2 * c .exp2 + 1) ^ 256 ∧ 0 < c .exp2 ∧ 0 ≤ c .log2 ∧
     (∀ N, N = 0x80000000 → 2 ^ (2 * c .log2).toNat * 256 ^ N ≤ 2 * (256 + j) ^ N ∧
       (256 + j) ^ N < 2 ^ (2 * c .log2 + 1).toNat * 256 ^ N) ∧
     (2 * c .rcp - 1) * u ≤ 2 ^ 39 ∧ 2 ^ 39 < (2 * c .rcp + 1) * u ∧
     (2 * c .sqrtEven - 1) ^ 2 ≤ u * 2 ^ 54 ∧ u * 2 ^ 54 < (2 * c .sqrtEven + 1) ^ 2 ∧
     (2 * c .sqrtOdd - 1) ^ 2 ≤ u * 2 ^ 55 ∧ u * 2 ^ 55 < (2 * c .sqrtOdd + 1) ^ 2 ∧
     (2 * c .rsqEven - 1) ^ 2 * u ≤ 2 ^ 70 ∧ 2 ^ 70 < (2 * c .rsqEven + 1) ^ 2 * u ∧
     (2 * c .rsqOdd - 1) ^ 2 * u ≤ 2 ^ 69 ∧ 2 ^ 69 < (2 * c .rsqOdd + 1) ^ 2 * u ∧
     -- c1 and c2, likewise from the derivatives; ln 2 lies between p and q times 10^-19
     ∀ f : Interp, ∃ c1 c2 : Int,
       (∀ d : Nat, d < 2 ^ 15 → interp f (j * 2 ^ 15 + d) = c f + c1 * d / 2 ^ 23 + c2 * d * d / 2 ^ 46) ∧
       (let p : Int := 6931471805599453094
        let q : Int := 6931471805599453095
        let one : Int := 10 ^ 19
        match f with
        | .log2 => (2 * c1 - 1) * u * q ≤ 2 ^ 39 * one ∧ 2 ^ 39 * one < (2 * c1 + 1) * u * p ∧
            (1 - 2 * c2) * u ^ 2 * p ≥ 2 ^ 46 * one ∧ 2 ^ 46 * one > (-1 - 2 * c2) * u ^ 2 * q
        | .rcp => (2 * c1 - 1) * u ^ 2 ≤ -2 ^ 47 ∧ -2 ^ 47 < (2 * c1 + 1) * u ^ 2 ∧
            (2 * c2 - 1) * u ^ 3 ≤ 2 ^ 55 ∧ 2 ^ 55 < (2 * c2 + 1) * u ^ 3
        | .rsqEven => c1 < 0 ∧ (1 + 2 * c1) ^ 2 * u ^ 3 < 2 ^ 84 ∧ 2 ^ 84 ≤ (1 - 2 * c1) ^ 2 * u ^ 3 ∧
            0 < c2 ∧ (2 * c2 - 1) ^ 2 * u ^ 5 ≤ 9 * 2 ^ 96 ∧ 9 * 2 ^ 96 < (2 * c2 + 1) ^ 2 * u ^ 5
        | .rsqOdd => c1 < 0 ∧ (1 + 2 * c1) ^ 2 * u ^ 3 < 2 ^ 83 ∧ 2 ^ 83 ≤ (1 - 2 * c1) ^ 2 * u ^ 3 ∧
            0 < c2 ∧ (2 * c2 - 1) ^ 2 * u ^ 5 ≤ 9 * 2 ^ 95 ∧ 9 * 2 ^ 95 < (2 * c2 + 1) ^ 2 * u ^ 5
        | .sqrtEven => 0 < c1 ∧ (2 * c1 - 1) ^ 2 * u ≤ 2 ^ 68 ∧ 2 ^ 68 < (2 * c1 + 1) ^ 2 * u ∧
            c2 < 0 ∧ (1 + 2 * c2) ^ 2 * u ^ 3 < 2 ^ 80 ∧ 2 ^ 80 ≤ (1 - 2 * c2) ^ 2 * u ^ 3
        | .sqrtOdd => 0 < c1 ∧ (2 * c1 - 1) ^ 2 * u ≤ 2 ^ 69 ∧ 2 ^ 69 < (2 * c1 + 1) ^ 2 * u ∧
            c2 < 0 ∧ (1 + 2 * c2) ^ 2 * u ^ 3 < 2 ^ 81 ∧ 2 ^ 81 ≤ (1 - 2 * c2) ^ 2 * u ^ 3
        | .exp2 => 0 < c1 ∧ (2 * c1 - 1) ^ 256 * one ^ 256 ≤ q ^ 256 * 2 ^ (j + 7936) ∧
            p ^ 256 * 2 ^ (j + 7936) < (2 * c1 + 1) ^ 256 * one ^ 256 ∧
            0 < c2 ∧ (2 * c2 - 1) ^ 256 * one ^ 512 ≤ q ^ 512 * 2 ^ (j + 7680) ∧
            p ^ 512 * 2 ^ (j + 7680) < (2 * c2 + 1) ^ 256 * one ^ 512)) ∧
  (∀ key ctr other : Nat, ctr < 2 ^ 128 → other < 2 ^ 128 →
     let start : Nat × Nat × Nat × Nat := (ctr % 2 ^ 64, ctr / 2 ^ 64, key % 2 ^ 64, key / 2 ^ 64 % 2 ^ 64)
     let (a, b, _, _) := (List.range 8).foldl (fun (r : Nat × Nat × Nat × Nat) _ =>
       let m := r.1 * 0xC4A37E9D2B61F0A5
       (Nat.xor (Nat.xor (m / 2 ^ 64) r.2.1) r.2.2.1, Nat.xor (m % 2 ^ 64) r.2.2.2,
         (r.2.2.1 + 0x8F3CA1D56E27B049) % 2 ^ 64, (r.2.2.2 + 0x5D1B93E70C4FA86B) % 2 ^ 64)) start
     mix key ctr = b * 2 ^ 64 + a ∧ mix key ctr < 2 ^ 128 ∧ (mix key ctr = mix key other → ctr = other))

/-- R248, whole: VPERM builds each result byte from the bytes of va with vb as the selector; fn values 1 to 31 of OP 0x10
in the X slot are unassigned. -/
def Obligations.Permute : Prop :=
  (∀ g d a b x y c1 c2 s, s.Runs (.vperm g d a b) → readVs [a, b] [] s.me = .ok ([x, y], c1) →
    (∀ r : Vec, (∀ i, i < 16 → lane r 8 i = if lane y 8 i < 16 then lane x 8 (lane y 8 i) else 0) →
      writeV d r (c1.raise 0#6) = .ok c2 → exec (.vperm g d a b) s = .next (s.doneAs c2))) ∧
  (∀ w, opOf w = 0x10 → w % 32 ≠ 0 → decodeSlot .x w = .error .illegalOpcode) ∧
  (∀ g d a b, (Instr.vperm g d a b).encode =
    some (0x10 * 2 ^ 24 + g.gn.toNat * 2 ^ 23 + g.gp.val * 2 ^ 20 + d.val * 2 ^ 15 + a.val * 2 ^ 10 + b.val * 2 ^ 5))

/-- R72, whole: the special operands of LOG2, EXP2, RCP, RSQ and SQRT on FP32 codes, with the INV and DZ flags named. -/
def Obligations.SpecialOperands : Prop :=
  (∀ c f, c < 2 ^ 32 → fp32.decode c = .nan → f ∈ [SpecialFn.log2, .exp2, .rcp, .rsq, .sqrt] →
    specialFn f c = (0x7FC00000, 0#6)) ∧
  (specialFn .log2 0x7F800000 = (0x7F800000, 0#6) ∧ specialFn .exp2 0x7F800000 = (0x7F800000, 0#6) ∧
    specialFn .rcp 0x7F800000 = (0, 0#6) ∧ specialFn .rsq 0x7F800000 = (0, 0#6) ∧
    specialFn .sqrt 0x7F800000 = (0x7F800000, 0#6)) ∧
  (specialFn .log2 0xFF800000 = (0x7FC00000, flInv) ∧ specialFn .exp2 0xFF800000 = (0, 0#6) ∧
    specialFn .rcp 0xFF800000 = (0x80000000, 0#6) ∧ specialFn .rsq 0xFF800000 = (0x7FC00000, flInv) ∧
    specialFn .sqrt 0xFF800000 = (0x7FC00000, flInv)) ∧
  (specialFn .log2 0 = (0xFF800000, flDz) ∧ specialFn .exp2 0 = (0x3F800000, 0#6) ∧
    specialFn .rcp 0 = (0x7F800000, flDz) ∧ specialFn .rsq 0 = (0x7F800000, flDz) ∧ specialFn .sqrt 0 = (0, 0#6)) ∧
  (specialFn .log2 0x80000000 = (0xFF800000, flDz) ∧ specialFn .exp2 0x80000000 = (0x3F800000, 0#6) ∧
    specialFn .rcp 0x80000000 = (0xFF800000, flDz) ∧ specialFn .rsq 0x80000000 = (0xFF800000, flDz) ∧
    specialFn .sqrt 0x80000000 = (0x80000000, 0#6)) ∧
  (∀ c f, 0x80000000 < c → c < 0xFF800000 → f ∈ [SpecialFn.log2, .rsq, .sqrt] → specialFn f c = (0x7FC00000, flInv))

/-- R51, R241, R259: HAD and HAD.inv transform a group of registers that are no windows, under a key from vb, into another
such group and raise the flags, INV among them for a NaN from elements that are none; a group that holds a window raises
BUF_ACCESS.
R66, R67, R69: the transform: bit j of one call of mix under HSEED and the block index flips element j, before the sums or,
in the inverse, after them; each sum is exact, its signs the parity of the bits of i and j, and is scaled and rounded once, and the
flags are those of the roundings together. -/
def Obligations.Hadamard : Prop :=
  (∀ (inverse : Bool) (hseed blk : Nat) (xs : List Nat), xs.length = 16 ∨ xs.length = 32 → hseed < 2 ^ 64 → blk < 2 ^ 64 →
    let n := xs.length
    let bits := mix (4 * 2 ^ 120 + hseed) blk
    let c : Val := if n = 16 then .fin false 1 4 else fp32.decode 0x3E3504F3
    let flip (b : Bool) (v : Val) : Val := if b then v.neg else v
    let odd (i j : Nat) : Bool := decide (((List.range 5).filter fun k => i.testBit k && j.testBit k).length % 2 = 1)
    let made (i : Nat) : Nat × Flags := rneF32 ((flip (inverse && bits.testBit i) c).mul
      (Val.sum ((List.range n).map fun j =>
        flip (odd i j != (!inverse && bits.testBit j)) (fp32.decode (xs.getD j 0)))))
    (hadamard inverse hseed blk xs).1 = ((List.range n).map fun i => (made i).1) ∧
    ∀ b, b < 6 → ((hadamard inverse hseed blk xs).2.getLsbD b = true ↔ ∃ i, i < n ∧ (made i).2.getLsbD b = true)) ∧
  ∀ (g : Guard) (d a b : Fin 32) (n32 : Bool) (key : Vec) (c1 : Core) (s : State),
    let c := s.me
    let k := if n32 then 8 else 4
    let reg (base : Fin 32) (i : Nat) : Fin 32 := Fin.ofNat 32 (base.val + i)
    ∀ p : Instr × Bool, p ∈ [(.had g d a b n32, false), (.hadInv g d a b n32, true)] → s.Runs p.1 →
      let xs := (List.range k).flatMap fun i => lanes c.old.v[reg a i] 32
      let r := hadamard p.2 (key.toNat % 2 ^ 64) (key.toNat / 2 ^ 64) xs
      let newNan : Bool := r.1.any (fun y => (fp32.decode y).isNan) && !xs.any fun x => (fp32.decode x).isNan
      ((∀ i, i < k → c.readBinding (reg a i) = none ∧ c.binding (reg d i) = none) → readVs [b] [] c = .ok ([key], c1) →
        exec p.1 s = .next (s.doneAs (((List.range k).foldl (fun c i =>
          c.putV (reg d i) (ofLanes 32 ((r.1.drop (4 * i)).take 4))) c1).raise
            (r.2 ||| if newNan then 8#6 else 0#6)))) ∧
      (∀ i, i < k → c.readBinding (reg a i) ≠ none ∨ c.binding (reg d i) ≠ none →
        exec p.1 s = s.finish (.error (trapPlain .bufAccess)))

/-! ### Arrays in the local buffers -/

/-- R49, R255: LTLD loads 256 entries of 19 bits from consecutive words; a table that is not monotone raises
FMT_MISMATCH.
R262 to R265: SAMPLE, TOPKM and OWN, where their descriptors pass the checks of R262: SAMPLE gives the first candidate
in the order of R74 or, with none, the empty record and NOLEGAL; TOPKM writes k records in that order, filled up with empty ones, and
the count to xd; OWN gives address and rank, or all ones for a coordinate out of range, its local array checked before the
fields of its table (R262; with what a dimension whose BLK or PRC is 0 spans, the model's choice, log 88). `checkRange` is the
check of a range (R262; of an empty one at the end of its buffer log 101, DESIGN CHOICE).
R66, R75: a candidate's key, step by step. R263: SAMPLE sets no flag but NOLEGAL with no candidate and INV for a NaN key.
R74, R264: TOPKM's order. Sorting keeps every record, no record stands after one it precedes, and records equal in VALUE and
INDEX keep their input order. -/
def Obligations.ArrayInstructions : Prop :=
  (∀ (g : Guard) (a : Fin 32) (s : State),
     let c := s.me
     let la := (c.x a).toNat
     let T := (List.range 256).map fun k => BitVec.ofNat 19 (bytesToNat (c.loc.readList (laPlace (la + 4 * k)) 4))
     s.Runs (.ltld g a) → c.acquiring = false → la < 2 ^ 32 → la / 2 ^ 18 % 2 ^ 12 = 0 → laBuf la ≠ 3 →
     laOff la + 1024 ≤ (if laBuf la = 2 then 0x20000 else 0x30000) → la % 16 = 0 →
     (tableMonotone T = true → exec (.ltld g a) s = .next (s.doneAs { c with table := T })) ∧
     (tableMonotone T = false → exec (.ltld g a) s = s.finish (.error (trapPlain .fmtMismatch)))) ∧
  (∀ (g : Guard) (d a b : Fin 32) (s : State),
     let c := s.me
     let la := (c.x a).toNat
     let w (k : Nat) : Nat := bytesToNat (c.loc.readList (laPlace (la + k)) 4)
     c.acquiring = false →
     (s.Runs (.sample g d a b) → checkRange c ⟨la, 32, 32, false, some 0⟩ = .ok () →
       checkRange c ⟨w 0, 4 * w 8, 4, false, none⟩ = .ok () → checkRange c ⟨w 4, (w 20 + w 8 + 7) / 8, 1, false, some 0⟩ = .ok () →
       w 8 ≤ 49152 → w 20 ≤ 262143 → c.loc64 (la + 24) = 0 → (w 8 = 0 ∨ w 16 + w 8 - 1 ≤ 0xFFFFFFFE) →
       let f32 (k : Nat) : Val := fp32.decode k
       let key (i : Nat) : Nat :=
         let bits := mix (3 * 2 ^ 120 + (c.cwN 230).toNat) ((c.x b).toNat * 2 ^ 64 + (w 16 + i))
         let l1 := Nat.xor (specialFn .log2 (rneF32 (.fin false (2 * (bits % 2 ^ 23) + 1) (2 ^ 24))).1).1 0x80000000
         let gb := (f32 (specialFn .log2 l1).1).neg
         let z := bytesToNat (c.loc.readList (laPlace (w 0 + 4 * i)) 4)
         let scaledLogit := (rneF32 ((f32 z).mul (f32 (w 12)))).1
         (rneF32 ((f32 (rneF32 ((f32 scaledLogit).mul (f32 0x3FB8AA3B))).1).add gb)).1
       let legal (i : Nat) : Bool := (c.loc.read (laPlace (w 4) + (w 20 + i) / 8)).toNat.testBit ((w 20 + i) % 8)
       let cands := ((List.range (w 8)).filter legal).map fun i => (key i, w 16 + i)
       (cands = [] → exec (.sample g d a b) s = .next (s.doneAs ((c.setX d 0xFFFFFFFF7FC00000#64).raise flNoLegal))) ∧
       (cands ≠ [] → ∃ k, k ∈ cands ∧ (∀ q ∈ cands, q = k ∨ precedes (fp32.decode q.1) q.2 (fp32.decode k.1) k.2 = false) ∧
         exec (.sample g d a b) s = .next (s.doneAs ((c.setX d (word (k.2 * 2 ^ 32 + k.1))).raise
           (if f32 k.1 = .nan then 8#6 else 0#6))))) ∧
     (s.Runs (.topkm g d a b) → checkRange c ⟨la, 16, 16, false, some 0⟩ = .ok () →
       let merge := decide (2 ^ 31 ≤ w 8)
       let n := w 8 % 2 ^ 15
       let k := (c.x b).toNat
       let size := if merge then 8 else 4
       let records := (List.range n).map fun i =>
         if merge then c.loc64 (w 0 + 8 * i) else (w 12 + i) * 2 ^ 32 + c.loc32 (w 0 + 4 * i)
       w 8 % 2 ^ 31 = n → n ≤ 16384 → (if merge then w 12 = 0 else n = 0 ∨ w 12 + n - 1 ≤ 0xFFFFFFFE) →
       1 ≤ k → k ≤ 256 → checkRange c ⟨w 0, size * n, size, false, none⟩ = .ok () →
       checkRange c ⟨w 4, 8 * k, 8, true, none⟩ = .ok () → overlaps (laPlace (w 0)) (size * n) (laPlace (w 4)) (8 * k) = false →
       c.heldBytes (laBuf (w 4)) (laOff (w 4)) (8 * k) = false →
       exec (.topkm g d a b) s = .next (s.doneAs ((c.storeRecords (w 4)
         ((sortRecords records ++ List.replicate k 0xFFFFFFFF7FC00000).take k)).setX d (word (min k n))))) ∧
     (s.Runs (.own g d a b) → checkRange c ⟨la, 40, 8, false, none⟩ = .ok () →
       let dim (i : Nat) : Nat := bytesToNat (c.loc.readList (laPlace (la + 8 * i)) 8)
       let hdr := bytesToNat (c.loc.readList (laPlace (la + 32)) 8)
       let ext (i : Nat) : Nat := max (dim i % 2 ^ 16) 1
       let blk (i : Nat) : Nat := if dim i % 2 ^ 16 = 0 then 1 else dim i / 2 ^ 16 % 2 ^ 16
       let prc (i : Nat) : Nat := if dim i % 2 ^ 16 = 0 then 1 else dim i / 2 ^ 32 % 2 ^ 10
       let span (i : Nat) : Nat := ((ext i + blk i - 1) / blk i + prc i - 1) / prc i * blk i
       let size := 2 ^ (hdr / 2 ^ 32 % 8)
       let inside := checkRange c ⟨hdr % 2 ^ 32, span 0 * span 1 * span 2 * span 3 * size, size, false, none⟩
       let fields := (∀ i, i < 4 → dim i / 2 ^ 42 = 0 ∧ blk i ≠ 0 ∧ prc i ≠ 0) ∧ hdr / 2 ^ 35 = 0 ∧ hdr / 2 ^ 32 % 8 ≤ 4 ∧
         prc 0 * prc 1 * prc 2 * prc 3 ≤ 1024
       let at' (i : Nat) : Nat := (c.x b).toNat / 2 ^ (16 * i) % 2 ^ 16
       let p (i : Nat) : Nat := at' i / blk i % prc i
       let l (i : Nat) : Nat := at' i / blk i / prc i * blk i + at' i % blk i
       let rank := ((p 0 * prc 1 + p 1) * prc 2 + p 2) * prc 3 + p 3
       let lin := ((l 0 * span 1 + l 1) * span 2 + l 2) * span 3 + l 3
       (∀ e, inside = .error e → exec (.own g d a b) s = s.finish (.error e)) ∧
       (inside = .ok () → ¬fields → exec (.own g d a b) s = s.finish (.error (trapPlain .fmtMismatch))) ∧
       (inside = .ok () → fields → (∃ i, i < 4 ∧ ext i ≤ at' i) →
         exec (.own g d a b) s = .next (s.doneAs (c.setX d 0xFFFFFFFFFFFFFFFF#64))) ∧
       (inside = .ok () → fields → (∀ i, i < 4 → at' i < ext i) →
         exec (.own g d a b) s = .next (s.doneAs (c.setX d (word ((hdr % 2 ^ 32 + lin * size) * 2 ^ 32 + rank))))))) ∧
  (∀ l : List Nat,
     let before (p q : Nat) : Bool := precedes (fp32.decode (p % 2 ^ 32)) (p / 2 ^ 32) (fp32.decode (q % 2 ^ 32)) (q / 2 ^ 32)
     (∀ r, (sortRecords l).count r = l.count r) ∧ ((sortRecords l).Pairwise fun p q => before q p = false) ∧
     ∀ r, (sortRecords l).filter (fun q => !before r q && !before q r) = l.filter fun q => !before r q && !before q r)

/-! ### The matrix unit -/

/-- R295, R300, R304, R305, R307: MMA, MMAS, MMAT, CZERO, CSCL and CADD whose checks pass join the core's queue, which
holds 16 operations: a product with its slots, the partner slot of each scaled operand of MMAS, and the decode table. With 16
taken every one of them stalls, and so it does where the power limit keeps it back (R36).
R294: a preserved tile is not written: BUF_ACCESS (with FADDR 0, the model's reading, log 63).
R308, R309 to R311: CCVT converts the 512 elements of a tile into the slot at TAIL of a ring and pushes it; MDRAIN
completes with an empty queue and stalls otherwise; MQRY reads the queue, field by field (what the task has issued is what has
retired and what is queued); MXCFG sets a weight of 1 to 15. -/
def Obligations.MatrixInstructions : Prop :=
  (∀ (g : Guard) (a b : Fin 16) (t q : Fin 64) (v : Fin 32) (zc : Bool) (s : State),
     let c := s.me
     let kept := c.preservedBytes 2 (2048 * t.val) 2048
     let part (scaled : Bool) (r : Fin 16) : Option (Nat × Nat × Nat) :=
       let p : Fin 16 := Fin.ofNat 16 (r.val + 1)
       if scaled = true ∧ fmtScaled (c.rings[r]).fmt = true then
         some (r.val + 1, (c.rings[p]).slotAt (c.headOf p + c.takenSlots p.val), 2 ^ (c.rings[p]).slog) else none
     let product (scaled tr : Bool) : MxWork := .product tr t.val zc (c.rings[a]).fmt (c.rings[b]).fmt
       (2 ^ (c.rings[a]).slog) (2 ^ (c.rings[b]).slog) ((c.rings[a]).slotAt (c.headOf a + c.takenSlots a.val))
       ((c.rings[b]).slotAt (c.headOf b + c.takenSlots b.val)) a.val b.val (part scaled a) (part scaled b) c.table
     let queued (i : Instr) (work : MxWork) : Prop := s.Runs i →
       (c.mxq.length < 16 → c.throttled = false →
         ∃ u, exec i s = .next u ∧ u.last = .done ∧ u.me.mxq = c.mxq ++ [⟨work, false⟩] ∧ u.me.regs = c.regs ∧
           u.me.loc = c.loc ∧ u.mem = s.mem ∧ ∀ n, n ≠ s.cur → u.core n = s.core n) ∧
       (16 ≤ c.mxq.length → exec i s = s.finish (.error (.stall .mxuFull))) ∧
       (c.mxq.length < 16 → c.throttled = true → exec i s = s.finish (.error (.stall .throttle)))
     (kept = false →
       (c.ProductReady false a b zc → queued (.mma g a b t zc) (product false false)) ∧
       (c.ProductReady true a b zc → queued (.mmas g a b t zc) (product true false)) ∧
       (c.ProductReady false a b zc → queued (.mmat g a b t zc) (product false true)) ∧
       (c.right 2 4 = true → queued (.czero g t) (.czero t.val)) ∧
       (c.right 2 5 = true → c.right 2 4 = true → queued (.cadd g t q) (.cadd t.val q.val)) ∧
       (∀ x c1, c.right 2 5 = true → c.right 2 4 = true → readVs [v] [] c = .ok ([x], c1) → lane x 32 2 < 4 →
         lane x 32 3 = 0 → queued (.cscl g t v)
           (.cscl t.val (lane x 32 0) (lane x 32 1) (lane x 32 2 % 2 == 1) (lane x 32 2 / 2 == 1)))) ∧
     (kept = true → ∀ i ∈ [Instr.mma g a b t zc, .mmas g a b t zc, .mmat g a b t zc, .czero g t, .cadd g t q, .cscl g t v],
       s.Runs i → exec i s = s.finish (.error (trapPlain .bufAccess)))) ∧
  (∀ (g : Guard) (t : Fin 64) (h : Fin 16) (d v : Fin 32) (s : State),
     let c := s.me
     let r := c.rings[h]
     let off := r.base + c.tailOf h % 2 ^ r.clog * 2 ^ r.slog
     let n := 64 * fmtBits r.fmt
     let codes := (List.range 512).map fun e => (encodeElem c.table r.fmt .rne (r.fmt ∈ [5, 6, 9])
       (fp32.decode (bytesToNat (c.loc.readList (locKey 2 (2048 * t.val + 4 * e)) 4)))).1
     (s.Runs (.ccvt g t h) → c.acquiring = false → r.valid = true → r.role ≤ 3 → c.cursorOpen h false = false →
       c.right r.buf 6 = true → r.fmt ∈ [1, 2, 3, 4, 5, 6, 9, 19, 20, 21, 22, 25, 26] → n ≤ 2 ^ r.slog → 1 ≤ c.pushesLeft h →
       c.preservedBytes r.buf off n = false → (∀ o ∈ c.mxq, o.work.writes t.val = false) → c.heldBytes r.buf off n = false →
       exec (.ccvt g t h) s = .next (s.doneAs
         ({ c with loc := c.loc.writeNat (locKey r.buf off) n (packCodes (fmtBits r.fmt) codes) }.pushSlots h 1))) ∧
     (s.Runs (.mdrain g) → c.mxq = [] → exec (.mdrain g) s = .next (s.doneAs c)) ∧
     (s.Runs (.mdrain g) → c.mxq ≠ [] → exec (.mdrain g) s = s.finish (.error (.stall .mxuHeld))) ∧
     (∀ c2, s.Runs (.mqry g d) → writeV d (queueWord c) c = .ok c2 → exec (.mqry g d) s = .next (s.doneAs c2)) ∧
     (∀ x c1, s.Runs (.mxcfg g v) → readVs [v] [] c = .ok ([x], c1) →
       (1 ≤ x.toNat → x.toNat ≤ 15 → exec (.mxcfg g v) s = .next (s.doneAs { c1 with weight := x.toNat })) ∧
       (x.toNat = 0 ∨ 16 ≤ x.toNat → exec (.mxcfg g v) s = s.finish (.error (trapPlain .fmtMismatch)))) ∧
     (let n := (queueWord c).toNat
      c.weight < 16 → c.mxq.length ≤ 16 →
       n / 2 ^ 64 = (c.mxRetired + c.mxq.length) % 2 ^ 64 ∧ n / 2 ^ 32 % 2 ^ 32 = c.mxRetired % 2 ^ 32 ∧
       n / 2 ^ 16 % 2 ^ 16 = 0 ∧ n / 2 ^ 12 % 2 ^ 4 = c.weight ∧ n / 2 ^ 5 % 2 ^ 7 = 0 ∧ n % 2 ^ 5 = c.mxq.length))

/-! ### Messages, engine commands and system instructions -/

/-- R266, R270, R271, R273: SEND, SENDV, REPLY and DEC buffer a message until the task ends, addressed by the target word
(REPLY by the trigger), with the payload the descriptor, the v register or the count and offset give.
R98, R99, R275, R276: SPAWN takes a credit and buffers a message that carries the handler and two v registers, kd set;
with no credit left it only clears kd. MSGRD reads the payload or the header of the trigger. -/
def Obligations.Sending : Prop :=
  (∀ (g : Guard) (a b : Fin 32) (t : Task) (s : State),
     let c := s.me
     let w := (c.x a).toNat
     let v := (c.x b).toNat
     let len := v / 2 ^ 32 % 2 ^ 9
     let la := v % 2 ^ 32
     let payload := c.loc.readList (laPlace la) len
     let toTarget (m : Msg) : Prop := m.dest = w % 2 ^ 15 ∧ m.dpkg = w / 2 ^ 48 ∧ (m.remote = true ↔ w / 2 ^ 47 % 2 = 1)
     c.task = some t → TargetWord w → c.seqReady = true →
     (s.Runs (.send g a b) → w / 2 ^ 18 % 2 ^ 15 = 0 → v / 2 ^ 41 = 0 → len ≤ 256 → c.CanSend la len →
       c.bufferRoom len = true →
       ∃ u m, exec (.send g a b) s = .next u ∧ s.Buffers u c m ∧ u.me.regs = c.regs ∧ m.kind = 0 ∧ toTarget m ∧
         m.chan = w / 2 ^ 36 % 16 ∧ m.ford = w / 2 ^ 40 % 16 ∧ m.scope = w / 2 ^ 44 % 8 ∧ m.payload = payload) ∧
     (∀ x c1, s.Runs (.sendv g a b) → w / 2 ^ 18 % 2 ^ 15 = 0 → readVs [b] [] c = .ok ([x], c1) → c.bufferRoom 16 = true →
       ∃ u m, exec (.sendv g a b) s = .next u ∧ s.Buffers u c1 m ∧ u.me.regs = c.regs ∧ m.kind = 0 ∧ toTarget m ∧
         m.chan = w / 2 ^ 36 % 16 ∧ m.ford = w / 2 ^ 40 % 16 ∧ m.scope = w / 2 ^ 44 % 8 ∧
         m.payload = natToBytes 16 x.toNat) ∧
     (s.Runs (.reply g a b) → w / 2 ^ 18 % 2 ^ 15 = 0 → w / 2 ^ 47 = 0 → w % 2 ^ 15 = 0 → v / 2 ^ 41 = 0 → len ≤ 256 →
       c.CanSend la len → c.bufferRoom len = true →
       ∃ u m, exec (.reply g a b) s = .next u ∧ s.Buffers u c m ∧ u.me.regs = c.regs ∧ m.kind = 1 ∧
         m.dest = t.msg.src ∧ m.dpkg = t.msg.dpkg ∧ m.remote = t.msg.remote ∧
         m.chan = w / 2 ^ 36 % 16 ∧ m.ford = w / 2 ^ 40 % 16 ∧ m.scope = w / 2 ^ 44 % 8 ∧ m.payload = payload) ∧
     (s.Runs (.dec g a b) → w / 2 ^ 36 % 2 ^ 8 = 0 → v ≠ 0 → v < 2 ^ 32 → 0x800 ≤ w / 2 ^ 18 % 2 ^ 15 * 8 →
       w / 2 ^ 18 % 2 ^ 15 * 8 ≤ 0x2FFF8 → c.bufferRoom 8 = true →
       ∃ u m, exec (.dec g a b) s = .next u ∧ s.Buffers u c m ∧ u.me.regs = c.regs ∧ m.kind = 3 ∧ toTarget m ∧
         m.scope = w / 2 ^ 44 % 8 ∧ m.payload = natToBytes 4 v ++ natToBytes 4 (w / 2 ^ 18 % 2 ^ 15 * 8))) ∧
  (∀ (g : Guard) (k : Fin 8) (a b d : Fin 32) (v : Fin 16) (t : Task) (s : State),
     let c := s.me
     let h := (c.x a).toNat
     let w := (c.x b).toNat
     let lo := Word.pairLow v
     let hi := Word.pairHigh v
     let o := (c.x b).toNat
     c.task = some t →
     (s.Runs (.spawn g k a b v) → (c.jobattr = true → t.path.toNat / 2 ^ 60 < 12 ∧ t.spawns ≤ 15) → h / 2 ^ 52 = 0 →
       h % 8 = 0 → TargetWord w → w / 2 ^ 47 = 0 → w / 2 ^ 40 % 16 = 0 → w / 2 ^ 18 % 2 ^ 15 = 0 →
       c.binding lo = none → c.binding hi = none →
       let counted := c.modTask fun t => { t with spawns := t.spawns + 1 }
       (c.spcred = 0 → exec (.spawn g k a b v) s = .next (s.doneAs (counted.setK k false))) ∧
       (c.spcred ≠ 0 → c.seqReady = true → c.bufferRoom 40 = true →
         ∃ u m, exec (.spawn g k a b v) s = .next u ∧ s.Buffers u c m ∧ u.me.regs = (c.setK k true).regs ∧
           u.me.spcred = c.spcred - 1 ∧ m.kind = 2 ∧ m.credit = true ∧ m.chan = w / 2 ^ 36 % 16 ∧
           m.scope = w / 2 ^ 44 % 8 ∧ m.path = childPath t.path t.spawns ∧
           m.dest = (if c.jobattr then s.reproTarget c m.path else w % 2 ^ 15) ∧
           m.payload = natToBytes 8 h ++ natToBytes 16 (c.old.v[lo]).toNat ++ natToBytes 16 (c.old.v[hi]).toNat)) ∧
     (s.Runs (.msgrd g d b) → o % 8 = 0 →
       (o < 256 → exec (.msgrd g d b) s =
         .next (s.doneAs (c.setX d (word (bytesToNat ((t.msg.payload.drop o).take 8)))))) ∧
       (o = 256 → exec (.msgrd g d b) s = .next (s.doneAs (c.setX d (word t.msg.headerLow)))) ∧
       (o = 264 → exec (.msgrd g d b) s = .next (s.doneAs (c.setX d (word t.msg.headerHigh))))) ∧
     (s.Runs (.msgrd g d b) → 264 < o → exec (.msgrd g d b) s = s.finish (.error (trapPlain .bufBounds))) ∧
     (s.Runs (.msgrd g d b) → o < 264 → o % 8 ≠ 0 → exec (.msgrd g d b) s = s.finish (.error (trapPlain .align))))

/-- R156, R277, R278: an engine command whose engine word is well formed and whose record lies aligned in A or W goes to
its engine with a copy of the record and of the decode table, and xd receives its message id. -/
def Obligations.EngineCommands : Prop :=
  ∀ (g : Guard) (d a b : Fin 32) (s : State),
    let c := s.me
    let w := (c.x a).toNat
    let la := (c.x b).toNat
    c.seqReady = true → c.outstanding < 256 → c.acquiring = false → la < 0x100000000 → la / 0x40000 % 0x1000 = 0 →
    laBuf la ≤ 1 → la % 16 = 0 → w / 0x10000 = 0 → w / 0x2000 ≤ 4 →
    ∀ p : Instr × Nat × Nat, p ∈ [(.cpy g d a b, 1, 32), (.cpys g d a b, 2, 176), (.efq g d a b, 3, 48),
      (.coll g d a b, 4, 64), (.gmask g d a b, 5, 32), (.gstep g d a b, 6, 32)] →
      s.Runs p.1 → laOff la + p.2.2 ≤ 0x30000 →
      (p.2.1 ≤ 2 → if w / 128 % 2 = 1 then w / 4 % 32 < 8 ∧ w % 4 < 2 else w / 4 % 32 < 24) →
      (3 ≤ p.2.1 → w % 256 = 0) →
      ∃ u m, exec p.1 s = .next u ∧ u.last = .done ∧ u.me.cmds = c.cmds ++ [m] ∧ m.stage = .issued ∧ m.eop = p.2.1 ∧
        m.payload = c.loc.readList (laPlace la) p.2.2 ∧ m.table = c.table ∧ m.engine = w % 256 ∧ m.rch = w / 256 % 16 ∧
        (m.rcen = true ↔ w / 0x1000 % 2 = 1) ∧ m.scope = w / 0x2000 ∧ m.seq = c.seqctr ∧
        u.me.seqctr = (c.seqctr + 1) % 0x1000000 ∧ u.me.regs = (c.setX d (word (s.cur * 0x1000000 + c.seqctr))).regs ∧
        u.me.loc = c.loc ∧ u.mem = s.mem ∧ u.net = s.net ∧ ∀ n, n ≠ s.cur → u.core n = s.core n

/-- R1, R17, R26, R29 to R32, R51, R91, R98, R99, R125, R156, R157, R179, R180, R288, R342, R365, R384: CSRR reads a control
register, as it stood before the bundle, into xd; the values of the registers are those of the table.
R79 to R84, R126, R180, R288: CSRW writes the fields a register lets be written: a channel register, which the task reads back
and which comes into force at the next choice of task; FSTAT, FCAUSE and TSTAT by clearing; RETIRE; BUFACL. A reserved slot
count or Till raises BUF_BOUNDS; a read-only register stays as it is.
Log 15 (DEDUCED): QLEN without the running message, TSTAT one register of the package, MAPGEN the sum of two counts. Log 62
(DESIGN CHOICE): MSGID reads 0 with no task. -/
def Obligations.ControlRegisters : Prop :=
  (∀ (g : Guard) (d : Fin 32) (num : Fin 1024) (n : Fin 16) (s : State),
     let c := s.me
     let ch := c.chans[n]
     (s.Runs (.csrr g d num) → exec (.csrr g d num) s = .next (s.doneAs (c.setX d (s.csrRead s.cur num.val)))) ∧
     (∀ p : Nat × Word, p ∈ [(0x000, 0x550A2410#64), (0x001, word s.cur),
         (0x002, word (s.cur / 1024 * 2 ^ 10 + s.cur / 32 % 32 * 2 ^ 5 + s.cur % 32)),
         (0x003, c.mapgen + (s.die (dieOf s.cur)).mapgen), (0x004, if c.jobattr then 1 else 0), (0x008, c.cycles),
         (0x009, word s.iod.ptime), (0x00A, word (s.iod.sync.toNat * 2 + s.iod.step.toNat)),
         (0x010, c.fstat.setWidth 64), (0x011, c.taskCount.setWidth 64), (0x012, word c.msgId),
         (0x015, word c.spcred), (0x018, word c.outstanding), (0x019, c.ackcfg.setWidth 64), (0x01A, c.acl.setWidth 64),
         (0x020, c.old.lb[0]), (0x021, c.old.le[0]), (0x022, c.old.lc[0]), (0x023, c.old.lb[1]), (0x024, c.old.le[1]),
         (0x025, c.old.lc[1]), (0x200, c.dbg.dbgctl), (0x202, c.dbg.bp0), (0x203, c.dbg.bp1), (0x208, c.dbg.trcctl),
         (0x209, c.dbg.trcbase), (0x20A, c.dbg.trcwr), (0x20B, word c.dbg.trcdrop), (0x210, c.dbg.evsel),
         (0x211, c.dbg.evcnt), (0x218, c.dbg.slctl), (0x219, c.dbg.slbase), (0x21A, c.dbg.slwr), (0x220, c.dbg.drptime),
         (0x221, c.dbg.drpaddr), (0x240, c.fault.fcause), (0x241, c.fault.fmsg), (0x242, c.fault.fpc),
         (0x243, c.fault.fstop), (0x244, c.fault.faddr), (0x245, c.fault.fseq), (0x246, word c.fault.fcount),
         (0x247, word (s.sp.rr.toNat * 2 ^ 63 + (s.die (dieOf s.cur)).csUsed.length % 256 * 2 ^ 8 +
           s.sp.spares.length % 4))] → s.csrRead s.cur p.1 = p.2) ∧
     (c.dbg.cause < 8 → (s.csrRead s.cur 0x201).toNat = c.dbg.halted.toNat * 2 ^ 63 + c.dbg.cause * 2 ^ 60 +
       (if c.dbg.halted = true ∧ c.late ≠ [] then 2 ^ 59 else 0) + c.dbg.next.toNat / 8 % 2 ^ 49 * 8) ∧
     (∀ p : Nat × Word, p ∈ [(0x100, ch.hnd), (0x110, ch.ctl), (0x120, ch.cond), (0x130, ch.till)] →
       (c.written.find (p.1 + n.val) = none → s.csrRead s.cur (p.1 + n.val) = p.2) ∧
       ∀ v, c.written.find (p.1 + n.val) = some v → s.csrRead s.cur (p.1 + n.val) = v) ∧
     (∀ t, c.task = some t → s.csrRead s.cur 0x013 = word t.left ∧ s.csrRead s.cur 0x016 = t.path ∧
       s.csrRead s.cur 0x014 = word (t.retire.toNat * 2 + t.spawned.toNat)) ∧
     (c.written.find (0x140 + n.val) = none → s.csrRead s.cur (0x140 + n.val) =
       word (ch.wait % 2 ^ 32 * 2 ^ 32 + ch.jnext % 16 * 2 ^ 16 +
         min 7 (ch.ctl.toNat / 2 ^ 24 % 8 + ch.wait / 65536) * 2 ^ 8 + min 32 ch.queue.length))) ∧
  (∀ (g : Guard) (d : Fin 32) (num : Fin 1024) (n : Fin 16) (s : State),
     let c := s.me
     let w := c.x d
     let chan (v : Word) : Core := { c with written := c.written.put num.val v }
     s.Runs (.csrw g d num) →
     (num.val = 0x100 + n.val → exec (.csrw g d num) s = .next (s.doneAs (chan (w &&& 0x000FFFFFFFFFFFF8#64)))) ∧
     (num.val = 0x110 + n.val → exec (.csrw g d num) s = .next (s.doneAs (chan
       ((w &&& 0xFFFFFFFFE7007FFF#64) ||| (if n = 15 then 0x07000000#64 else 0) |||
         (if c.jobattr then s.csrRead s.cur num.val &&& 0x40000000#64 else 0))))) ∧
     (num.val = 0x120 + n.val →
       (w.toNat % 2 ^ 9 ≤ 256 → w.toNat / 2 ^ 15 % 2 ^ 9 ≤ 256 →
         exec (.csrw g d num) s = .next (s.doneAs (chan (w &&& 0x3FFFFFFF#64)))) ∧
       (256 < w.toNat % 2 ^ 9 ∨ 256 < w.toNat / 2 ^ 15 % 2 ^ 9 →
         exec (.csrw g d num) s = s.finish (.error (trapPlain .bufBounds)))) ∧
     (num.val = 0x130 + n.val →
       let off := w.toNat / 2 ^ 4 % 2 ^ 14 * 16
       (w.toNat / 2 ^ 31 % 2 = 0 ∨ (0x800 ≤ off ∧ off < 0x30000) →
         exec (.csrw g d num) s = .next (s.doneAs (chan (w &&& 0xFFFFFFFF8003FFF0#64)))) ∧
       (w.toNat / 2 ^ 31 % 2 = 1 → off < 0x800 ∨ 0x30000 ≤ off →
         exec (.csrw g d num) s = s.finish (.error (trapPlain .bufBounds)))) ∧
     (num.val = 0x00A → exec (.csrw g d num) s = .next { s with
       iod := { s.iod with step := s.iod.step && decide (w.toNat % 2 = 0) }, last := .done }) ∧
     (num.val = 0x010 → exec (.csrw g d num) s =
       .next (s.doneAs { c with fstat := c.fstat &&& ~~~ (w.setWidth 6) })) ∧
     (num.val = 0x014 → exec (.csrw g d num) s =
       .next (s.doneAs (c.modTask fun t => { t with retire := decide (w.toNat / 2 % 2 = 1) }))) ∧
     (num.val = 0x01A → exec (.csrw g d num) s =
       .next (s.doneAs { c with bufacl := (w.setWidth 24 &&& 0xFFEFEF#24) ||| 0x808080#24 })) ∧
     (num.val = 0x240 → exec (.csrw g d num) s = .next (s.doneAs { c with
       fault := { c.fault with fcause := c.fault.fcause &&& ~~~ (w &&& 0xC000000000000000#64) } })) ∧
     (num.val ∈ [0x000, 0x001, 0x002, 0x003, 0x004, 0x008, 0x009, 0x011, 0x012, 0x013, 0x015, 0x016, 0x018, 0x019,
         0x140 + n.val, 0x200, 0x201, 0x202, 0x203, 0x208, 0x209, 0x20A, 0x20B, 0x210, 0x211, 0x218, 0x219, 0x21A, 0x220,
         0x221, 0x241, 0x242, 0x243, 0x244, 0x245, 0x246, 0x247] →
       exec (.csrw g d num) s = .next s.doneSame))

/-- R97, R289 to R292, R342, R343: TRAP takes the trap TRAP with FADDR xa; HBT sends a heartbeat to the die's monitor; BRK
stops the core after its bundle where the debug module is enabled and else does nothing; TRC adds a trace record of
type 1. That the monitor's count of a core's empty intervals is one number, 0 after a heartbeat, is the model's form
(log 46).
R388 to R390: what becomes of a record of the trace, by its type's bit of TRCCTL: it enters the queue of 16, behind the overflow record
of those lost before it where there are any, which stands alone where only one finds room; with the queue or, without WRAP, the ring
full it is dropped and counted. -/
def Obligations.SystemInstructions : Prop :=
  ∀ (g : Guard) (a : Fin 32) (t : Task) (s : State),
    let c := s.me
    (s.Runs (.trap g a) → c.task = some t → t.chan < 15 → c.fault.fcause.toNat < 2 ^ 63 →
      ∃ u, exec (.trap g a) s = .next u ∧ u.me.task = none ∧ u.me.fault.fcause.toNat / 2 ^ 32 % 2 ^ 8 = 0x0F ∧
        u.me.fault.faddr = c.x a ∧ u.me.fault.fpc = c.pc &&& 0x000FFFFFFFFFFFF8#64 ∧ u.me.fault.fstop = u.me.fault.fpc) ∧
    (s.Runs (.hbt g) → ∃ u, exec (.hbt g) s = .next u ∧ u.last = .done ∧ (u.die (dieOf s.cur)).beats.find s.cur = some 0 ∧
      (u.die (dieOf s.cur)).heard.find s.cur = some (c.taskCount.setWidth 64, c.pc) ∧ (∀ n, u.core n = s.core n) ∧ u.mem = s.mem) ∧
    (s.Runs (.brk g) → exec (.brk g) s =
      .next (s.doneAs (if c.dbg.dbgctl.toNat % 2 = 1 then { c with brkSeen := true } else c))) ∧
    (s.Runs (.trc g a) → exec (.trc g a) s = .next (s.doneAs (c.trace 1 c.pc (c.x a)))) ∧
    ∀ ty bit ad va, (ty, bit) ∈ [((1 : Nat), (1 : Nat)), (2, 2), (3, 3), (4, 3), (5, 4)] →
      let d := c.dbg
      let r : TraceRec := ⟨c.cycles, ty, ad, va, c.taskCount.toNat⟩
      let lost : TraceRec := ⟨c.cycles, 6, 0, word d.trcLost, c.taskCount.toNat⟩
      let fits (n : Nat) : Prop := d.trcctl.toNat / 2 ^ 5 % 2 = 1 ∨ d.trcIssued + n ≤ 2 ^ (12 + d.trcbase.toNat % 16) / 32
      let on := d.trcctl.toNat % 2 = 1 ∧ d.trcctl.toNat / 2 ^ bit % 2 = 1
      let dropped := min 0xFFFFFFFF (d.trcdrop + 1)
      (¬on → c.trace ty ad va = c) ∧
      (on → ¬fits 1 → c.trace ty ad va = { c with dbg := { d with trcdrop := dropped } }) ∧
      (on → fits 1 → 16 ≤ d.trcQ.length →
        c.trace ty ad va = { c with dbg := { d with trcdrop := dropped, trcLost := d.trcLost + 1 } }) ∧
      (on → fits 1 → d.trcQ.length < 16 → d.trcLost = 0 →
        c.trace ty ad va = { c with dbg := { d with trcQ := d.trcQ ++ [r], trcIssued := d.trcIssued + 1 } }) ∧
      (on → fits 2 → d.trcQ.length < 15 → d.trcLost ≠ 0 →
        c.trace ty ad va = { c with dbg := { d with trcQ := d.trcQ ++ [lost, r], trcIssued := d.trcIssued + 2, trcLost := 0 } }) ∧
      (on → fits 1 → d.trcQ.length < 16 → d.trcLost ≠ 0 → ¬(fits 2 ∧ d.trcQ.length < 15) →
        c.trace ty ad va = { c with dbg := { d with
          trcQ := d.trcQ ++ [lost], trcIssued := d.trcIssued + 1, trcdrop := dropped, trcLost := 1 } })

/-- R293, R349, R350: CDO pushes a domain and enrols the task in the current instance of its gang, with its trigger among
the roots unless it carries the instance's mark, and with the root's header and payload written to the job's save area, at a
place that no rule gives (log 22); CDC pops the top domain, releases its preserved ranges and with SEAL
closes the instance, the one the popped entry names (log 102, DESIGN CHOICE). Another id than the top one, a fifth domain or one
already open raises PROT_FAULT.
R294: CDP of a local range in a buffer of this core, in whole 16-byte words, preserves it; of a global range it issues
a request that takes a sequence number. Up to 8 ranges are preserved. -/
def Obligations.Containment : Prop :=
  (∀ (g : Guard) (a : Fin 32) (t : Task) (x : Gang) (j gn : Nat) (s : State),
     let c := s.me
     let w := (c.x a).toNat
     let id := w % 2 ^ 12
     c.task = some t → c.gang = some (j, gn) → s.gang j gn = some x → id ≠ 0 →
     (s.Runs (.cdo g a) → w < 2 ^ 12 →
       (t.domains.length < 4 → (∀ p ∈ t.domains, p.1 ≠ id) → (∀ i, x.current id = some i → i.roots.length < 64) →
         ∃ u y inst i, exec (.cdo g a) s = .next u ∧ u.last = .done ∧
           u.me.task.map (·.domains) = some ((id, inst) :: t.domains) ∧ u.me.regs = c.regs ∧ u.me.loc = c.loc ∧
           u.gang j gn = some y ∧ y.inst id inst = some i ∧ i.isSealed = false ∧
           (⟨j, gn, id, inst⟩ ∈ t.msg.marks ∨ s.job j = none → u.mem = s.mem) ∧
           (∀ b, ⟨j, gn, id, inst⟩ ∉ t.msg.marks → (∀ k, x.current id = some k → ∀ r ∈ k.roots, r.1 ≠ s.cur ∨
               r.2.src ≠ t.msg.src ∨ r.2.seq ≠ t.msg.seq) → s.job j = some b →
             let area := b.launch.ng * b.launch.size * 589824
             let bytes := natToBytes 8 t.msg.headerLow ++ natToBytes 8 t.msg.headerHigh ++ t.msg.payload
             bytes.length < area → ∃ at0, b.launch.save ≤ at0 ∧ at0 + bytes.length ≤ b.launch.save + area ∧
               u.mem = s.mem.writeList at0 bytes) ∧
           (∀ k, x.current id = some k → inst = k.inst) ∧
           ⟨s.cur, t.serial, true⟩ ∈ i.members ∧ (⟨j, gn, id, inst⟩ ∈ t.msg.marks ∨
             ∃ r ∈ i.roots, r.1 = s.cur ∧ r.2.src = t.msg.src ∧ r.2.seq = t.msg.seq)) ∧
       (4 ≤ t.domains.length ∨ (∃ p ∈ t.domains, p.1 = id) →
         exec (.cdo g a) s = s.finish (.error (trapPlain .protFault)))) ∧
     (s.Runs (.cdc g a) → w < 2 ^ 13 →
       (∀ inst rest, t.domains = (id, inst) :: rest →
         ∃ u y, exec (.cdc g a) s = .next u ∧ u.last = .done ∧ u.me.task.map (·.domains) = some rest ∧
           u.me.task.map (·.preserved) = some (t.preserved.filter fun p => p.depth ≠ t.domains.length) ∧
           u.me.regs = c.regs ∧ u.me.loc = c.loc ∧ u.mem = s.mem ∧ u.gang j gn = some y ∧
           (2 ^ 12 ≤ w → ∀ i ∈ y.insts, i.dom = id → i.inst = inst → i.isSealed = true)) ∧
       ((∀ inst rest, t.domains ≠ (id, inst) :: rest) →
         exec (.cdc g a) s = s.finish (.error (trapPlain .protFault))))) ∧
  (∀ (g : Guard) (a b : Fin 32) (t : Task) (s : State),
     let c := s.me
     let p := (c.x a).toNat
     let len := (c.x b).toNat
     let la := p % 2 ^ 32
     s.Runs (.cdp g a b) → c.task = some t → 1 ≤ len → len ≤ 2 ^ 40 →
     (p / 2 ^ 52 % 4 = 1 → p / 2 ^ 47 % 2 ^ 5 = 0 → p / 2 ^ 32 % 2 ^ 15 = s.cur → laBuf la ≠ 3 → la / 2 ^ 18 % 2 ^ 12 = 0 →
       laOff la + len ≤ (if laBuf la = 2 then 0x20000 else 0x30000) → laOff la % 16 = 0 → len % 16 = 0 →
       (t.preserved.length < 8 → exec (.cdp g a b) s = .next (s.doneAs (c.modTask fun t =>
         { t with preserved := t.preserved ++ [⟨laBuf la, laOff la, len, t.domains.length⟩] }))) ∧
       (8 ≤ t.preserved.length → exec (.cdp g a b) s = s.finish (.error (trapPlain .protFault)))) ∧
     (p / 2 ^ 52 % 4 = 0 → fmtAssigned (p / 2 ^ 58) = true → p / 2 ^ 54 % 16 = fmtBlg (p / 2 ^ 58) → c.outstanding < 256 →
       c.seqReady = true → ∃ u, exec (.cdp g a b) s = .next u ∧
         s.Issued u (c.x a) (.preserve len) none false false 0))

/-! ### Traps, guards and frames -/

/-- R84, R88, R97, R164, R267, R340 to R345: what a trap raised at issue leaves. The task is gone with nothing it buffered
sent, its trigger stands at the head of its queue with EN clear and JNEXT of a JOIN channel back by one, a channel register it
wrote is in force, FPC and FSTOP name the bundle, EXACT is set, memory and buffers are unchanged, and channel 15 of the core is
sent a FAULT status with the core's next number, which waits where the number may not be used yet; a second fault sets OVF and
keeps the record.
R164, R225: before any trap, an encoded instruction with a false guard does nothing; one whose guard holds and that names a pending
register stalls, with no effect but the record of the stall. That the guard is looked at before the registers it names is the
model's choice (log 77). -/
def Obligations.TakingATrap : Prop :=
  (∀ (i : Instr) (s : State), i.slot ≠ none →
    (s.me.guardHolds i.guard = false → exec i s = .next s.doneSame) ∧
    (s.me.guardHolds i.guard = true → (∃ r ∈ i.sources ++ i.dests, r ∈ s.me.pendingRegs) →
      exec i s = .next { s.setCore s.cur { s.me with stalled := some .pending } with last := .stalled .pending })) ∧
  ∀ (e : Trap) (t : Task) (s : State),
    let c := s.me
    let n : Fin 16 := Fin.ofNat 16 t.chan
    let text (m : Msg) : Prop := m.kind = 5 ∧ m.dest = s.cur ∧ m.chan = 15 ∧
      m.payload = natToBytes 8 (0x06 * 2 ^ 40 + (t.msg.src * 2 ^ 24 + t.msg.seq)) ++
        natToBytes 8 (e.code * 2 ^ 56 + 2 ^ 54 + e.addr.toNat % 2 ^ 52)
    c.task = some t → e.detected = false → t.chan < 15 → e.code < 256 → e.kind < 8 → e.level < 8 → e.svc < 4 → e.cause < 4 →
    ∃ u, s.finish (.error (.trap e)) = .next u ∧ u.last = .trapped e ∧ u.me.task = none ∧
      (u.me.chans[n]).queue = t.msg :: (c.chans[n]).queue ∧
      (c.written = [] → (u.me.chans[n]).ctl = (c.chans[n]).ctl &&& ~~~ 0x80000000#64 ∧ ∀ k, k ≠ n → u.me.chans[k] = c.chans[k]) ∧
      (∀ w, c.written = [(0x110 + t.chan, w)] → (u.me.chans[n]).ctl = w &&& ~~~ 0x80000000#64) ∧
      (u.me.chans[n]).jnext = (if (c.chans[n]).ctl.toNat / 2 ^ 29 % 2 = 1 then ((c.chans[n]).jnext + 15) % 16
        else (c.chans[n]).jnext) ∧
      u.mem = s.mem ∧ u.me.loc = c.loc ∧ u.me.regs = c.regs ∧
      u.me.pc = c.pc ∧ u.me.fstat = c.fstat ∧ (∀ k, k ≠ s.cur → u.core k = s.core k) ∧
      (c.posts = [] → c.seqReady = true → ∃ m, u.net.msgs = s.net.msgs ++ [m] ∧ text m ∧ m.seq = c.seqctr) ∧
      (c.posts ≠ [] ∨ c.seqReady = false → u.net = s.net ∧ ∃ m, u.me.posts = c.posts ++ [(false, m)] ∧ text m) ∧
      (c.fault.fcause.toNat < 2 ^ 63 → u.me.fault.fcause.toNat = 2 ^ 63 + c.fault.fcause.toNat / 2 ^ 62 * 2 ^ 62 +
          e.code * 2 ^ 32 + 2 ^ 30 + e.kind * 2 ^ 27 + e.level * 2 ^ 24 + e.svc * 2 ^ 22 + e.cause * 2 ^ 20 ∧
        u.me.fault.fpc = c.pc &&& 0x000FFFFFFFFFFFF8#64 ∧ u.me.fault.fstop = u.me.fault.fpc ∧
        u.me.fault.faddr = e.addr ∧ u.me.fault.fseq = 0) ∧
      (2 ^ 63 ≤ c.fault.fcause.toNat → u.me.fault = { c.fault with
        fcause := c.fault.fcause ||| 0x4000000000000000#64, fcount := u.me.fault.fcount }) ∧
      u.me.fault.fcount = (if c.fault.fcount = 0xFFFFFFFF then c.fault.fcount else c.fault.fcount + 1)

/-- R202 to R212, R221, R288, R276: the frame of the instructions that write one x register. All of memory, every other
core, and everything of this core but xd are unchanged.
R205, R206, R181: the frame of the instructions that write one predicate. -/
def Obligations.RegisterFrames : Prop :=
  (∀ (g : Guard) (d a b : Fin 32) (cw : Fin 256) (w : Fin 4) (k : Fin 8) (num : Fin 1024) (s t : State),
     ∀ i ∈ [Instr.add g d a b, .sub g d a b, .mul g d a b, .mulh g d a b, .mulhu g d a b, .div g d a b, .divu g d a b,
       .rem g d a b, .remu g d a b, .shl g d a b, .shr g d a b, .sra g d a b, .ror g d a b, .and g d a b, .or g d a b,
       .xor g d a b, .andn g d a b, .min g d a b, .max g d a b, .minu g d a b, .maxu g d a b, .extu g d a b,
       .exts g d a b, .ins g d a b, .clz g d a, .ctz g d a, .popc g d a, .brev g d a, .bswap g d a, .ldc g d cw,
       .pfmt g d a, .sfmt g d a b, .lea g d a b, .adda g d a b, .addCw g d a cw, .andCw g d a cw, .orCw g d a cw,
       .xorCw g d a cw, .mulCw g d a cw, .shlCw g d a cw, .shrCw g d a cw, .sraCw g d a cw, .extuCw g d a cw,
       .extsCw g d a cw, .insCw g d a cw, .leaCw g d a cw, .addaCw g d a cw, .sfmtCw g d a cw, .pmovx g d k,
       .ldN g d a b w, .ldI g d a b w, .ldCw g d a cw w, .tgen g d a, .barq g d k, .csrr g d num, .msgrd g d b,
       .own g d a b],
       exec i s = .next t → t.last = .done →
         s.SameButRegs t ∧ (∀ r : Fin 32, r ≠ d → t.me.regs.x[r] = s.me.regs.x[r]) ∧
         t.me.regs = { s.me.regs with x := t.me.regs.x } ∧ (d = 0 → t.me.regs = s.me.regs)) ∧
  (∀ (g : Guard) (d p q : Fin 8) (a b : Fin 32) (cw : Fin 256) (s t : State),
     ∀ i ∈ [Instr.cmpeq g d a b, .cmpne g d a b, .cmplt g d a b, .cmpge g d a b, .cmpltu g d a b, .cmpgeu g d a b,
       .cmpeqCw g d a cw, .cmpneCw g d a cw, .cmpltCw g d a cw, .cmpltuCw g d a cw, .pand g d p q, .por g d p q,
       .pxor g d p q, .pandn g d p q],
       exec i s = .next t → t.last = .done →
         s.SameButRegs t ∧ (∀ r : Fin 8, r ≠ d → t.me.regs.k[r] = s.me.regs.k[r]) ∧
         t.me.regs = { s.me.regs with k := t.me.regs.k } ∧ (d = 0 → t.me.regs = s.me.regs))

/-- R106, R221: the frame of the local stores. All registers are unchanged (a store to a v register's window aside, they
store nothing else), and so is every byte outside the `n` bytes at the effective address, all of HBM, and every other
core. -/
def Obligations.StoreFrame : Prop :=
  ∀ (g : Guard) (d a b : Fin 32) (cw : Fin 256) (w : Fin 4) (s t : State),
    let c := s.me
    c.loc.wf = true →
    (∀ p : Instr × Nat × Nat,
      p ∈ [(.st g d a b w, eaOf (c.x a) (c.x b), 2 ^ w.val), (.stCw g d a cw w, eaOf (c.x a) (c.cwN cw.val), 2 ^ w.val),
        (.vst g d a b, eaOf (c.x a) (c.x b), 16)] →
      exec p.1 s = .next t → t.last = .done →
        t.me.regs = c.regs ∧ t.me.fstat = c.fstat ∧ t.me.rings = c.rings ∧ t.me.chans = c.chans ∧ t.me.fault = c.fault ∧
        t.me.reqs = c.reqs ∧ t.mem = s.mem ∧ (∀ n, n ≠ s.cur → t.core n = s.core n) ∧
        (∀ k, k < laPlace p.2.1 ∨ laPlace p.2.1 + p.2.2 ≤ k → t.me.loc.read k = c.loc.read k) ∧
        ((∃ t0, c.task = some t0 ∧ t0.binds ≠ []) ∨ t.me.task = c.task)) ∧
    (∀ (e : Fin 4) (o v : Vec) (c1 : Core), exec (.vstx g d a b e) s = .next t → t.last = .done →
      readVs [b, d] [] c = .ok ([o, v], c1) →
      let n := 2 ^ e.val
      t.me.regs = c.regs ∧ t.mem = s.mem ∧ (∀ m, m ≠ s.cur → t.core m = s.core m) ∧
        ∀ k, (∀ i, i < 16 / n → let la := eaOf (c.x a) (word (lane o (8 * n) i))
          k < laPlace la ∨ laPlace la + n ≤ k) → t.me.loc.read k = c.loc.read k)

/-! ### Events of cores and tasks -/

/-- R78, R79, R84, R88, R89 to R93, R95, R96, R98, R107, R114, R354, R385: the scheduler's choice is a ready channel, 15 before the
others and else, of those of the highest effective priority, the first in the order LAST + 1, LAST + 2, ... modulo 16 that leaves
15 out, and there is none only where no channel is ready; EPRIO is PRIO and the aging of WAIT; a dispatch takes the message from its
queue, in ordinal order on a JOIN channel, whose JNEXT moves on, becomes LAST below channel 15, and gives a SPAWN's credit back to the
core that sent it; the dispatch starts a task with zeroed registers at its handler with
its whole budget, but an idle core whose halt is requested halts; a task that has executed END ends, its ring moves in force,
the channel registers it wrote in force and its messages released; a task without budget left traps. That cycles pass in the
amounts the agenda names is the model's choice (log 5), and the monitor's number its form (log 46). -/
def Obligations.TaskEvents : Prop :=
  (∀ (c : Core) (n : Fin 16), c.choose = some n → c.ready n = true ∧
    (n ≠ 15 → c.ready 15 = false ∧ ∀ k, c.ready k = true → (c.chans[k]).eprio ≤ (c.chans[n]).eprio ∧
      (c.lastChan < 16 → (c.chans[k]).eprio = (c.chans[n]).eprio →
        (n.val + 31 - c.lastChan) % 16 ≤ (k.val + 31 - c.lastChan) % 16))) ∧
  (∀ c : Core, (c.choose = none ↔ ∀ n, c.ready n = false) ∧ (c.ready 15 = true → c.choose = some 15) ∧
    ∀ n : Fin 16, (c.chans[n]).eprio = min 7 ((c.chans[n]).ctl.toNat / 2 ^ 24 % 8 + (c.chans[n]).wait / 2 ^ 16)) ∧
  ∀ (core : Nat) (n : Fin 16) (k : Task) (x : Gang) (j g : Nat) (m : Msg) (s : State),
    let c := s.core core
    let ch := c.chans[n]
    core < 24576 → c.clocked = true →
    (c.task = none → c.mxq = [] → c.gang = some (j, g) → s.gang j g = some x → x.state = .running → c.rank ∉ x.retired →
      c.rank ∉ x.resuming → c.dbg.dbgctl.toNat / 4 % 2 = 0 → c.dbg.dieHalt = false → (∀ i ∈ x.insts, i.replaying = false ∨ i.done = true) →
      c.choose = some n → ch.head = some m →
      ∃ t q, exec (.taskDispatch core) s = .next t ∧ (t.core core).task = some q ∧ q.chan = n.val ∧ q.msg.src = m.src ∧
        q.msg.seq = m.seq ∧ q.msg.payload = m.payload ∧ q.left = q.budget ∧ q.buffered = [] ∧ q.domains = [] ∧
        q.binds = [] ∧ q.ended = false ∧ q.budget = (if ch.ctl.toNat / 2 ^ 32 ≠ 0 then ch.ctl.toNat / 2 ^ 32
          else if c.jobBudget ≠ 0 then c.jobBudget else 2 ^ 20) ∧
        (t.core core).pc = (if m.kind = 2 then word (bytesToNat (m.payload.take 8)) else
          word (ch.hnd.toNat / 8 % 2 ^ 49 * 8)) ∧ (t.core core).regs = Regs.zero ∧ (t.core core).fstat = 0 ∧
        (t.core core).table = identityTable ∧ (t.core core).taskCount = c.taskCount + 1 ∧ (t.core core).loc = c.loc ∧
        t.mem = s.mem ∧ (∀ i, i ≠ n → (t.core core).chans[i] = c.chans[i]) ∧ ((t.core core).chans[n]).wait = 0 ∧
        (t.core core).lastChan = (if n = 15 then c.lastChan else n.val) ∧
        (if ch.ctl.toNat / 2 ^ 29 % 2 = 1 then ((t.core core).chans[n]).jnext = (ch.jnext + 1) % 16 ∧ m.ford = ch.jnext ∧
            ∃ a b, ch.queue = a ++ m :: b ∧ ((t.core core).chans[n]).queue = a ++ b ∧ ∀ o ∈ a, o.ford ≠ ch.jnext
          else ((t.core core).chans[n]).jnext = ch.jnext ∧ ch.queue = m :: ((t.core core).chans[n]).queue) ∧
        (m.credit = false → ∀ i, (t.core i).spcred = (s.core i).spcred) ∧
        (∀ y, m.credit = true → s.holder m.job m.src = some y → y.state ≠ .saved →
          (t.core m.src).spcred = min 32 ((s.core m.src).spcred + 1) ∧ ∀ i, i ≠ m.src → (t.core i).spcred = (s.core i).spcred) ∧
        (m.credit = true → s.holder m.job m.src = none → ∀ i, (t.core i).spcred = (s.core i).spcred)) ∧
    (c.task = none → c.mxq = [] → c.gang = some (j, g) → s.gang j g = some x → x.state = .running → c.rank ∉ x.retired →
      c.rank ∉ x.resuming → (c.dbg.dbgctl.toNat / 4 % 2 = 1 ∨ c.dbg.dieHalt = true) →
      exec (.taskDispatch core) s = .next (s.setCore core (c.halt 3 0))) ∧
    (c.task = none → c.gang = some (j, g) → s.gang j g = some x → c.rank ∈ x.resuming → s.canRefill core = true →
      exec (.taskDispatch core) s = .next s) ∧
    (c.task = some k → k.ended = true → c.mxq = [] →
      ∃ t, exec (.taskEndRelease core) s = .next t ∧ (t.core core).task = none ∧ t.mem = s.mem ∧
        (t.core core).outbox.map (·.msg.seq) = c.outbox.map (·.msg.seq) ++ k.buffered.filterMap (fun o => match o with
          | .msg m => some m.seq
          | _ => none) ∧
        (∀ (i : Fin 16) w, c.written = [(0x110 + i.val, w)] → ((t.core core).chans[i]).ctl = w) ∧
        (k.binds = [] → ∀ i : Fin 16, ((t.core core).rings[i]).head = ((c.rings[i]).head + k.heads[i]) % 512 ∧
          ((t.core core).rings[i]).tail = ((c.rings[i]).tail + k.tails[i]) % 512) ∧
        (k.retire = true → c.gang = some (j, g) → s.gang j g = some x →
          ∃ y, t.gang j g = some y ∧ c.rank ∈ y.retired)) ∧
    (c.task = some k → k.ended = false → k.left = 0 →
      ∃ t, exec (.taskBudget core) s = .next t ∧ (t.core core).task = none ∧ t.mem = s.mem ∧
        (k.chan < 15 → c.fault.fcause.toNat < 2 ^ 63 → (t.core core).fault.fcause.toNat / 2 ^ 32 % 2 ^ 8 = 0x0D ∧
          (t.core core).fault.faddr = word k.budget)) ∧
    (n ≠ 15 → c.ready n = true →
      ∃ t, exec (.waitAging core n) s = .next t ∧ t.mem = s.mem ∧
        ((t.core core).chans[n]).wait = min 0xFFFFFFFF (ch.wait + (65536 - ch.wait % 65536)) ∧
        (t.core core).cycles = c.cycles + word (65536 - ch.wait % 65536)) ∧
    (∃ t, exec (.heartbeat core) s = .next t ∧ t.mem = s.mem ∧
      (t.core core).cycles = c.cycles + word (65536 - c.cycles.toNat % 65536) ∧
      (t.die (dieOf core)).beats.find core = some 0)

/-- R225, R348, R384, R385: a stalled core's bundle is tried again; a core halts before a bundle at an enabled breakpoint
and where HALTREQ or the halt of its die stands, its NEXT the bundle that runs at resume, 0 for an idle core; a late program
fault is recorded with LATE set, and aborts its task where it still runs; R231: the late fault of an ordered atomic drops the
ordered atomics behind it that have not been sent, and no other. That a bundle tried again is the next entry of the
agenda is the model's choice (log 1); the readings of NEXT and of a fault after END are those of logs 15 and 37 (DEDUCED), that of
a dropped atomic's task log 66's. -/
def Obligations.HaltsAndLateFaults : Prop :=
  ∀ (core : Nat) (k : Task) (s : State),
    let c := s.core core
    let hit (b : Word) : Prop := 2 ^ 63 ≤ b.toNat ∧ b.toNat / 8 % 2 ^ 49 * 8 = c.pc.toNat
    core < 24576 →
    (∀ w, c.stalled = some w →
      exec (.stalledIssueResume core) s = .next { s with agenda := .bundle core :: s.agenda }) ∧
    (c.clocked = true → c.stalled = none → c.task = some k → k.ended = false → c.dbg.skipBp = false →
      (c.dbg.dbgctl.toNat % 2 = 1 → hit c.dbg.bp0 →
        exec (.breakpointHalt core 0) s = .next (s.setCore core (c.halt 4 c.pc))) ∧
      (c.dbg.dbgctl.toNat % 2 = 1 → ¬hit c.dbg.bp0 → hit c.dbg.bp1 →
        exec (.breakpointHalt core 1) s = .next (s.setCore core (c.halt 5 c.pc))) ∧
      (c.dbg.dbgctl.toNat / 4 % 2 = 1 ∨ c.dbg.dieHalt = true →
        exec (.debugHalt core) s = .next (s.setCore core (c.halt 3 c.pc)))) ∧
    (c.clocked = true → c.task = none → (c.dbg.dbgctl.toNat / 4 % 2 = 1 ∨ c.dbg.dieHalt = true) →
      exec (.debugHalt core) s = .next (s.setCore core (c.halt 3 0))) ∧
    (∀ l, c.clocked = true → c.late = [l] → l.trap.detected = false → l.trap.kind < 8 → l.trap.level < 8 →
      l.trap.svc < 4 → l.trap.cause < 4 →
      ∃ t, exec (.lateFault core) s = .next t ∧ (t.core core).late = [] ∧ t.mem = s.mem ∧
        (t.core core).fault.fcount = (if c.fault.fcount = 0xFFFFFFFF then c.fault.fcount else c.fault.fcount + 1) ∧
        (c.running l.serial = true → (t.core core).task = none) ∧
        (c.running l.serial = false → l.ordered = none → (t.core core).task = c.task) ∧
        (∀ p, l.ordered = some p → (t.core core).reqs = c.reqs.filter fun r => !(r.op.ordered && !r.sent && decide (p < r.pos))) ∧
        (l.ordered = none → (t.core core).reqs = c.reqs) ∧
        (c.fault.fcause.toNat < 2 ^ 63 → (t.core core).fault.fcause.toNat / 2 ^ 31 % 2 = 1 ∧
          (t.core core).fault.fpc = l.fpc &&& 0x000FFFFFFFFFFFF8#64 ∧ (t.core core).fault.faddr = l.trap.addr))

/-- R24, R85 to R88, R98, R100, R101, R267, R271, R272, R275, R281, R347: a message that meets its running gang and a free slot
of the 32, the last two only for channel 15, takes the slot and joins its channel's queue; where no slot is free it is a record
of the gang's Barrow, whose 512 bytes in HBM take it, or stops the job where the Barrow is full; one to a unit that is DOWN
comes back as status 1, one the writer check refuses as status 2, a SPAWN's credit with it; a DEC is applied to the dependence
word, whose post enters its channel at once; a released message leaves its core once its release is fulfilled and the commands
issued before it have reached their engines. The bytes of a Barrow record are free values (log 22), and which status a message
of a retired core's counts for is log 44's reading (DEDUCED); no clause rests on either. -/
def Obligations.MessageEvents : Prop :=
  (∀ (c : Core) (ch k : Nat), (c.slotFor ch = some k → k ∉ c.slotsHeld ∧ (k < 30 ∨ (ch = 15 ∧ k < 32))) ∧
    (k ∉ c.slotsHeld → (k < 30 ∨ (ch = 15 ∧ k < 32)) → c.slotFree ch = true)) ∧
  (∀ (x : Gang) (m : Msg) (s : State),
    let ch := s.channelOf x m.dest m.chan
    (x.state ≠ .saved → ch = (s.core m.dest).chans[Fin.ofNat 16 m.chan]) ∧
    ((ch.ctl.toNat / 0x40000000 % 2 = 0 ∨ m.kind = 2) → s.refuses x m = false) ∧
    (ch.ctl.toNat / 0x40000000 % 2 = 1 → m.kind ≠ 2 →
      (ch.ctl.toNat / 0x20000000 % 2 = 0 → (s.refuses x m = true ↔ m.src ≠ ch.ctl.toNat % 0x8000)) ∧
      (ch.ctl.toNat / 0x20000000 % 2 = 1 → (s.refuses x m = true ↔ (∃ k ∈ ch.queue, k.ford = m.ford) ∨
        ∃ k, BarrowRec.msg k ∈ x.barrow ++ x.aside ∧ k.kind ≠ 3 ∧ k.dest = m.dest ∧ k.chan = m.chan ∧ k.ford = m.ford)))) ∧
  ∀ (idx core : Nat) (n : Fin 16) (m : Msg) (x : Gang) (b : Job) (s : State),
    let c := s.core m.dest
    let back (t : State) (status : Nat) : Prop := ∃ r, t.net.msgs = s.net.msgs.eraseIdx idx ++ [r] ∧ r.kind = 5 ∧
      r.dest = m.src ∧ r.chan = 15 ∧
      r.payload.take 16 = natToBytes 8 (status * 0x10000000000 + (m.src * 0x1000000 + m.seq)) ++ natToBytes 8 0
    let credited (t : State) : Prop := m.credit = true → ∀ z, s.holder m.job m.src = some z → z.state ≠ .saved →
      (t.core m.src).spcred = min 32 ((s.core m.src).spcred + 1)
    let mayPost (k : Nat) : Prop := (s.core k).posts = [] ∧ (s.core k).seqReady = true
    (s.net.msgs[idx]? = some m → m.kind ≠ 3 → (m.record = false ∨ c.posts = []) →
      (∀ k ∈ s.net.msgs.take idx, k.kind = 3 ∨ k.src ≠ m.src ∨ k.dest ≠ m.dest ∨ k.chan ≠ m.chan) →
      (∀ k, s.Arrives m x → s.refuses x m = false → c.slotFor m.chan = some k → m.chan = n.val →
        (c.chans[15]).hnd.toNat / 8 % 0x2000000000000 ≠ 0 →
        ∃ t, exec (.messageArrival idx) s = .next t ∧ t.net.msgs = s.net.msgs.eraseIdx idx ∧ t.mem = s.mem ∧
          ((t.core m.dest).chans[n]).queue = (c.chans[n]).queue ++ [{ m with slot := k }] ∧
          ∀ k, k ≠ n → (t.core m.dest).chans[k] = c.chans[k]) ∧
      (s.Arrives m x → s.refuses x m = false → c.slotFree m.chan = false → s.gang x.job x.g = some x →
        s.job x.job = some b →
        (x.barrow.length + x.aside.length < b.launch.brecs * b.launch.size →
          ∃ t y, exec (.messageArrival idx) s = .next t ∧ t.net.msgs = s.net.msgs.eraseIdx idx ∧
            t.gang x.job x.g = some y ∧ y.barrow = x.barrow ++ [.msg m] ∧ y.spills = x.spills + 1 ∧
            (s.mem.wf = true →
              let at0 := b.launch.barrow + x.g * (b.launch.brecs * b.launch.size) * 512 +
                x.spills % (b.launch.brecs * b.launch.size) * 512
              ∀ a, a < at0 ∨ at0 + 512 ≤ a → t.mem.read a = s.mem.read a)) ∧
        (b.launch.brecs * b.launch.size ≤ x.barrow.length + x.aside.length → b.stop = none → b.completed = false →
          ∃ t, exec (.messageArrival idx) s = .next t ∧ t.job x.job = some { b with stop := some .barrowFull } ∧
            t.mem = s.mem)) ∧
      (m.remote = false → s.targetDown m.src m.dest = true → m.kind < 4 → mayPost m.src →
        ∃ t, exec (.messageArrival idx) s = .next t ∧ back t 1 ∧ credited t) ∧
      (s.Arrives m x → s.refuses x m = true → m.kind < 4 → mayPost m.src →
        ∃ t, exec (.messageArrival idx) s = .next t ∧ back t 2 ∧ credited t)) ∧
    (let w := bytesToNat (c.loc.readList (bytesToNat ((m.payload.drop 4).take 4)) 8)
     let dec := bytesToNat (m.payload.take 4)
     let off := bytesToNat ((m.payload.drop 4).take 4)
     let post := selfMsg m.dest c.seqctr 4 (w / 0x1000000000000 % 16) (natToBytes 4 off ++ natToBytes 2 (w / 0x100000000 % 0x10000) ++ [0, 0])
       c.jobNo
     s.net.msgs[idx]? = some m → m.kind = 3 → s.Arrives m x → c.loc.wf = true →
      (dec ≤ w % 0x100000000 → (dec < w % 0x100000000 ∨ w < 0x8000000000000000) →
        ∃ t, exec (.decArrival idx) s = .next t ∧ t.net.msgs = s.net.msgs.eraseIdx idx ∧
          bytesToNat ((t.core m.dest).loc.readList off 8) = w - dec) ∧
      (∀ k, dec = w % 0x100000000 → 0x8000000000000000 ≤ w → s.Arrives post x → s.refuses x post = false → c.slotFor post.chan = some k →
        post.chan = n.val → (c.chans[15]).hnd.toNat / 8 % 0x2000000000000 ≠ 0 → mayPost m.dest →
        ∃ t, exec (.decArrival idx) s = .next t ∧ bytesToNat ((t.core m.dest).loc.readList off 8) = w - dec - 0x8000000000000000 ∧
          t.net.msgs = s.net.msgs.eraseIdx idx ∧
          ((t.core m.dest).chans[n]).queue = (c.chans[n]).queue ++ [{ post with slot := k }]) ∧
      (w % 0x100000000 < dec → mayPost m.src →
        ∃ t, exec (.decArrival idx) s = .next t ∧ back t 3 ∧ (t.core m.dest).loc = c.loc)) ∧
    (∀ k, core < 24576 → s.gangOf (s.core core) = some x → (x.barrow.find? fun k => k.dest == core) = some (.msg m) →
      x.state = .running → m.kind ≠ 3 → m.dest = core → m.chan = n.val → c.slotFor m.chan = some k →
      (c.chans[15]).hnd.toNat / 8 % 0x2000000000000 ≠ 0 →
      ∃ t, exec (.barrowRefill core) s = .next t ∧ t.mem = s.mem ∧
        ((t.core core).chans[n]).queue = (c.chans[n]).queue ++ [{ m with slot := k }]) ∧
    (∀ o, core < 24576 → (s.core core).outbox[idx]? = some o → s.releaseClear core o.pos o.msg.scope o.reads = true →
      (∀ k ∈ (s.core core).cmds, o.pos ≤ k.pos ∨ k.stage ≠ .issued) →
      (∀ k ∈ (s.core core).outbox.take idx, k.msg.kind = 3 ∨ k.msg.dest ≠ o.msg.dest ∨ k.msg.chan ≠ o.msg.chan) →
      (o.msg.remote = true ∨ s.targetDown o.msg.src o.msg.dest = false) →
      ∃ t, exec (.bufferedMessageSend core idx) s = .next t ∧ t.net.msgs = s.net.msgs ++ [o.msg] ∧
        (t.core core).outbox = (s.core core).outbox.eraseIdx idx ∧ t.mem = s.mem) ∧
    (∀ o, core < 24576 → (s.core core).outbox[idx]? = some o →
      (∃ k ∈ (s.core core).cmds, k.pos < o.pos ∧ k.stage = .issued) → exec (.bufferedMessageSend core idx) s = .next s)

/-! ### Events of global requests -/

/-- R137 to R140, R330, R342, R375: an entry of a table of a level stands at its index of the address; it is a leaf, names the
next table, or is not present. A translation found in a TLB or by a walk places the request; one that no table gives, or whose
leaf lacks the right, refuses it without demand service (`walkBarred` aside: R361 to R363 keep a walk from tables it cannot read); under demand service a record of it goes to the fault ring and it
waits for the host until the limit, and is then refused with SVC 2, or at once with SVC 1 where the ring is off. A walk for a
fetch fills the core's TLB, and one for a command the command's pages. An ECP leaf maps data units of the erasure group only, with all of its page;
that another one is refused as an entry that is not present is log 69's reading (DEDUCED), that a fault that finds every token
out is refused as on a full ring log 103 (DESIGN CHOICE). -/
def Obligations.TranslationEvents : Prop :=
  (∀ p : Nat × Nat × Nat, p ∈ [(0, 16, 5), (1, 21, 9), (2, 30, 9), (3, 39, 9), (4, 48, 4)] → ∀ (tables : Memory) (va base : Nat),
    let e := bytesToNat (tables.readList (base + 8 * (va / 2 ^ p.2.1 % 2 ^ p.2.2)) 8)
    let next := e / 2 ^ 8 % 2 ^ 40 * 256
    let good := e % 2 = 1 ∧ e / 2 % 2 = 0 ∧ e / 2 ^ 6 % 4 = 0 ∧ e / 2 ^ 48 % 2 ^ 14 = 0
    let leaf := e / 4 % 2 = 1 ∧ p.1 ≤ 2 ∧ next % 2 ^ p.2.1 = 0
    let table := e / 4 % 2 = 0 ∧ 1 ≤ p.1 ∧ next % (if p.1 = 1 then 256 else 4096) = 0
    (good ∧ leaf → walkFrom tables va p.1 base = .leaf p.1 (word e)) ∧
    (good ∧ table → walkFrom tables va p.1 base = walkFrom tables va (p.1 - 1) next) ∧
    (¬(good ∧ (leaf ∨ table)) → walkFrom tables va p.1 base = .absent p.1)) ∧
  ∀ (core nth va : Nat) (r : Req) (e : TlbEntry) (leaf : Word) (level : Nat) (tk : Token) (b : Job) (k : Task) (m : Cmd)
    (s : State),
    let c := s.core core
    let place (e : TlbEntry) : Nat := e.leaf.toNat / 2 ^ 8 % 2 ^ 40 * 256 + r.va % 2 ^ e.log
    let ecp (e : TlbEntry) : Prop := e.leaf.toNat / 2 ^ 62 % 2 = 1 → ∀ i, i < 2 ^ e.log / 65536 →
      s.dataUnit (e.leaf.toNat / 2 ^ 8 % 2 ^ 40 * 256 + 65536 * i) = true
    let walked (va : Nat) : TlbEntry := ⟨r.job, va / 2 ^ levelShift level, levelShift level, leaf⟩
    let missed := tlbFind c.tlb r.job r.va = none ∧ tlbFind (s.die (dieOf core)).tlb r.job r.va = none ∧
      s.walkBarred core r.job r.va = none
    let fq := s.iod.fq
    let ringFree := fq.en = true ∧ (fq.tail + 256 - fq.head) % 256 ≠ 255 ∧ s.iod.tokens.length < 65536
    let refused (t : State) (code lv svc cause : Nat) : Prop := ∃ q, t.req core nth = some q ∧
      q.phase = .refused ⟨code, r.op.kind, lv, svc, cause, r.ptr⟩ ∧ t.mem = s.mem
    let waits (t : State) (lv cause : Nat) : Prop := ∃ q w, t.req core nth = some q ∧ q.phase = .serviced w ∧
      ⟨w, .request core r.seq, r.job, lv, cause, 0⟩ ∈ t.iod.tokens ∧ t.iod.fq.tail = (fq.tail + 1) % 256 ∧
      (s.job r.job = some b → t.mem = s.mem.writeList (fq.base + 32 * fq.tail)
        (natToBytes 8 b.launch.jobId.toNat ++ natToBytes 8 r.ptr.toNat ++ natToBytes 8 (w * 2 ^ 48 + fq.phase.toNat * 2 ^ 47 +
          core * 2 ^ 32 + r.op.kind * 2 ^ 27 + lv * 2 ^ 24 + cause * 2 ^ 20) ++ natToBytes 8 s.iod.ptime))
    let faults (i : Instr) (code lv cause : Nat) : Prop :=
      (s.demand r.job = false → ∃ t, exec i s = .next t ∧ refused t code lv 0 cause) ∧
      (s.demand r.job = true → ringFree → ∃ t, exec i s = .next t ∧ waits t lv cause) ∧
      (s.demand r.job = true → fq.en = false → ∃ t, exec i s = .next t ∧ refused t code lv 1 cause)
    core < 24576 →
    (s.job r.job = some b → s.walk r.job va = walkFrom s.mem va 4 b.launch.tbase) ∧
    (s.req core nth = some r → r.phase = .issued → (∀ n, r.op ≠ .preserve n) →
      (tlbFind c.tlb r.job r.va = some e → ecp e →
        (r.op.right.allowed e.leaf = true →
          ∃ t q, exec (.pageWalk (.request core nth) .coreTlb) s = .next t ∧ t.req core nth = some q ∧
            q.phase = .translated (place e) ∧ q.leaf = e.leaf ∧ t.mem = s.mem) ∧
        (r.op.right.allowed e.leaf = false → faults (.pageWalk (.request core nth) .coreTlb) 0x0A
          (if e.log = 30 then 2 else if e.log = 21 then 1 else 0) 1)) ∧
      (missed → s.walk r.job r.va = .leaf level leaf → ecp (walked r.va) → r.op.right.allowed leaf = true →
        ∃ t q, exec (.pageWalk (.request core nth) .walk) s = .next t ∧ t.req core nth = some q ∧
          q.phase = .translated (place (walked r.va)) ∧ (t.core core).tlb.head? = some (walked r.va)) ∧
      (missed → s.walk r.job r.va = .leaf level leaf → ecp (walked r.va) → r.op.right.allowed leaf = false →
        faults (.pageWalk (.request core nth) .walk) 0x0A level 1) ∧
      (tlbFind c.tlb r.job r.va = none → tlbFind (s.die (dieOf core)).tlb r.job r.va = some e → ecp e →
        r.op.right.allowed e.leaf = true → ∃ t q, exec (.pageWalk (.request core nth) .dieTlb) s = .next t ∧
          t.req core nth = some q ∧ q.phase = .translated (place e) ∧ (t.core core).tlb.head? = some e ∧ t.mem = s.mem) ∧
      (missed → s.walk r.job r.va = .absent level → faults (.pageWalk (.request core nth) .walk) 0x09 level 0)) ∧
    (c.task.isSome = true → c.jobNo = r.job → c.pc.toNat < 2 ^ 52 → tlbFind c.tlb c.jobNo c.pc.toNat = none →
      tlbFind (s.die (dieOf core)).tlb c.jobNo c.pc.toNat = none → s.walkBarred core c.jobNo c.pc.toNat = none → s.walk c.jobNo c.pc.toNat = .leaf level leaf →
      ∃ t, exec (.pageWalk (.fetch core) .walk) s = .next t ∧ t.mem = s.mem ∧ (t.core core).pc = c.pc ∧
        (t.core core).tlb.head? = some (walked c.pc.toNat)) ∧
    (∀ right, s.cmd core nth = some m → m.job = r.job → s.nextNeed core m = some (va, right) →
      s.walkBarred core m.job va = none → s.walk m.job va = .leaf level leaf → ecp (walked va) → right.allowed leaf = true →
      ∃ t k, exec (.pageWalk (.command core nth m.translated) .walk) s = .next t ∧ t.cmd core nth = some k ∧
        walked va ∈ k.pages ∧ m.translated ≤ k.translated) ∧
    (s.tokenOf tk.token = some tk →
      (tk.who = .request core r.seq → s.req core nth = some r → r.phase = .serviced tk.token →
        (∀ i, i < nth → ∀ q, s.req core i = some q → q.phase ≠ .serviced tk.token) → s.serviceLimit tk.job ≤ tk.since →
        ∃ t, exec (.demandServiceExpiry tk.token) s = .next t ∧ t.tokenOf tk.token = none ∧
          refused t (if tk.cause = 1 then 0x0A else 0x09) tk.level 2 tk.cause) ∧
      (tk.who = .fetch core → c.stalled = some .fetch → c.task = some k → k.chan < 15 → tk.level < 8 → tk.cause < 4 →
        c.fault.fcause.toNat < 2 ^ 63 → s.serviceLimit tk.job ≤ tk.since →
        ∃ t, exec (.demandServiceExpiry tk.token) s = .next t ∧ t.tokenOf tk.token = none ∧ (t.core core).task = none ∧
          (t.core core).fault.fcause.toNat % 2 ^ 62 = (if tk.cause = 1 then 0x0A else 0x09) * 2 ^ 32 + 2 ^ 30 + 4 * 2 ^ 27 +
            tk.level * 2 ^ 24 + 2 * 2 ^ 22 + tk.cause * 2 ^ 20) ∧
      (∀ i, tk.who = .command core m.pos i → s.cmd core nth = some m → m.token = some tk.token → m.stop = none →
        s.serviceLimit tk.job ≤ tk.since →
        ∃ t, exec (.demandServiceExpiry tk.token) s = .next t ∧ t.tokenOf tk.token = none ∧
          t.cmd core nth = some { m with token := none, stop := some (if tk.cause = 1 then 0x15 else 0x14) }) ∧
      (tk.since < s.serviceLimit tk.job → exec (.demandServiceExpiry tk.token) s = .next s))

/-- R150 to R154, R158, R161, R230, R231, R361, R362: at its home a load takes its die's view of its bytes, a `.fwd` store is
applied, a `.gack` store or one to a replicated page waits for the Crier, and an atomic reads and writes in one step, its
old bytes the value it returns; a request to a home that is DOWN or not rebuilt waits, and one to another job's frame is
discarded and logged; an ordered atomic is sent once every earlier one has performed. That one which ended in a fault holds the
later ones until its late fault is delivered is the model's choice (log 66). -/
def Obligations.HomeEvents : Prop :=
  ∀ (core nth pa n v operand : Nat) (r : Req) (data : List Byte) (gack ordered : Bool) (op : AtomicOp) (s : State),
    let c := s.core core
    let old := s.mem.readList pa n
    core < 24576 →
    (s.AtHome core nth r pa true → r.op = .load n → s.errorAt pa n = false →
      ∃ t q, exec (.globalRequestAtHome core nth false) s = .next t ∧ t.req core nth = some q ∧
        q.phase = .applied pa (s.view (some (dieOf core)) pa n) ∧ t.mem = s.mem) ∧
    (s.AtHome core nth r pa false → r.op = .store data gack → s.net.inTurn core r.pos pa data.length = true →
      (gack = false → r.replicated = false →
        ∃ t q, exec (.globalRequestAtHome core nth false) s = .next t ∧ t.req core nth = some q ∧
          q.phase = .applied pa [] ∧ t.mem = s.mem.writeList pa data ∧ t.net.updates = s.net.updates) ∧
      (gack = true ∨ r.replicated = true → s.net.updating core r.pos = false →
        ∃ t u, exec (.globalRequestAtHome core nth false) s = .next t ∧ t.req core nth = some r ∧ t.mem = s.mem ∧
          t.net.updates = s.net.updates ++ [u] ∧ u.pa = pa ∧ u.bytes = data ∧ u.gack = gack ∧ u.crier = none ∧
          u.replicated = r.replicated)) ∧
    (s.AtHome core nth r pa false → r.op = .atomic op n operand ordered → (ordered = true → r.sent = true) →
      (r.replicated = true → s.net.crierIdle = true) → s.errorAt pa n = false → s.net.inTurn core r.pos pa n = true →
      (op.apply n (bytesToNat old) operand = some v →
        ∃ t q, exec (.atomicPerform core nth false) s = .next t ∧ t.req core nth = some q ∧ q.phase = .applied pa old ∧
          t.mem = s.mem.writeList pa (natToBytes n v)) ∧
      (op.apply n (bytesToNat old) operand = none →
        ∃ t q, exec (.atomicPerform core nth false) s = .next t ∧ t.req core nth = some q ∧ q.phase = .applied pa old ∧
          t.mem = s.mem)) ∧
    (s.req core nth = some r → r.phase = .translated pa → ∀ i ∈ [Instr.globalRequestAtHome core nth false,
        .atomicPerform core nth false], (i = .atomicPerform core nth false → ∃ o n v ord, r.op = .atomic o n v ord) →
      (s.homeTakes core pa = false → exec i s = .next (s.wantUnit pa)) ∧
      (s.homeTakes core pa = true → s.foreign pa r.job = true → exec i s = .next (s.logSp (.discarded core r.seq)))) ∧
    (s.req core nth = some r → r.phase = .translated pa → r.op = .atomic op n operand true → (∃ l ∈ c.late, ∃ p, l.ordered = some p ∧ p < r.pos) →
      exec (.orderedAtomicSend core nth) s = .next s) ∧
    (s.req core nth = some r → r.phase = .translated pa → r.op = .atomic op n operand true →
      (∀ e ∈ c.reqs, e.pos < r.pos → e.op.ordered = true → ∃ p w, e.phase = .applied p w) →
      (∀ l ∈ c.late, ∀ p, l.ordered = some p → r.pos < p) →
      ∃ t, exec (.orderedAtomicSend core nth) s = .next t ∧ t.req core nth = some { r with sent := true } ∧ t.mem = s.mem)

/-- R142 to R144, R151, R156, R157, R225, R227, R231, R240, R348, R361, R363: the response of a request writes its register
where its task still runs, or brings its late fault, with its register pending from then on; an overdue request is sent again,
and after its last retry is lost, but for one whose time does not count while demand service answers it or an ordered atomic
before it; a die's cache takes a `.fwd` store; the last of eight slices answers a residency instruction, HPIN with its status.
The order of HPIN's statuses is log 36's (DEDUCED), that a malformed record fixes no range log 71's (DESIGN CHOICE), an atomic held behind a serviced one log 67's, that a request sent again
is known by its own phase log 58's. -/
def Obligations.ResponseEvents : Prop :=
  ∀ (core nth pa v : Nat) (r : Req) (k : Task) (d : Fin 32) (value data : List Byte) (md : Fin 8) (op : Machine.Residency)
    (e : Trap) (s : State),
    let c := s.core core
    core < 24576 → s.req core nth = some r →
    (s.net.codes core r.seq = false → s.net.updating core r.pos = false →
      (r.phase = .applied pa value → r.returnsValue = true → c.task = some k → k.serial = r.serial →
        (r.dest = some (.x d) → ∃ t, exec (.globalResponse core nth) s = .next t ∧ t.mem = s.mem ∧
          t.core core = { c.setX d (word (bytesToNat value)) with reqs := c.reqs.eraseIdx nth }) ∧
        (r.dest = some (.v d) → ∃ t, exec (.globalResponse core nth) s = .next t ∧ t.mem = s.mem ∧
          t.core core = { c.putV d (BitVec.ofNat 128 (bytesToNat value)) with reqs := c.reqs.eraseIdx nth })) ∧
      (r.phase = .applied pa value → (r.returnsValue = false ∨ ∀ k, c.task = some k → k.serial ≠ r.serial) →
        ∃ t, exec (.globalResponse core nth) s = .next t ∧ t.mem = s.mem ∧
          t.core core = { c with reqs := c.reqs.eraseIdx nth }) ∧
      (r.phase = .refused e → ∃ t l, exec (.globalResponse core nth) s = .next t ∧ l.trap = e ∧ l.serial = r.serial ∧
        l.seq = r.seq ∧ t.core core = { c.failDest r with reqs := c.reqs.eraseIdx nth, late := c.late ++ [l] } ∧
        (r.dest = none → c.failDest r = c) ∧
        ∀ d, r.dest = some d → c.task = some k → k.serial = r.serial → d ∈ (t.core core).pendingRegs) ∧
      (r.phase = .answered v → c.task = some k → k.serial = r.serial → r.dest = some (.x d) →
        ∃ t, exec (.globalResponse core nth) s = .next t ∧
          t.core core = { c.setX d (word v) with reqs := c.reqs.eraseIdx nth })) ∧
    ((∀ w, r.phase ≠ .serviced w) → (r.op.ordered = false ∨ r.sent = true ∨ ∀ q ∈ c.reqs, q.op.ordered = false ∨ r.pos ≤ q.pos ∨
      ∀ w, q.phase ≠ .serviced w) → c.serviceHeld r = false) ∧
    ((∃ w, r.phase = .serviced w) ∨ (r.op.ordered = true ∧ r.sent = false ∧ ∃ q ∈ c.reqs, q.op.ordered = true ∧ q.pos < r.pos ∧
      ∃ w, q.phase = .serviced w) → exec (.ackTimeout core nth) s = .next s) ∧
    (c.dbg.halted = false → c.serviceHeld r = false → c.ackTime ≤ r.elapsed →
      (r.retries < c.ackRetries → ∃ t, exec (.ackTimeout core nth) s = .next t ∧
        t.req core nth = some { r with retries := r.retries + 1, elapsed := 0 } ∧ t.mem = s.mem) ∧
      (c.ackRetries ≤ r.retries → ∃ t l, exec (.ackTimeout core nth) s = .next t ∧ l.trap.code = 0x11 ∧
        l.serial = r.serial ∧ (t.core core).late = c.late ++ [l] ∧ t.mem = s.mem ∧ (t.core core).reqs.map (fun q =>
          { q with cached := false }) = (c.reqs.eraseIdx nth).map fun q => { q with cached := false })) ∧
    (r.phase = .translated pa → s.foreign pa r.job = false → s.mayLeave core r true = true → r.op = .store data false →
      r.cached = false → s.net.updating core r.pos = false → s.net.mayTake (dieOf core) pa data.length = true →
      ∃ t a, exec (.dieCacheTakesStore core nth) s = .next t ∧ t.mem = s.mem ∧ t.net.early = s.net.early ++ [a] ∧
        a.die = dieOf core ∧ a.pa = pa ∧ a.bytes = data ∧ t.req core nth = some { r with cached := true }) ∧
    (r.op = .residency op → r.phase = .translated pa → md.val ∉ r.slices → s.mdDown (dieOf core) md.val = false →
      let record := tensorHeader (s.view (some (dieOf core)) pa 32)
      (r.slices.length < 7 → ∃ t, exec (.residencyRequestAtSlice core nth md) s = .next t ∧ t.mem = s.mem ∧
        t.req core nth = some { r with slices := r.slices ++ [md.val] } ∧ t.resid = s.resid) ∧
      (7 ≤ r.slices.length → s.homeTakes core pa = true → s.foreign pa r.job = false →
        (s.errorAt pa 32 = false → s.pinBarred core r.job op record = none → ∃ t, exec (.residencyRequestAtSlice core nth md) s = .next t ∧ t.mem = s.mem ∧
          t.req core nth = some { r with
            slices := r.slices ++ [md.val], phase := .answered (s.reside r.job op record).1 } ∧
          t.resid = (s.reside r.job op record).2.resid) ∧
        (s.errorAt pa 32 = true → s.dataUnit pa = false → ∃ t q,
          exec (.residencyRequestAtSlice core nth md) s = .next t ∧ t.req core nth = some q ∧
          q.phase = .refused ⟨0x12, 1, 7, 0, 0, 0⟩ ∧ t.resid = s.resid))) ∧
    (s.mdDown (dieOf core) md.val = true → exec (.residencyRequestAtSlice core nth md) s = .next s) ∧
    (∀ (j : Nat) (h : TensorHeader),
      (h.word % 2 ^ 16 = 0 → s.reside j .pin h = (2, s)) ∧
      (h.word % 2 ^ 16 ≠ 0 → h.len % 64 ≠ 0 ∨ 2 ^ 40 < h.len ∨ h.word / 2 ^ 19 % 2 ^ 45 ≠ 0 ∨ h.base.toNat / 2 ^ 52 % 4 ≠ 0 →
        s.reside j .pin h = (3, s)) ∧
      (h.word % 2 ^ 16 ≠ 0 → h.malformed = false → s.resident j (h.word % 2 ^ 16) = none →
        s.pages j (h.base.toNat % 2 ^ 52) h.len = none → (s.reside j .pin h).1 = 4 ∧ (s.reside j .pin h).2.mem = s.mem))

/-- R39, R145, R151, R152, R161, R330 to R332, R362, R363: the Crier gives an update its position, a `.fwd` one then in force at its home; a
replica applies the next update; a `.gack` store is exposed once every replica has it and every earlier one is exposed, the bits
of a byte that it does not write as they stand, and one that covers a whole granule clears its entry of the error map; a die
comes to see a store, and with it the earlier ones to its granule; a parity engine adds a delta, P1 weighted by a power of
alpha; a frame passes to a job zeroed, the change of a data unit on its way to both parities. That a `.gack` store takes its
place in the order when it is exposed is log 18's reading (DEDUCED), and the group's symbols of other packages stand in the
state by log 21 (DESIGN CHOICE), by which a frame of parity passes to no job too. -/
def Obligations.VisibilityEvents : Prop :=
  ∀ (rec idx u k : Nat) (up : Update) (md : Fin 8) (d : ParityDelta) (e : Erasure) (p : Fin 2) (s : State),
    (s.net.updates[rec]? = some up → up.crier = none → up.gack = true ∨ s.net.updateInTurn up = true →
      ∃ t v, exec (.crierOrder rec) s = .next t ∧ t.net.crierNext = s.net.crierNext + 1 ∧
        t.net.updates[rec]? = some v ∧ v.crier = some s.net.crierNext ∧ v.pa = up.pa ∧ v.bytes = up.bytes ∧
        t.mem = (if up.gack then s.mem else s.mem.writeList up.pa (up.filled s.mem))) ∧
    ((up.filled s.mem).length = up.bytes.length ∧ ∀ i j, (h : i < up.bytes.length) → j < 8 → ∃ b : Byte,
      (up.filled s.mem)[i]? = some b ∧ b.getLsbD j = if (up.keep.getD i 0).getLsbD j then (s.mem.read (up.pa + i)).getLsbD j
        else up.bytes[i].getLsbD j) ∧
    (s.net.replPos[md] < s.net.crierNext →
      ∃ t, exec (.replicaUpdate md.val) s = .next t ∧ t.net.replPos = s.net.replPos.set md (s.net.replPos[md] + 1) ∧
        t.mem = s.mem) ∧
    (s.net.updates[rec]? = some up → up.gack = true → up.crier = some k →
      (∀ v ∈ s.net.updates, v.gack = true → ∀ i, v.crier = some i → k ≤ i) →
      (up.replicated = true → ∀ i : Fin 8, k < s.net.replPos[i]) → s.net.updateInTurn up = true →
      ∃ t, exec (.gackExpose rec) s = .next t ∧ t.mem = s.mem.writeList up.pa (up.filled s.mem) ∧
        t.net.updates = s.net.updates.eraseIdx rec ∧
        ((∃ b ∈ up.keep, b ≠ 0) → t.iod.errMap = s.iod.errMap) ∧
        ((∀ b ∈ up.keep, b = 0) → ∀ q, q ∈ t.iod.errMap ↔ q ∈ s.iod.errMap ∧
          ¬(up.pa ≤ 64 * q ∧ 64 * q + 64 ≤ up.pa + up.bytes.length))) ∧
    (∀ die l, die < 24 → s.net.lags[rec]? = some l → (s.net.lags.map (·.stamp)).Nodup →
      ∃ t, exec (.fwdStoreRemoteVisible die rec) s = .next t ∧ t.mem = s.mem ∧
        (∀ a ∈ t.net.lags, a.stamp = l.stamp → die ∉ a.unseen) ∧
        (∀ a ∈ t.net.lags, ∀ (i : Nat) (b : Lag), i ≤ rec → s.net.lags[i]? = some b → a.stamp = b.stamp →
          shareGranule l.pa l.old.length b.pa b.old.length = true → die ∉ a.unseen) ∧
        ∀ a ∈ t.net.lags, ∃ b ∈ s.net.lags, a.stamp = b.stamp ∧ a.pa = b.pa ∧ a.old = b.old ∧
          ∀ i ∈ a.unseen, i ∈ b.unseen) ∧
    (s.net.parity[idx]? = some d → s.erasure = some e → s.mem.wf = true → e.symbols.wf = true →
      e.unitOf d.pa = some u → (if p = 0 then d.applied0 else d.applied1) = false →
      (∀ q ∈ s.net.parity.take idx, shareGranule q.pa q.delta.length d.pa d.delta.length = false) →
      ∃ t e', exec (.parityUpdate idx p) s = .next t ∧ t.erasure = some e' ∧
        (∀ i, (h : i < d.delta.length) → t.symbolByte e' u (10 + p.val) (d.pa % 65536 + i) =
          s.symbolByte e u (10 + p.val) (d.pa % 65536 + i) ^^^
            (if p = 0 then d.delta[i] else gpow (symbolAt e.position u) d.delta[i])) ∧
        t.net.parity = (if (if p = 0 then d.applied1 else d.applied0) then s.net.parity.eraseIdx idx
          else s.net.parity.set idx (if p = 0 then { d with applied0 := true } else { d with applied1 := true }))) ∧
    (∀ frame job, s.unitLost (frame * 65536) = false → s.parityUnit (frame * 65536) = false →
      ∃ t, exec (.frameZero frame job) s = .next t ∧ t.iod.frames.find frame = some job ∧
        (s.mem.wf = true → ∀ a, t.mem.read a = if a / 65536 = frame then 0 else s.mem.read a) ∧
        (s.dataUnit (frame * 65536) = true → ∃ d, t.net.parity = s.net.parity ++ [d] ∧ d.pa = frame * 65536 ∧
          d.delta = s.mem.readList (frame * 65536) 65536 ∧ d.applied0 = false ∧ d.applied1 = false) ∧
        (s.dataUnit (frame * 65536) = false → t.net.parity = s.net.parity)) ∧
    (∀ frame job, s.unitLost (frame * 65536) = true → s.parityUnit (frame * 65536) = false →
      exec (.frameZero frame job) s = .next (s.wantUnit (frame * 65536))) ∧
    (∀ frame job, s.parityUnit (frame * 65536) = true → exec (.frameZero frame job) s = .next s)

/-! ### Events of engines and MXUs -/

/-- R37, R38, R126, R127, R279 to R282, R294: a copy (CPY) of unscaled elements between two local buffers, with no Till, ring or
transform, is accepted where its words are well formed, its rights hold and its bytes lie in their buffers, and else refused
with the status of the first check it fails, in the order of log 24 (DEDUCED). A block that fails a third time stops a command that a fault has stopped too (log 86).
R130, R131, R278, R281, R285, R312 to R316: a command is accepted with its slots reserved or refused
with its status, one of a use that is known to disagree is stopped with GROUP_MISMATCH, an empty one completes at once; a copy
sends its next block; a block's good copy is written and counted, with the command and at its Till, in a local buffer or in
global memory, there one request per granule; a bad one is asked for again, the third one ends the command;
a command whose blocks are verified and whose writes are in force completes; the commands of a use that disagree stop.
R333 to R338: the grammar engine reads AUTO's header, STATE, the pair entry, the mask and the action, and gives its mask and its
next state. That GSTEP writes all of Q, DEPTH and the stack is log 42's reading (DEDUCED), a block that waits for its core log 29's,
the marks of a completion record log 41's. Log 100 (DESIGN CHOICE): a copy's bytes land in a buffer in the step that counts it. Log 92
(DESIGN CHOICE): the granules of a block go in any order. -/
def Obligations.EngineEvents : Prop :=
  (∀ (core fm w : Nat) (m : Cmd) (s : State),
    let src := bytesToNat (m.payload.take 8)
    let dst := bytesToNat ((m.payload.drop 8).take 8)
    let n := bytesToNat ((m.payload.drop 16).take 8)
    let ctl := bytesToNat ((m.payload.drop 24).take 8)
    let at0 (e : Nat) : Nat := e / 0x100000000 % 0x8000
    let size (e : Nat) : Nat := if laBuf (e % 0x100000000) = 2 then 0x20000 else 0x30000
    let endpoint (e right : Nat) : Prop := e / 0x400000000000000 % 64 = fm ∧ e / 0x40000000000000 % 16 = fmtBlg fm ∧ e / 0x10000000000000 % 4 = 1 ∧
      e % 0x100000000 % w = 0 ∧ at0 e < 24576 ∧ (s.holder m.job (at0 e)).isSome = true ∧ laBuf (e % 0x100000000) ≠ 3 ∧ e / 0x40000 % 0x1000 = 0 ∧
      (right = 3 → aclBit (s.core (at0 e)).bufacl (laBuf (e % 0x100000000)) 3 = true)
    let mayWrite := aclBit (s.core (at0 dst)).bufacl (laBuf (dst % 0x100000000)) 2 = true
    let free := (laBuf (dst % 0x100000000) = 0 → 0x800 ≤ laOff dst) ∧
      (s.core (at0 dst)).preservedBytes (laBuf (dst % 0x100000000)) (laOff dst) (n * w) = false
    let zero (e : Nat) : Prop := e / 0x800000000000 % 32 = 0
    let fits (e : Nat) : Prop := laOff e + n * w ≤ size e
    let meet := at0 src = at0 dst ∧ laBuf (src % 0x100000000) = laBuf (dst % 0x100000000) ∧ laOff src < laOff dst + n * w ∧
      laOff dst < laOff src + n * w
    m.eop = 1 → fmtAssigned fm = true → fmtScaled fm = false → fmtTable fm = false → fmtBits fm = 8 * w → 1 ≤ w →
    1 ≤ n → n < 0x10000000000 → endpoint src 3 → endpoint dst 2 → (ctl = 0 ∨ ctl = 0x20000000) →
    (zero src → zero dst → mayWrite → free → fits src → fits dst → (ctl = 0 ∨ ¬meet) → s.judgeCmd core m = none) ∧
    (¬zero src ∨ ¬zero dst → s.judgeCmd core m = some .fmtMismatch) ∧
    (zero src → zero dst → ¬mayWrite ∨ ¬free → s.judgeCmd core m = some .bufAccess) ∧
    (zero src → zero dst → mayWrite → free → ¬fits src ∨ ¬fits dst → s.judgeCmd core m = some .bufBounds) ∧
    (zero src → zero dst → mayWrite → free → fits src → fits dst → ctl = 0x20000000 → meet →
      s.judgeCmd core m = some .copyOverlap)) ∧
  (∀ (ps : List (Nat × ByteWrite × Word)) (old : Nat → Byte), ((joinRuns ps).map fun r => granule r.pa).Nodup ∧
    (∀ r ∈ joinRuns ps, r.pa % 64 + r.bytes.length ≤ 64 ∧ r.keep.length = r.bytes.length ∧ ∀ i, i < r.bytes.length →
      (keptOver r.keep r.bytes ((List.range r.bytes.length).map fun k => old (r.pa + k)))[i]? =
        some ((ps.filter fun p => p.1 == r.pa + i).foldl (fun b p => p.2.1.on b) (old (r.pa + i)))) ∧
    ∀ p ∈ ps, ∃ r ∈ joinRuns ps, r.pa ≤ p.1 ∧ p.1 < r.pa + r.bytes.length) ∧
  (∀ (core nth : Nat) (m : Cmd) (b : Block) (bytes : List Byte) (s : State),
    let c := s.core core
    let k := m.blocks.length
    let d := epCore m.dst
    let told (t : State) (status n : Nat) : Prop := ∃ r, t.net.msgs = s.net.msgs ++ [r] ∧ r.dest = core ∧
      r.chan = (if m.rcen then m.rch else 15) ∧ r.kind = (if m.rcen then 4 else 5) ∧
      r.payload = natToBytes 8 (status * 0x10000000000 + (core * 0x1000000 + m.seq)) ++ natToBytes 8 n
    core < 24576 → s.cmd core nth = some m →
    (s.mayAccept core m = true →
      (∀ st, s.judgeCmd core m = some st → (m.rcen = true ∨ (c.posts = [] ∧ c.seqReady = true)) →
        ∃ t, exec (.engineCommandAccept core nth) s = .next t ∧ told t st.code 0 ∧
          ∀ q ∈ (t.core core).cmds, q.pos ≠ m.pos) ∧
      (s.judgeCmd core m = none → (m.total ≠ 0 ∨ 5 ≤ m.eop) →
        ∃ t q, exec (.engineCommandAccept core nth) s = .next t ∧ t.cmd core nth = some q ∧ q.stage = .accepted ∧
          q.payload = m.payload ∧ t.mem = s.mem ∧ t.net.msgs = s.net.msgs ∧
          q.stop = (if s.mismatched m then some 0x19 else none) ∧
          (m.toRing = true → m.eop ≤ 4 → ((t.core d).rings[m.ringNo]).reserved = (s.destRing m).reserved + s.slotsOf m)) ∧
      (s.judgeCmd core m = none → m.total = 0 → m.eop ≤ 4 →
        ∃ t, exec (.engineCommandAccept core nth) s = .next t ∧ (∀ q ∈ (t.core core).cmds, q.pos ≠ m.pos) ∧
          (m.rcen = true → told t 0 0) ∧ (m.rcen = false → t.net = s.net))) ∧
    (m.maySend = true → s.atHand core m = true → (m.eop = 1 ∨ m.eop = 2) → k < s.blockCount m → m.unverified < 16 →
      s.reached m (.block k) = true →
      let gs := m.sourceGranules ((s.sendDeps m k).map m.srcIndex)
      (gs.length ≤ 1 → (∀ p ∈ gs, s.heldGranule core m p = none ∧ s.unreadable p false = false) →
        s.encodeElems core m k (s.copyElem core m) = some bytes →
        ∃ t q, exec (.engineBlockSend core nth false) s = .next t ∧ t.cmd core nth = some q ∧ t.mem = s.mem ∧
          q.blocks = m.blocks ++ [⟨k, bytes, 0, false, false, false, []⟩] ∧ q.fetched = []) ∧
      (2 ≤ gs.length → (∀ p ∈ gs, s.heldGranule core m p = none ∧ s.unreadable p false = false) →
        ∃ t q, exec (.engineBlockSend core nth false) s = .next t ∧ t.cmd core nth = some q ∧ t.mem = s.mem ∧
          q.blocks = m.blocks ∧ ∃ p ∈ gs, q.fetched = m.fetched.put p.1 (s.view (m.viewer core) (p.1 * 64) 64)) ∧
      (∀ p ecc, gs = [p] → s.heldGranule core m p = none → s.unreadable p ecc = true →
        ∃ t q, exec (.engineBlockSend core nth ecc) s = .next t ∧ t.cmd core nth = some q ∧ t.mem = s.mem ∧
          q.blocks = m.blocks ∧ q.stop = some 0x1A) ∧
      (gs ≠ [] → (∀ p ∈ gs, s.heldGranule core m p ≠ none) → ∃ t, exec (.engineBlockSend core nth false) s = .next t ∧
        t.cmd core nth = some m ∧ t.mem = s.mem)) ∧
    (m.blocks.find? (fun a => a.num == b.num) = some b → b.verified = false → b.waiting = false → b.held = false →
      m.stage = .accepted →
      let counted (t : State) : Prop := ∃ q ∈ (t.core core).cmds, q.pos = m.pos ∧
        (∃ a ∈ q.blocks, a.num = b.num ∧ a.verified = true) ∧ q.bytesDone = m.bytesDone + b.bytes.length
      let landed := (s.blockWrites m b.num b.bytes).foldl (fun l w => l.write w.addr (w.on (l.read w.addr))) (s.core d).loc
      let sum := bytesToNat (landed.readList (m.till + 4) 4) + b.bytes.length
      let target := bytesToNat (landed.readList m.till 4)
      (epLocal m.dst = true → s.atHand core m = true → m.xform = 0 →
        (m.till = 0 → ∃ t, exec (.engineBlockArrival core nth b.num none) s = .next t ∧ counted t ∧ (t.core d).loc = landed) ∧
        (m.till ≠ 0 → s.savedDest m = none → landed.wf = true →
          (sum < 0x100000000 → ∃ t, exec (.engineBlockArrival core nth b.num none) s = .next t ∧ counted t ∧
            bytesToNat ((t.core d).loc.readList (m.till + 4) 4) = (if target = 0 then sum else sum % target) ∧
            bytesToNat ((t.core d).loc.readList (m.till + 8) 4) =
              (bytesToNat (landed.readList (m.till + 8) 4) + (if target = 0 then 0 else sum / target)) % 0x100000000 ∧
            (∀ a, a < m.till + 4 ∨ m.till + 12 ≤ a → (t.core d).loc.read a = landed.read a) ∧
            (bytesToNat (landed.readList (m.till + 12) 4) < 0x80000000 → t.net = s.net)) ∧
          (0x100000000 ≤ sum → (s.core d).posts = [] → (s.core d).seqReady = true →
            ∃ t r, exec (.engineBlockArrival core nth b.num none) s = .next t ∧ counted t ∧ (t.core d).loc = landed ∧
              t.net.msgs = s.net.msgs ++ [r] ∧ r.dest = d ∧ r.chan = 15 ∧ r.kind = 5 ∧
              r.payload = natToBytes 8 (4 * 0x10000000000 + (core * 0x1000000 + m.seq)) ++ natToBytes 8 0)) ∧
        (bytes.length = b.bytes.length → blockCrc (m.id core) b.num bytes ≠ blockCrc (m.id core) b.num b.bytes →
          ∃ t q, exec (.engineBlockArrival core nth b.num (some bytes)) s = .next t ∧ t.cmd core nth = some q ∧
            q.bytesDone = m.bytesDone ∧ (∃ a ∈ q.blocks, a.num = b.num ∧ a.waiting = true ∧ a.failed = b.failed + 1) ∧
            q.stop = (if 2 ≤ b.failed ∧ (m.stop = none ∨ m.stop = some 0x14 ∨ m.stop = some 0x15) then some 0x16 else m.stop))) ∧
      (∀ ps, epLocal m.dst = false → m.till = 0 → m.globalBytes (s.blockWrites m b.num b.bytes) = some ps →
        let rs := if b.requests = [] then joinRuns ps else b.requests
        rs ≠ [] →
        ((∀ r ∈ rs, s.takesWrite core r = true ∧ s.foreign r.pa m.job = false) →
          ∃ t, exec (.engineBlockArrival core nth b.num none) s = .next t ∧ ∃ r ∈ rs,
            (rs = [r] → counted t) ∧
            (2 ≤ rs.length → ∃ q ∈ (t.core core).cmds, q.pos = m.pos ∧ q.bytesDone = m.bytesDone ∧
              ∃ a ∈ q.blocks, a.num = b.num ∧ a.verified = false ∧ a.requests = rs.erase r) ∧
            (m.gack = false → r.leaf.toNat < 0x8000000000000000 → t.net.updates = s.net.updates ∧
              t.mem = s.mem.writeList r.pa (keptOver r.keep r.bytes (s.mem.readList r.pa r.bytes.length))) ∧
            (m.gack = true ∨ 0x8000000000000000 ≤ r.leaf.toNat → t.mem = s.mem ∧ ∃ u, t.net.updates = s.net.updates ++ [u] ∧
              u.pa = r.pa ∧ u.bytes = r.bytes ∧ u.keep = r.keep ∧ u.gack = m.gack ∧ u.crier = none)) ∧
        ((∀ r ∈ rs, s.takesWrite core r = false) → ∃ t, exec (.engineBlockArrival core nth b.num none) s = .next t ∧
          t.mem = s.mem ∧ t.net = s.net ∧ ∃ q ∈ (t.core core).cmds, q.pos = m.pos ∧ q.bytesDone = m.bytesDone))) ∧
    (∀ blk, ∃ t q, exec (.blockResend core nth blk) s = .next t ∧ t.cmd core nth = some q ∧ t.mem = s.mem ∧
      q.blocks = m.blocks.map fun a => if a.num = blk ∧ a.waiting = true ∧ a.failed < 3 then { a with waiting := false }
        else a) ∧
    (m.stage = .accepted → m.resv = [] → m.stop = none → m.nans = 0 → m.eop ≠ 6 → s.resolved m = true →
      s.writesInForce core m = true →
      ∃ t, exec (.engineCommandComplete core nth) s = .next t ∧ t.mem = s.mem ∧
        (∀ q ∈ (t.core core).cmds, q.pos = m.pos → q.isEnded = true) ∧
        (m.rcen = true → told t 0 m.bytesDone) ∧ (m.rcen = false → t.net.msgs = s.net.msgs)) ∧
    (∀ job gid use,
      (allAgree ((s.useCmds job gid use).map (·.2)) = false ∨ (∃ a, s.job job = some a ∧ (gid, use) ∈ a.mismatched) →
        ∃ t, exec (.collMatch job gid use) s = .next t ∧ t.mem = s.mem ∧
          ∀ y ∈ t.useCmds job gid use, y.2.isEnded = false → y.2.stop ≠ none) ∧
      (allAgree ((s.useCmds job gid use).map (·.2)) = true → (∀ a, s.job job = some a → (gid, use) ∉ a.mismatched) →
        exec (.collMatch job gid use) s = .next s)) ∧
    (m.stage = .accepted → m.stop = none → m.executed = false → s.gramTurn core m = true →
      (m.eop = 5 → s.gmask core m = .ok bytes → ∃ t, exec (.grammarExecute core nth) s = .next t ∧
        t.cmd core nth = some { m with stream := bytes, executed := true } ∧ t.mem = s.mem) ∧
      (∀ ws out ps, m.eop = 6 → s.gstep core m = .ok (ws, out) → m.globalBytes ws = some ps →
        (∀ a, s.homeTakes core a = true) → ∃ t q, exec (.grammarExecute core nth) s = .next t ∧
          t.cmd core nth = some q ∧ q.executed = true ∧ q.outcome = out ∧ t.mem = s.mem ∧
          ((∀ r ∈ joinRuns ps, s.foreign r.pa m.job = false) → ∃ us, t.net.updates = s.net.updates ++ us ∧
            us.map (fun u => (u.pa, u.bytes, u.keep, u.gack)) = (joinRuns ps).map fun r => (r.pa, r.bytes, r.keep, true))) ∧
      (m.eop = 5 → s.gmask core m = .error .mismatch → ∃ t q, exec (.grammarExecute core nth) s = .next t ∧
        t.cmd core nth = some q ∧ q.stop = some 0x13) ∧
      (m.eop = 6 → s.gstep core m = .error .illegal → ∃ t q, exec (.grammarExecute core nth) s = .next t ∧
        t.cmd core nth = some q ∧ q.stop = some 0x18 ∧ t.mem = s.mem))) ∧
  ∀ (core : Nat) (m : Cmd) (h : Automaton) (g g' : GramState) (pairW mask act pairW' : Nat) (s : State),
    let load := s.gramLoad core m
    let auto := bytesToNat (m.payload.take 8) % 0x10000000000000
    let st := bytesToNat ((m.payload.drop 8).take 8) % 0x10000000000000
    let token := bytesToNat ((m.payload.drop 16).take 8) % 0x100000000
    let maskLen := (h.ntok + 127) / 128 * 16
    let pairAt (g : GramState) : Nat := auto + h.pairs + 16 * (g.q * (h.nz + 1) + g.stack.getLastD 0)
    let symbol (z : Nat) : Prop := 1 ≤ z ∧ z ≤ h.nz
    (∀ (va n : Nat) (p : Nat → TlbEntry), (∀ i, i < n → m.page (va + i) = some (p i) ∧ s.covers m (va + i, .load) = true ∧
        s.homeTakes core ((p i).place (va + i)) = true ∧ s.foreign ((p i).place (va + i)) m.job = false ∧
        s.errorAt ((p i).place (va + i)) 1 = false) →
      load va n = .ok (bytesToNat ((List.range n).map fun i => (s.view (m.viewer core) ((p i).place (va + i)) 1).headD 0))) ∧
    (∀ rest, load auto 4 = .ok h.ntok → load (auto + 4) 4 = .ok h.nq → load (auto + 8) 4 = .ok h.nz →
      load (auto + 12) 4 = .ok h.smax → load (auto + 16) 8 = .ok h.pairs → load (auto + 24) 8 = .ok h.masks →
      load (auto + 32) 8 = .ok h.acts → load (auto + 40) 24 = .ok rest →
      s.automaton core m = if 1 ≤ h.ntok ∧ h.ntok ≤ 262144 ∧ 1 ≤ h.nq ∧ h.nq ≤ 65536 ∧ 1 ≤ h.nz ∧ h.nz ≤ 65535 ∧ 1 ≤ h.smax ∧
        h.smax ≤ 4096 ∧ h.pairs % 16 = 0 ∧ h.masks % 16 = 0 ∧ h.acts % 8 = 0 ∧ rest = 0 then .ok h else .error .mismatch) ∧
    (∀ achk, load st 4 = .ok g.q → load (st + 4) 4 = .ok g.stack.length → load (st + 8) 8 = .ok achk →
      (∀ i, (hi : i < g.stack.length) → load (st + 16 + 2 * i) 2 = .ok g.stack[i]) →
      s.gramState core m h = if achk = auto ∧ g.q < h.nq ∧ g.stack.length ≤ h.smax ∧ ∀ z ∈ g.stack, 1 ≤ z ∧ z ≤ h.nz then .ok g
        else .error .mismatch) ∧
    (s.automaton core m = .ok h → s.gramState core m h = .ok g → load (pairAt g) 16 = .ok pairW →
      load (auto + h.masks + pairW % 0x100000000 * maskLen) maskLen = .ok mask →
      s.gmask core m = .ok (natToBytes m.streamBytes
        (mask % 2 ^ min h.ntok (bytesToNat ((m.payload.drop 24).take 8) / 0x100000000 % 0x80000))) ∧
      (h.ntok ≤ token ∨ mask / 2 ^ token % 2 = 0 → s.gstep core m = .error .illegal) ∧
      (token < h.ntok → mask / 2 ^ token % 2 = 1 →
        load (auto + h.acts + 8 * (pairW / 0x100000000 % 0x100000000 +
          ((List.range token).filter fun i => decide (mask / 2 ^ i % 2 = 1)).length)) 8 = .ok act →
        h.act g act = .ok g' → load (pairAt g') 16 = .ok pairW' →
        let ws := ((natToBytes 4 g'.q ++ natToBytes 4 g'.stack.length).zipIdx.map fun p => ByteWrite.mk (st + p.2) 255 p.1.toNat) ++
          (g'.stack.flatMap (natToBytes 2)).zipIdx.map fun p => ByteWrite.mk (st + 16 + p.2) 255 p.1.toNat
        (∀ w ∈ ws, s.covers m (w.addr, .store) = true) → s.gstep core m =
          .ok (ws, if pairW' / 0x1000000000000000000000000 % 2 = 1 then 1 else if pairW' / 0x10000000000000000 % 0x100000000 ≠ 0 then 0 else 2))) ∧
    (let npush := act / 0x20000 % 4
     let pop := act / 0x10000 % 2 = 1
     let kept := if pop then g.stack.dropLast else g.stack
     h.act g act = if act / 0x80000 % 0x2000 = 0 ∧ npush ≠ 3 ∧ act % 0x10000 < h.nq ∧ (1 ≤ npush → symbol (act / 0x100000000 % 0x10000)) ∧
         (npush = 2 → symbol (act / 0x1000000000000 % 0x10000)) ∧ (pop → g.stack ≠ []) ∧ kept.length + npush ≤ h.smax then
       .ok ⟨act % 0x10000, kept ++ (if npush = 0 then [] else if npush = 1 then [act / 0x100000000 % 0x10000]
         else [act / 0x100000000 % 0x10000, act / 0x1000000000000 % 0x10000])⟩ else .error .mismatch)

/-- R39, R40, R279, R283, R316, R317: the elements of a copy. Element n of the destination order is the index vector with
dimension 0 slowest, its source and destination indices the sums of R283 (n itself for every other command); a source element is
the bits of R39, in the scaled layout of R40, and is copied where the formats are the same, else decoded.
R58, R59, R318: the rounding of a destination element, its code, and the scale and codes of a scale block. Bits that all stand under
one scale are copied with it; a block that gathers bits of several scales is encoded anew (log 65, DESIGN CHOICE).
R312, R319: the bytes of a block as it travels: 256 bytes of the run of codes; the scale bytes of a group and then its element
bytes; or the part of a ring's slot, element by element at its flat position, with the scale bytes whose blocks begin in it. A last
scale block that N leaves short is formed from its elements (log 84, DESIGN CHOICE). That a ring's block travels with the part of
the slot first and its scale bytes after it is log 99 (DESIGN CHOICE).
R286, R312: a GMASK's block is 256 bytes of its mask. -/
def Obligations.BlockContents : Prop :=
  (∀ (m : Cmd) (e : Nat) (i : Nat → Nat),
     let field (off n : Nat) : Nat := bytesToNat ((m.payload.drop off).take n)
     let rank := field 16 8 % 8
     let perm (j : Nat) : Nat := field 16 8 / 2 ^ (6 + 3 * j) % 8
     let ext (d : Nat) : Nat := field (32 + 4 * d) 4
     let vector := (List.range rank).foldl (fun n j => n * ext (perm j) + i j) 0
     (m.eop ≠ 2 → e < m.total → m.srcIndex e = e ∧ m.dstIndex e = e) ∧
     (m.eop = 2 → m.total = (List.range rank).foldl (fun n d => n * ext d) 1) ∧
     (m.eop = 2 → (∀ j, j < rank → i j < ext (perm j)) →
       m.srcIndex vector = (List.range rank).foldl (fun n j => n + i j * sintN 64 (field (64 + 8 * perm j) 8)) (0 : Int) ∧
       m.dstIndex vector = (List.range rank).foldl (fun n j => n + i j * sintN 64 (field (120 + 8 * j) 8)) (0 : Int))) ∧
  (∀ (core e : Nat) (m : Cmd) (i d : Int) (byte : Int → Byte) (s : State),
     let f := m.src / 2 ^ 58 % 64
     let w := fmtBits f
     let b := fmtBlock f
     let group : Int := 16 + 2 * b * w
     let first : Int := if fmtScaled f then 8 * (i / (16 * b) * group + 16) + i % (16 * b) * w else i * w
     let scaleAt : Int := i / (16 * b) * group + i / b % 16
     (m.snapshot = [] → epLocal m.src = true → s.srcByte core m d = some ((s.core (m.src / 2 ^ 32 % 2 ^ 15)).loc.read
       (((m.src / 2 ^ 30 % 4 * 0x40000 + m.src % 2 ^ 18 : Nat) : Int) + d).toNat)) ∧
     (∀ pa, m.snapshot = [] → epLocal m.src = false → m.fetched = [] → m.phys (((m.src % 2 ^ 52 : Nat) : Int) + d).toNat = some pa →
       s.srcByte core m d = (s.view (m.viewer core) pa 1).head?) ∧
     (fmtAssigned f = true → (∀ k, first / 8 ≤ k → 8 * k < first + w → s.srcByte core m k = some (byte k)) →
       (fmtScaled f = true → s.srcByte core m scaleAt = some (byte scaleAt)) →
       ∃ c, s.srcCode core m i = some (c, if fmtScaled f then (byte scaleAt).toNat else 0) ∧ c < 2 ^ w ∧
         ∀ t, t < w → c.testBit t = (byte ((first + t) / 8)).getLsbD ((first + t) % 8).toNat) ∧
     (∀ c sc, s.srcCode core m (m.srcIndex e) = some (c, sc) → s.copyElem core m e = some (
       if f = m.dst / 2 ^ 58 % 64 then .raw c sc
       else .val (if fmtScaled f then decodeScaled m.table f sc c else decodeElem m.table f c)))) ∧
  (∀ (core q e : Nat) (m : Cmd) (job : Job) (s : State),
     let field (off n : Nat) : Nat := bytesToNat ((m.payload.drop off).take n)
     let f := m.dst / 2 ^ 58 % 64
     let round := field 24 8 / 2 ^ 29 % 4
     let x := if m.eop ≤ 2 then field 8 8 else if m.eop = 3 then field 40 8 else field 56 8
     let r (e : Nat) : Rounding := if round = 0 then .rne else if round = 1 then .rtz else
       .sto (mix (5 * 2 ^ 120 + core * 2 ^ 64 + job.launch.seed.toNat) (x * 2 ^ 64 + e) % 65536)
     core < 24576 → m.eop ≤ 4 → s.job m.job = some job →
     (∀ v, s.encodeOne core m e (.val v) = (encodeElem m.table f (r e) (field 24 8 / 2 ^ 31 % 2 = 1) v).1) ∧
     (∀ c sc, s.encodeOne core m e (.raw c sc) = c) ∧
     (∀ vs : List Val, vs ≠ [] → s.encodeBlock core m q (vs.map .val) =
       ((scaleBlock m.table f (fun i => r (q * fmtBlock f + i)) vs).1, (scaleBlock m.table f (fun i => r (q * fmtBlock f + i)) vs).2.1)) ∧
     (∀ (cs : List Nat) (sc : Nat), cs ≠ [] → s.encodeBlock core m q (cs.map fun c => .raw c sc) = (sc, cs)) ∧
     (∀ l : List (Nat × Nat), (∃ a ∈ l, ∃ b ∈ l, a.2 ≠ b.2) → fmtScaled f = true →
       let made := scaleBlock m.table f (fun i => r (q * fmtBlock f + i)) (l.map fun p => decodeScaled m.table f p.2 p.1)
       s.encodeBlock core m q (l.map fun p => .raw p.1 p.2) = (made.1, made.2.1))) ∧
  (∀ (T : Machine.DecodeTable) (f : Nat) (r : Nat → Rounding) (vs : List Val) (k : Int) (top : Val),
     let out := scaleBlock T f r vs
     let all := vs.all Val.isFinite
     let zero := vs.all Val.isZero
     let scaledBy (s : Val) : Prop := out.2.1 = vs.mapIdx fun i v => (quantise T f (r i) true v s).1
     let emax (n : Int) : Prop := (f, n) ∈ [((10 : Nat), (15 : Int)), (11, 8), (12, 4), (13, 2), (14, 2), (15, 0)] ∨
       (f ∈ [27, 28] ∧ ∃ c ≤ (if f = 27 then 255 else 15), (tableVal T c).isFinite = true ∧
         (Val.dyadic false 1 n).rat ≤ (tableVal T c).abs.rat ∧ ∀ c ≤ (if f = 27 then 255 else 15),
           (tableVal T c).isFinite = true → (tableVal T c).abs.rat < (Val.dyadic false 1 (n + 1)).rat) ∨
       (f ∈ [27, 28] ∧ n = 0 ∧ ∀ c ≤ (if f = 27 then 255 else 15), (tableVal T c).isFinite = true → (tableVal T c).isZero = true)
     (∀ v ∈ vs, ∀ sg n d, v = .fin sg n d → d ≠ 0) → fmtScaled f = true →
     (all = false → out.1 = (if fmtMx f then 0xFF else 0x7F) ∧ out.2.1 = vs.map fun _ => 0) ∧
     (all = true → zero = true → out.1 = 0 ∧ out.2.1 = (if fmtMx f then
       vs.mapIdx fun i v => (encodeElem T f (r i) true v).1 else vs.map fun _ => 0)) ∧
     (all = true → zero = false → top ∈ vs → (∀ v ∈ vs, v.abs.rat ≤ top.abs.rat) →
       (∀ n : Int, fmtMx f = true → (Val.dyadic false 1 k).rat ≤ top.abs.rat → top.abs.rat < (Val.dyadic false 1 (k + 1)).rat → emax n →
         let e := max (-127) (min 127 (k - n))
         out.1 = (e + 127).toNat ∧ scaledBy (.dyadic false 1 e)) ∧
       (∀ mx : Rat, (f, mx) ∈ [((16 : Nat), (6 : Rat)), (17, 15 / 2), (18, 7)] →
         ∃ n d, d ≠ 0 ∧ (Val.fin false n d).rat = top.abs.rat / mx ∧ out.1 = (roundTo e4m3 .rpi true (.fin false n d)).1 ∧
           scaledBy (e4m3.decode out.1)))) ∧
  (∀ (core k : Nat) (m : Cmd) (x : Nat → Elem) (s : State),
     let f := m.dst / 2 ^ 58 % 64
     let w := fmtBits f
     let b := fmtBlock f
     let made (q : Nat) : Nat × List Nat := s.encodeBlock core m q ((List.range (min b (m.total - q * b))).map fun i => x (q * b + i))
     let code (e : Nat) : Nat := if fmtScaled f then (made (e / b)).2.getD (e % b) 0 else s.encodeOne core m e (x e)
     let r := (s.core (m.dst / 2 ^ 32 % 2 ^ 15)).rings[m.ringNo]
     let ringW := if fmtOperand f ∧ w ≤ 4 then 4 else if fmtOperand f ∧ w ≤ 8 then 8 else w
     let per := 2 ^ r.slog * 8 / ringW
     let part := min 256 (2 ^ r.slog)
     m.eop ≤ 4 → fmtAssigned f = true → m.coded = [] → (m.toRing = true → 4 ≤ r.slog) →
     ∃ bytes, s.encodeElems core m k (fun e => some (x e)) = some bytes ∧
       (m.toRing = false → fmtScaled f = false →
         bytes.length = min 256 ((m.total * w + 7) / 8 - 256 * k) ∧
         ∀ i t, i < bytes.length → t < 8 → (bytes.getD i 0).getLsbD t =
           (decide ((2048 * k + 8 * i + t) / w < m.total) && (code ((2048 * k + 8 * i + t) / w)).testBit ((2048 * k + 8 * i + t) % w))) ∧
       (m.toRing = false → fmtScaled f = true →
         let n := min m.total (16 * b * (k + 1)) - 16 * b * k
         let scales := (n + b - 1) / b
         bytes.length = scales + (n * w + 7) / 8 ∧
         (∀ j, j < scales → bytes[j]? = some (BitVec.ofNat 8 (made (16 * k + j)).1)) ∧
         ∀ e t, e < n → t < w →
           (bytes.getD (scales + (e * w + t) / 8) 0).getLsbD ((e * w + t) % 8) = (code (16 * b * k + e)).testBit t) ∧
       (m.toRing = true → part ≤ bytes.length ∧ ∀ e t, t < ringW → (r.role = 2 → fmtScaled f = true → per % (32 * b) = 0) →
         let l := e % per
         let place := (if r.role = 2 ∧ fmtScaled f then (l / b / 32 * b + l % b) * 32 + l / b % 32 else l) * ringW + t
         e / per * 2 ^ r.slog / part + place / 8 / part = k →
           (bytes.getD (place / 8 % part) 0).getLsbD (place % 8) = (code e).testBit t)) ∧
  (∀ (core nth : Nat) (m : Cmd) (s : State),
     let k := m.blocks.length
     core < 24576 → s.cmd core nth = some m → m.eop = 5 → m.maySend = true → s.atHand core m = true → m.executed = true →
     k < (m.field 24 8 / 2 ^ 32 % 2 ^ 19 + 127) / 128 * 16 / 256 + (if (m.field 24 8 / 2 ^ 32 % 2 ^ 19 + 127) / 128 * 16 % 256 = 0 then 0 else 1) →
     m.unverified < 16 →
     ∃ t q, exec (.engineBlockSend core nth false) s = .next t ∧ t.cmd core nth = some q ∧ t.mem = s.mem ∧
       q.blocks = m.blocks ++ [⟨k, (m.stream.drop (256 * k)).take 256, 0, false, false, false, []⟩])

/-- R39, R40, R131, R283, R312, R319: where the bytes of a block go: each bit of an element at its destination index, each scale byte
at its block's, and every other bit stays; in a ring the part of the slot the block belongs to, behind the slots that the command
reserved, and the scale bytes, which travel behind that part (log 99, DESIGN CHOICE), in the partner's slot. The premises are the command's acceptance: no two elements at one place, scale
blocks that stay whole.
R69, R320, R321: what the destination's codec makes of the bytes of a block before it writes them, the Hadamard transforms over the
command's elements in groups of 16 or 32, also where a group's other bytes came in another block. -/
def Obligations.BlockPlaces : Prop :=
  (∀ (k : Nat) (m : Cmd) (bytes : List Byte) (old : Nat → Byte) (s : State),
     let f := m.dst / 2 ^ 58 % 64
     let w := fmtBits f
     let b := fmtBlock f
     let base : Int := if epLocal m.dst then ((m.dst / 2 ^ 30 % 4 * 0x40000 + m.dst % 2 ^ 18 : Nat) : Int) else ((m.dst % 2 ^ 52 : Nat) : Int)
     let group : Int := 16 + 2 * b * w
     let spot (e : Nat) : Int := 8 * base + (if fmtScaled f then
       8 * (m.dstIndex e / (16 * b) * group + 16) + m.dstIndex e % (16 * b) * w else m.dstIndex e * w)
     let scaleSpot (q : Nat) : Int := base + m.dstIndex (q * b) / (16 * b) * group + m.dstIndex (q * b) / b % 16
     let ws := s.blockWrites m k bytes
     let after (a : Nat) : Byte := (ws.filter fun w => w.addr == a).foldl (fun b w => w.on b) (old a)
     let n := min m.total (16 * b * (k + 1)) - 16 * b * k
     let scales := (n + b - 1) / b
     m.eop ≤ 4 → m.toRing = false → fmtAssigned f = true →
     (∀ e e', e < m.total → e' < m.total → m.dstIndex e = m.dstIndex e' → e = e') →
     (∀ e, e < m.total → 0 ≤ spot e ∧ (fmtScaled f = true → 0 ≤ scaleSpot (e / b) ∧ m.dstIndex (e / b * b) % b = 0 ∧
       m.dstIndex e = m.dstIndex (e / b * b) + (e % b : Nat))) →
     bytes.length = (if fmtScaled f then scales + (n * w + 7) / 8 else min 256 ((m.total * w + 7) / 8 - 256 * k)) →
     (fmtScaled f = false → ∀ e t, e < m.total → t < w → (e * w + t) / 2048 = k →
       (after ((spot e + t) / 8).toNat).getLsbD ((spot e + t) % 8).toNat =
         (bytes.getD ((e * w + t) / 8 - 256 * k) 0).getLsbD ((e * w + t) % 8)) ∧
     (fmtScaled f = true →
       (∀ j, j < scales → after (scaleSpot (16 * k + j)).toNat = bytes.getD j 0) ∧
       ∀ e t, e < n → t < w → (after ((spot (16 * b * k + e) + t) / 8).toNat).getLsbD ((spot (16 * b * k + e) + t) % 8).toNat =
         (bytes.getD (scales + (e * w + t) / 8) 0).getLsbD ((e * w + t) % 8)) ∧
     (∀ a t, t < 8 → (∀ e u, e < m.total → u < w → (if fmtScaled f then e / (16 * b) = k else (e * w + u) / 2048 = k) →
         spot e + u ≠ ((8 * a + t : Nat) : Int)) →
       (fmtScaled f = true → ∀ j, j < scales → scaleSpot (16 * k + j) ≠ ((a : Nat) : Int)) →
       (after a).getLsbD t = (old a).getLsbD t)) ∧
  (∀ (k : Nat) (m : Cmd) (bytes : List Byte) (old : Nat → Byte) (one two : Reservation) (s : State),
     let f := m.dst / 2 ^ 58 % 64
     let w := fmtBits f
     let b := fmtBlock f
     let c := s.core (m.dst / 2 ^ 32 % 2 ^ 15)
     let r := c.rings[m.ringNo]
     let p : Ring := c.rings[Fin.ofNat 16 (m.ringNo.val + 1)]
     let ringW := if fmtOperand f ∧ w ≤ 4 then 4 else if fmtOperand f ∧ w ≤ 8 then 8 else w
     let per := 2 ^ r.slog * 8 / ringW
     let part := min 256 (2 ^ r.slog)
     let slot := k * part / 2 ^ r.slog
     let slotAt := r.base + (one.first + slot) % 2 ^ r.clog * 2 ^ r.slog
     let pairAt := p.base + (two.first + slot) % 2 ^ p.clog * 2 ^ p.slog
     let ws := s.blockWrites m k bytes
     let after (a : Nat) : Byte := (ws.filter fun w => w.addr == a).foldl (fun b w => w.on b) (old a)
     -- the scale blocks whose first element stands in this block of the ring, in the order of the elements
     let begun := ((List.range (part * 8 / ringW)).map fun i =>
       let at' := k * part % 2 ^ r.slog * 8 / ringW + i
       let row := at' / 32
       slot * per + (if r.role = 2 then (row / b * 32 + at' % 32) * b + row % b else at')).filter fun e => e % b == 0
     m.eop ≤ 4 → m.toRing = true → fmtAssigned f = true → 4 ≤ r.slog → m.resv.head? = some one →
     slotAt + 2 ^ r.slog ≤ 0x40000 → (fmtScaled f = true → (m.resv.drop 1).head? = some two ∧ pairAt + per / b ≤ 0x40000 ∧
       (r.buf ≠ p.buf ∨ slotAt + 2 ^ r.slog ≤ pairAt ∨ pairAt + per / b ≤ slotAt)) →
     (∀ i, i < part → i < bytes.length → after (r.buf * 0x40000 + slotAt + k * part % 2 ^ r.slog + i) = bytes.getD i 0) ∧
     (fmtScaled f = true → b ∣ per → bytes.length = part + begun.length → ∀ j e, begun[j]? = some e →
       after (p.buf * 0x40000 + pairAt + e / b % (per / b)) = bytes.getD (part + j) 0) ∧
     (∀ a, (∀ i, i < part → a ≠ r.buf * 0x40000 + slotAt + k * part % 2 ^ r.slog + i) →
       (fmtScaled f = true → ∀ j, j < per / b → a ≠ p.buf * 0x40000 + pairAt + j) → after a = old a)) ∧
  (∀ (k : Nat) (m : Cmd) (bytes : List Byte) (src : Nat → List Byte) (s : State),
     let c := s.core (m.dst / 2 ^ 32 % 2 ^ 15)
     let word (l : List Byte) (i : Nat) : Nat := bytesToNat ((l.drop (4 * i)).take 4)
     let x := m.field 24 8 / 2 ^ 20 % 16
     let g := if x = 1 ∨ x = 3 then 16 else 32
     let per := if m.toRing then min 256 (2 ^ (c.rings[m.ringNo]).slog) / 4 else 64
     let group (e : Nat) : List Nat := (List.range g).map fun t => word (src ((e / g * g + t) / per)) ((e / g * g + t) % per)
     bytes.length % 4 = 0 →
     (x = 0 → s.transformed m k bytes = some bytes) ∧
     (x = 5 → ∃ out, s.transformed m k bytes = some out ∧ out.length = bytes.length ∧ ∀ i, 4 * i < bytes.length →
       word out i = (rneF32 ((fp32.decode (word bytes i)).mul (fp32.decode ((c.cwN 221).toNat % 2 ^ 32)))).1) ∧
     (x ∈ [1, 2, 3, 4] → src k = bytes →
       (∀ i t, 4 * i < bytes.length → t < g → (((k * per + i) / g * g + t) / per = k ∨
         (m.blocks.find? fun b => b.num == ((k * per + i) / g * g + t) / per).map (·.bytes) =
           some (src (((k * per + i) / g * g + t) / per)))) →
       ∃ out, s.transformed m k bytes = some out ∧ out.length = bytes.length ∧ ∀ i, 4 * i < bytes.length →
         let e := k * per + i
         word out i = (hadamard (decide (x = 3 ∨ x = 4)) (c.cwN 222).toNat (((c.cwN 223).toNat + e / g) % 2 ^ 64) (group e)).1.getD (e % g) 0))

/-- R284, R322 to R325: error feedback. A block's values are the rounded sums of its source and of the residuals of the other
region, quantised under R58 with the draws of R318; what the codes lose goes to the step's own region, +0 and an NaN block where a
value is NaN or infinite. Sending a block reads, then writes the residuals, then sends; a scale block that a ring's next block shares is
not quantised again, nor is anything at a resend. The NaN blocks of a command are reported before its completion.
R63, R64, R285, R327 to R329: a collective. A participant reads its contribution chunk by chunk, with EFQ through R322; each
element is taken to the reduction type, a reduction combines the positions in the tree, and each command writes its part, or the bits or
values of the contributions that an all-gather or a broadcast names. A use yields blocks only once it is whole and agrees. -/
def Obligations.FeedbackAndCollectives : Prop :=
  (∀ (core j : Nat) (m : Cmd) (job : Job) (s : State),
     let c := s.core core
     let field (off n : Nat) : Nat := bytesToNat ((m.payload.drop off).take n)
     let pair := if m.eop = 3 then field 32 8 else field 48 8
     let step := if m.eop = 3 then field 40 8 else field 56 8
     let source := m.src / 2 ^ 30 % 4 * 0x40000 + m.src % 2 ^ 18
     let rin := if step % 2 = 0 then pair / 2 ^ 18 % 2 ^ 18 else pair % 2 ^ 18
     let word (a : Nat) : Val := fp32.decode (bytesToNat (c.loc.readList a 4))
     let y (i : Nat) : Nat := (rneF32 ((word (source + 4 * (32 * j + i))).add (word (rin + 4 * (32 * j + i))))).1
     let ys := (List.range 32).map fun i => fp32.decode (y i)
     let f := m.dst / 2 ^ 58 % 64
     let made := scaleBlock m.table f (fun i => if field 24 8 / 2 ^ 29 % 4 = 0 then .rne else
       .sto (mix (5 * 2 ^ 120 + core * 2 ^ 64 + job.launch.seed.toNat) (step * 2 ^ 64 + (32 * j + i)) % 65536)) ys
     core < 24576 → m.eop = 3 ∨ m.eop = 4 → epLocal m.src = true → field 24 8 / 2 ^ 29 % 4 ≠ 1 → s.job m.job = some job →
     ((∃ v ∈ ys, v.isFinite = false) →
       s.efqBlock core m j = (0xFF, List.replicate 32 0, List.replicate 32 0, true)) ∧
     ((∀ v ∈ ys, v.isFinite = true) → s.efqBlock core m j = (made.1, made.2.1, (List.range 32).map (fun i =>
       (rneF32 ((ys.getD i .zero).add (decodeScaled m.table f made.1 (made.2.1.getD i 0)).neg)).1), false))) ∧
  (∀ (core nth : Nat) (m : Cmd) (s : State),
     let c := s.core core
     let k := m.blocks.length
     let field (off n : Nat) : Nat := bytesToNat ((m.payload.drop off).take n)
     let pair := if m.eop = 3 then field 32 8 else field 48 8
     let step := if m.eop = 3 then field 40 8 else field 56 8
     let rout := if step % 2 = 0 then pair % 2 ^ 18 else pair / 2 ^ 18 % 2 ^ 18
     let w := fmtBits (m.dst / 2 ^ 58 % 64)
     let stored (t : State) (from' n : Nat) : Prop :=
       (∀ i, i < 32 * n → bytesToNat ((t.core core).loc.readList (rout + 4 * (32 * from' + i)) 4) =
         (s.efqBlock core m (from' + i / 32)).2.2.1.getD (i % 32) 0) ∧
       ∀ a, a < rout + 128 * from' ∨ rout + 128 * (from' + n) ≤ a → (t.core core).loc.read a = c.loc.read a
     let noted (q : Cmd) (from' n : Nat) : Prop :=
       let bad := ((List.range n).map (from' + ·)).filter fun j => (s.efqBlock core m j).2.2.2
       q.nans = m.nans + bad.length ∧ q.firstNan = (if m.nans = 0 then bad.headD m.firstNan else m.firstNan)
     core < 24576 → s.cmd core nth = some m → m.maySend = true → s.atHand core m = true → c.loc.wf = true →
     (m.eop = 3 → k < s.blockCount m → m.unverified < 16 → s.reached m (.block k) = true → m.count % 32 = 0 →
       m.dst / 2 ^ 58 % 64 ∈ [10, 11, 14] →
       (m.toRing = false →
         let n := min (m.count / 32) (16 * (k + 1)) - 16 * k
         m.coded = [] → ∃ t q bytes, exec (.engineBlockSend core nth false) s = .next t ∧ t.cmd core nth = some q ∧ t.mem = s.mem ∧
           q.blocks = m.blocks ++ [⟨k, bytes, 0, false, false, false, []⟩] ∧ bytes.length = n * (1 + 4 * w) ∧
           (∀ j, j < n → bytes[j]? = some (BitVec.ofNat 8 (s.efqBlock core m (16 * k + j)).1) ∧ ∀ i u, i < 32 → u < w →
             (bytes.getD (n + ((32 * j + i) * w + u) / 8) 0).getLsbD (((32 * j + i) * w + u) % 8) =
               ((s.efqBlock core m (16 * k + j)).2.1.getD i 0).testBit u) ∧
           stored t (16 * k) n ∧ noted q (16 * k) n) ∧
       (m.toRing = true → (∀ j ∈ s.blockParts m k, (m.coded.find j).isSome = true) →
         ∃ t q, exec (.engineBlockSend core nth false) s = .next t ∧ t.cmd core nth = some q ∧ t.mem = s.mem ∧
           (t.core core).loc = c.loc ∧ q.nans = m.nans ∧ ∃ bytes, q.blocks = m.blocks ++ [⟨k, bytes, 0, false, false, false, []⟩])) ∧
     (∀ blk, ∃ t, exec (.blockResend core nth blk) s = .next t ∧ (t.core core).loc = c.loc) ∧
     (m.eop = 3 → m.stage = .accepted → m.resv = [] → m.stop = none → m.nans ≠ 0 → s.resolved m = true → s.writesInForce core m = true →
       c.posts = [] → c.seqReady = true →
       ∃ t r, exec (.engineCommandComplete core nth) s = .next t ∧ t.mem = s.mem ∧
         (∀ q ∈ (t.core core).cmds, q.pos = m.pos → q.isEnded = true) ∧ r.dest = core ∧ r.chan = 15 ∧ r.kind = 5 ∧
         r.payload = natToBytes 8 (5 * 2 ^ 40 + (core * 2 ^ 24 + m.seq)) ++ natToBytes 8 (m.nans * 2 ^ 32 + m.firstNan) ∧
         (m.rcen = false → t.net.msgs = s.net.msgs ++ [r]) ∧
         (m.rcen = true → ∃ d, t.net.msgs = s.net.msgs ++ [r, d] ∧ d.dest = core ∧ d.chan = m.rch ∧ d.kind = 4 ∧
           d.payload = natToBytes 8 (core * 2 ^ 24 + m.seq) ++ natToBytes 8 m.bytesDone)) ∧
     (m.eop = 4 → m.contrib.length < m.chunks → s.reached m (.chunk m.contrib.length) = true →
       let at' := m.contrib.length
       let n := min 256 (m.count - 256 * at')
       let gs := m.sourceGranules ((List.range n).map fun i => ((256 * at' + i : Nat) : Int))
       (2 ≤ gs.length → (∀ p ∈ gs, s.heldGranule core m p = none ∧ s.unreadable p false = false) →
         ∃ t q, exec (.engineBlockSend core nth false) s = .next t ∧ t.cmd core nth = some q ∧ t.mem = s.mem ∧
           q.blocks = m.blocks ∧ q.contrib = m.contrib ∧ ∃ p ∈ gs, q.fetched = m.fetched.put p.1 (s.view (m.viewer core) (p.1 * 64) 64)) ∧
       (∀ code : Nat → Nat × Nat, field 40 8 / 2 ^ 6 % 2 = 0 →
         gs.length ≤ 1 → (∀ p ∈ gs, s.heldGranule core m p = none ∧ s.unreadable p false = false) →
         (∀ i, i < n → s.srcCode core m ((256 * at' + i : Nat) : Int) = some (code i)) →
         ∃ t q, exec (.engineBlockSend core nth false) s = .next t ∧ t.cmd core nth = some q ∧ t.mem = s.mem ∧
           q.blocks = m.blocks ∧ (t.core core).loc = c.loc ∧ q.contrib = m.contrib.put at' ((List.range n).map code)) ∧
       (field 40 8 / 2 ^ 6 % 2 = 1 → epLocal m.src = true → m.count % 32 = 0 →
         ∃ t q, exec (.engineBlockSend core nth false) s = .next t ∧ t.cmd core nth = some q ∧ t.mem = s.mem ∧
           q.blocks = m.blocks ∧ stored t (8 * at') (n / 32) ∧ noted q (8 * at') (n / 32) ∧
           q.contrib = m.contrib.put at' ((List.range n).map fun i =>
             let r := s.efqBlock core m (8 * at' + i / 32)
             (r.2.1.getD (i % 32) 0, r.1)))) ∧
     (m.eop = 4 → m.contrib.length = m.chunks → k < s.blockCount m → m.unverified < 16 → s.reached m (.block k) = true →
       let l := s.useCmds m.job m.gid m.use
       let whole := 0 < m.np ∧ l.length = m.np ∧ allAgree (l.map (·.2)) = true ∧ s.mismatched m = false
       (∀ bytes, whole → (∀ a ∈ l, a.2.np = m.np) → s.encodeElems core m k (collElem l m) = some bytes →
         ∃ t q, exec (.engineBlockSend core nth false) s = .next t ∧ t.cmd core nth = some q ∧ t.mem = s.mem ∧
           q.blocks = m.blocks ++ [⟨k, bytes, 0, false, false, false, []⟩]) ∧
       (¬whole ∨ s.encodeElems core m k (collElem l m) = none → (∀ a ∈ l, a.2.np = m.np) →
         exec (.engineBlockSend core nth false) s = .next s))) ∧
  (∀ (core job gid use : Nat) (m : Cmd) (s : State), (s.cores.map (·.1)).Nodup →
     ((core, m) ∈ s.useCmds job gid use → m ∈ (s.core core).cmds) ∧
     (m ∈ (s.core core).cmds → ((core, m) ∈ s.useCmds job gid use ↔ m.eop = 4 ∧ m.job = job ∧
       bytesToNat ((m.payload.drop 32).take 8) / 2 ^ 48 % 2 ^ 16 = gid ∧ m.use = use ∧ m.stage ≠ .issued ∧ m.stage ≠ .cancelled))) ∧
  (∀ (l : List (Nat × Cmd)) (m : Cmd) (part : Nat → Nat × Cmd) (code : Nat → Nat → Nat × Nat) (ty : RedType) (e : Nat),
     let w := bytesToNat ((m.payload.drop 32).take 8)
     let op := bytesToNat ((m.payload.drop 40).take 8)
     let np := w / 2 ^ 32 % 2 ^ 16
     let fmt (p : Nat) : Nat := (part p).2.contribFmt
     let copied (p i : Nat) : Elem := if fmt p = m.dst / 2 ^ 58 % 64 then .raw (code p i).1 (code p i).2 else
       .val (if fmtScaled (fmt p) then decodeScaled (part p).2.table (fmt p) (code p i).2 (code p i).1
         else decodeElem (part p).2.table (fmt p) (code p i).1)
     let reducedAt (i : Nat) : Option Elem := (treeReduce (combine ty (op / 2 ^ 4 % 4)) 17 ((List.range np).map fun p =>
       reduceCode (part p).2.table (fmt p) (code p i))).map fun v => .val (ty.value v)
     (∀ p, p < np → part p ∈ l ∧ (part p).2.place = p ∧ ∀ x ∈ l, x.2.place = p → x = part p) →
     (∀ p i, p < np → (part p).2.contributed i = some (code p i)) → 0 < np →
     (op % 16 ≤ 1 → (∀ p, p < np → redType (fmt p) = ty) →
       collElem l m e = reducedAt (if op % 16 = 0 then e else w / 2 ^ 16 % 2 ^ 16 * (m.count / np) + e)) ∧
     (op % 16 = 2 → e < m.count * np → collElem l m e = some (copied (e / m.count) (e % m.count))) ∧
     (op % 16 = 3 → w % 2 ^ 16 < np → collElem l m e = some (copied (w % 2 ^ 16) e)) ∧
     (∀ p, fmt p = if (part p).2.efq then (part p).2.dst / 2 ^ 58 % 64 else (part p).2.src / 2 ^ 58 % 64)) ∧
  (∀ (T : Machine.DecodeTable) (f a b : Nat) (c : Nat × Nat),
     let v := if fmtScaled f then decodeScaled T f c.2 c.1 else decodeElem T f c.1
     (1 ≤ f → f ≤ 18 → redType f = .float ∧ reduceCode T f c = (rneF32 v).1) ∧
     (f ∈ [20, 22, 34, 36] → redType f = .nat) ∧ (f ∈ [19, 21, 23, 24, 33, 35] → redType f = .int) ∧
     (∀ i : Int, v = .ofInt i → f ∈ [19, 20, 21, 22, 23, 24, 33, 34, 35, 36] → reduceCode T f c = (i % 2 ^ 32).toNat) ∧
     (∀ x, RedType.value .float x = fp32.decode x ∧ RedType.value .int x = .ofInt (sintN 32 x) ∧ RedType.value .nat x = .ofInt x) ∧
     combine .float 0 a b = (rneF32 ((fp32.decode a).add (fp32.decode b))).1 ∧
     combine .float 1 a b = floatPick fp32 true a b ∧ combine .float 2 a b = floatPick fp32 false a b ∧
     combine .int 0 a b = (a + b) % 2 ^ 32 ∧ combine .nat 0 a b = (a + b) % 2 ^ 32 ∧
     combine .nat 1 a b = max a b ∧ combine .nat 2 a b = min a b ∧
     (a < 2 ^ 32 → b < 2 ^ 32 → sintN 32 (combine .int 1 a b) = max (sintN 32 a) (sintN 32 b) ∧
       sintN 32 (combine .int 2 a b) = min (sintN 32 a) (sintN 32 b))) ∧
  ∀ (f : Nat → Nat → Nat) (l : List Nat) (k x y : Nat),
    treeReduce f 17 ([] : List Nat) = none ∧ treeReduce f 17 [x] = some x ∧
    (2 ^ k < l.length → l.length ≤ 2 ^ (k + 1) → l.length ≤ 2 ^ 17 → treeReduce f 17 (l.take (2 ^ k)) = some x →
      treeReduce f 17 (l.drop (2 ^ k)) = some y → treeReduce f 17 l = some (f x y))

/-- R60 to R62, R298 to R300, R306, R307: what an element of a product, a row of A and a column of B, and an element that CSCL
scales are; the sum of R62. An empty second sum of R61 is +0 by log 23's reading (DEDUCED).
R36, R295, R296, R301, R306, R307: the arbiter starts the head of the holder's queue while its weight lasts, and then of the
next core in rank order with one, unless the power limit holds it back; a started product, CZERO, CSCL or CADD at the head of
its queue writes its tile element by element, the rest of the local buffers as before, and a product pops its rings and their
partners. That the operands are read and the tile is written in the one step of the retirement is the model's choice (log 19). -/
def Obligations.MatrixEvents : Prop :=
  (∀ fm : Nat, (fm ∈ [9, 14, 16, 18, 21, 22, 23, 24, 26, 28] → ringBits fm = 4 ∧ classK fm = 128) ∧
    (fm ∈ [5, 6, 7, 8, 10, 11, 12, 13, 15, 17, 19, 20, 25, 27] → ringBits fm = 8 ∧ classK fm = 64) ∧
    (fm ∈ [3, 4] → ringBits fm = 16 ∧ classK fm = 32) ∧ (fm ∈ [1, 2] → ringBits fm = 32 ∧ classK fm = 32) ∧
    (fmtIntGroup fm = true ↔ fm ∈ [19, 20, 21, 22, 23, 24])) ∧
  (∀ (a b : Val) (l : List Val), Val.sum [a] = a ∧ Val.sum (a :: b :: l) = Val.sum (a.add b :: l) ∧
    Val.sum [] = .fin false 0 1) ∧
  (∀ (mem : Memory) (key bit w i : Nat), bit % 8 + w ≤ (w + 7) / 8 * 8 →
    codeAt mem key bit w < 2 ^ w ∧ (i < w → codeAt mem key bit w / 2 ^ i % 2 =
      (mem.read (key + (bit + i) / 8)).toNat / 2 ^ ((bit + i) % 8) % 2)) ∧
  (∀ (T : Machine.DecodeTable) (mem : Memory) (fm k off ring po sb i j x : Nat) (tr : Bool), x < k →
    let w := ringBits fm
    let elem (key bit : Nat) : Nat := if fm = 2 then codeAt mem key bit w % 2 ^ 19 else codeAt mem key bit w
    let a := elem off (i * k * w + x * w)
    let b := elem (0x40000 + off) (if tr then j * k * w + x * w else x * 32 * w + j * w)
    (rowA mem T fm k off none i)[x]? = some (splitOperand fm (decodeElem T fm a)) ∧
    (rowA mem T fm k off (some (ring, po, sb)) i)[x]? = some (splitOperand fm (decodeScaled T fm
      (mem.read (po + i * (k / fmtBlock fm) + x / fmtBlock fm)).toNat a)) ∧
    (colB mem T tr fm k off none j)[x]? = some (splitOperand fm (decodeElem T fm b)) ∧
    (colB mem T tr fm k off (some (ring, po, sb)) j)[x]? = some (splitOperand fm (decodeScaled T fm
      (mem.read (0x40000 + (po + x / fmtBlock fm * 32 + j))).toNat b)) ∧
    (rowA mem T fm k off none i).length = k ∧ (colB mem T tr fm k off none j).length = k) ∧
  (∀ (fm : Nat) (v : Val),
    let s := splitOperand fm v
    s.val = v ∧ (fm ≠ 1 ∨ v.isFinite = false → s.hi = v ∧ s.lo = .fin false 0 1) ∧
    (fm = 1 → v.isFinite = true → s.hi = e8m10.decode (roundTo e8m10 .rtz false v).1 ∧
      s.lo = e8m10.decode (roundTo e8m10 .rne false (v.add s.hi.neg)).1)) ∧
  (∀ (fa fb old : Nat) (zc : Bool) (as bs : List Machine.Operand),
    let c : Val := if zc then .fin true 0 1 else fp32.decode old
    let update (c : Val) (terms : List Val) : Nat := (rneF32 (c.add (fp32.decode (rneF32 (Val.sum terms)).1))).1
    let plain (p : Machine.Operand × Machine.Operand) : Bool := p.1.val.isFinite && p.2.val.isFinite
    let ps := as.zip bs
    (fmtIntGroup fa = true → fmtIntGroup fb = true → productElem fa fb zc old as bs = intCode 32
      ((if zc then 0 else sintN 32 old) + (ps.map fun p => p.1.val.toInt * p.2.val.toInt).sum)) ∧
    (fmtIntGroup fa = false ∨ fmtIntGroup fb = false →
      (fa ≠ 1 → fb ≠ 1 → productElem fa fb zc old as bs = update c (ps.map fun p => p.1.val.mul p.2.val)) ∧
      (fa = 1 ∨ fb = 1 → productElem fa fb zc old as bs = update
        (fp32.decode (update c (ps.map fun p => if plain p then p.1.hi.mul p.2.hi else p.1.val.mul p.2.val)))
        ((ps.filter plain).flatMap fun p => [p.1.hi.mul p.2.lo, p.1.lo.mul p.2.hi])))) ∧
  (∀ (al be x : Nat) (isrc : Bool),
    let v : Val := if isrc then .ofInt (sintN 32 x) else fp32.decode x
    let y := rneF32 ((v.mul (fp32.decode al)).add (fp32.decode be))
    scaleElem al be isrc false x = y.1 ∧
    scaleElem al be isrc true x = (if (fp32.decode y.1).isNan = false ∧ (fp32.decode y.1).sign = true then 0 else y.1)) ∧
  (∀ (mxu h : Nat) (s : State),
    let a := s.arbiter mxu
    let holder := s.core (mxuCore mxu a.g)
    mxu < 3072 → (∀ r, r < 8 → (s.core (mxuCore mxu r)).mxBusy = false) →
    (holder.mxq ≠ [] → a.u < holder.weight → holder.throttled = true → exec (.mxuStart mxu) s = .next s) ∧
    (holder.mxq ≠ [] → a.u < holder.weight → holder.throttled = false → ∃ t, exec (.mxuStart mxu) s = .next t ∧
      t.core (mxuCore mxu a.g) = holder.startMx ∧ t.arbiter mxu = ⟨a.g, a.u + 1⟩ ∧ t.mem = s.mem) ∧
    ((holder.mxq = [] ∨ holder.weight ≤ a.u) → h < 8 → (s.core (mxuCore mxu ((a.g + 1 + h) % 8))).mxq ≠ [] →
      (∀ i, i < h → (s.core (mxuCore mxu ((a.g + 1 + i) % 8))).mxq = []) →
      (s.core (mxuCore mxu ((a.g + 1 + h) % 8))).throttled = false → ∃ t, exec (.mxuStart mxu) s = .next t ∧
      t.core (mxuCore mxu ((a.g + 1 + h) % 8)) = (s.core (mxuCore mxu ((a.g + 1 + h) % 8))).startMx ∧
      t.arbiter mxu = ⟨(a.g + 1 + h) % 8, 1⟩ ∧ t.mem = s.mem)) ∧
  ∀ (core tt q fa fb sa sb oa ob al be : Nat) (ra rb : Fin 16) (tr zc isrc relu : Bool) (pa pb : Option (Nat × Nat × Nat))
    (T : Machine.DecodeTable) (o : MxOp) (rest : List MxOp) (s : State),
    let c := s.core core
    let rows := (List.range 16).map (rowA c.loc T fa (pairK fa fb) oa pa)
    let cols := (List.range 32).map (colB c.loc T tr fb (pairK fa fb) ob pb)
    let writes (t : State) (f : Nat → Nat) : Prop := (t.core core).mxq = rest ∧ t.mem = s.mem ∧
      (∀ e, e < 512 → tileElem (t.core core).loc tt e = f e % 2 ^ 32) ∧
      ∀ k, k < locKey 2 (2048 * tt) ∨ locKey 2 (2048 * tt) + 2048 ≤ k → (t.core core).loc.read k = c.loc.read k
    core < 24576 → c.loc.wf = true → c.mxq = o :: rest → o.started = true →
    (o.work = .product tr tt zc fa fb sa sb oa ob ra.val rb.val pa pb T → ∃ t, exec (.mmaRetire core) s = .next t ∧
      writes t (fun e => productElem fa fb zc (tileElem c.loc tt e) (rows.getD (e / 32) []) (cols.getD (e % 32) [])) ∧
      (let used := [ra.val, rb.val] ++ (pa.map (·.1)).toList ++ (pb.map (·.1)).toList
       used.Nodup → (∀ i ∈ used, i < 16) → ∀ i : Fin 16, ((t.core core).rings[i]).head =
        if i.val ∈ used then ((c.rings[i]).head + 1) % 512 else (c.rings[i]).head)) ∧
    (o.work = .czero tt → ∃ t, exec (.czeroRetire core) s = .next t ∧ writes t fun _ => 0) ∧
    (o.work = .cscl tt al be isrc relu → ∃ t, exec (.csclRetire core) s = .next t ∧
      writes t fun e => scaleElem al be isrc relu (tileElem c.loc tt e)) ∧
    (o.work = .cadd tt q → ∃ t, exec (.caddRetire core) s = .next t ∧
      writes t fun e => (rneF32 ((fp32.decode (tileElem c.loc tt e)).add (fp32.decode (tileElem c.loc q e)))).1)

/-! ### Events of the host interface, launches and gangs -/

/-- R109, R110, R365, R368 to R375: doorbells move SQTAIL and CQHEAD; at its queue's turn a good launch packet, read and checked
field by field, enters the broadcast order as a new job and a bad one is refused with its reason and a record; an invalidate
takes a SEQ; ABORT marks a live launch and takes a queued one out; the host's answer to a translation fault retries or refuses
it; configuration registers of a disabled queue take their fields.
Log 43 (DEDUCED): the lowest reason is the one given, a record is held while CQEN is 0, and an entry that ABORT has removed
keeps its place until SQHEAD passes it. Log 27 (DESIGN CHOICE): the number of HEALTH among the register writes. Log 80 (DESIGN CHOICE): the place
of Slaxel in the round-robin. Log 8 (DESIGN CHOICE): the first SEQ is 1. Log 94 (DEDUCED): SQHEAD counts modulo the entry count.
Log 97 (DESIGN CHOICE): ABORT looks for a launch in the queues that are served. -/
def Obligations.HostEvents : Prop :=
  ∀ (q : Fin 64) (tail : BitVec 12) (b : List Byte) (j i core nth why p n g : Nat) (jb : Job) (tk : Token) (r : Req) (w : Word)
    (id : BitVec 64) (s : State),
    let r0 := s.queue q
    let cq := s.queue (Fin.ofNat 64 r0.cqn)
    let base := 0x10000 + 64 * q.val
    let f (off len : Nat) : Nat := bytesToNat ((b.drop off).take len)
    let l := launchOf b r0.pmax
    let im (c k : Nat) : Nat := (BitVec.ofNat 64 (f (0x100 + 32 * c + 8 * k) 8)).toNat
    let next := (r0.sqhead + 1) % 2 ^ r0.sqlog
    let room : Prop := cq.cqen = true ∧ cq.held = [] ∧ 1 ≤ cq.cqlog ∧ cq.cqlog ≤ 12 ∧
      (cq.cqtail + 2 ^ cq.cqlog - cq.cqhead % 2 ^ cq.cqlog) % 2 ^ cq.cqlog + 1 < 2 ^ cq.cqlog
    let refused (t : State) (why tag : Nat) : Prop :=
      (t.queue q).sqhead = next ∧ t.jobs = s.jobs ∧ t.iod.log = s.iod.log ∧ t.iod.turn = (q.val + 1) % 65 ∧
        (room → t.iod.vectors = s.iod.vectors ++ [cq.vec] ∧ t.mem = s.mem.writeList (cq.cqbase + 64 * cq.cqtail)
          (natToBytes 8 (f 8 8) ++ natToBytes 8 0 ++ natToBytes 8 (7 + 256 * why) ++ natToBytes 8 0 ++
            natToBytes 8 s.iod.ptime ++ natToBytes 8 tag ++ natToBytes 16 0))
    let nd := ((List.range 24).filter fun d => decide (l.dmask / 2 ^ d % 2 = 1)).length
    let ok2 : Prop := f 0 8 / 0x2000 % 8 = 0 ∧ f 0x18 8 / 0x20000000 % 8 = 0 ∧ f 0x20 8 / 0x10000000000000 % 0x1000 = 0 ∧
      f 0x28 8 / 0x10000000000000 % 0x1000 = 0 ∧ f 0x30 8 / 0x20000 % 0x800000000000 = 0 ∧ f 0x38 8 / 0x10000000000000 % 0x1000 = 0 ∧
      f 0x40 8 / 0x1000000000000 % 0x10000 = 0 ∧ f 0x48 8 / 0x1000000 % 0x10000000000 = 0 ∧
      (∀ x ∈ (b.drop 0x50).take 8, x.toNat / 16 % 8 = 0) ∧ (∀ x ∈ (b.drop 0x80).take 0x80, x = 0) ∧
      ∀ c, c < 16 → im c 0 / 0x10000000000000 % 0x1000 = 0 ∧ im c 0 % 8 = 0 ∧ im c 1 / 0x8000000 % 4 = 0 ∧ im c 1 / 0x8000 % 128 = 0 ∧
        im c 2 / 0x40000000 % 0x400000000 = 0 ∧ im c 3 / 0x40000 % 0x2000 = 0 ∧ im c 3 % 16 = 0
    let ok3 : Prop := 1 ≤ l.ng ∧ l.ng ≤ 65536 ∧ l.ghl ≤ 5 ∧ l.gwl ≤ 5 ∧ l.cred ≤ 32 ∧ 64 ≤ l.brecs ∧ l.brecs ≤ 65536 ∧
      l.dmask ≠ 0 ∧ ∀ c, c < 16 → im c 1 / 0x400000 % 4 ≠ 3 ∧
        (im c 1 / 0x400000 % 4 = 1 → im c 1 % 0x8000 < 2 ^ l.ghl * 2 ^ l.gwl) ∧
        im c 2 / 0x8000 % 512 ≤ 256 ∧ im c 2 % 512 ≤ 256 ∧
        (im c 3 / 0x80000000 % 2 = 1 → 0x80 ≤ im c 3 / 16 % 0x4000 ∧ im c 3 / 16 % 0x4000 ≤ 0x2FFF)
    let ok4 : Prop := f 0x20 8 % 128 = 0 ∧ f 0x28 8 % 65536 = 0 ∧ f 0x38 8 % 65536 = 0
    let ok5 : Prop := l.repro = true → ∀ c, c < 15 → im c 1 / 0x80000000 % 2 = 1 → im c 1 / 0x40000000 % 2 = 1
    let ok6 : Prop := f 8 8 ≠ 0 ∧ (∀ x ∈ s.jobs, x.2.launch.jobId.toNat = f 8 8 → x.2.completed = true) ∧
      ∀ h ∈ s.iod.graphs, ∀ k, h.packet = some k → pktId k ≠ f 8 8
    let ok7 : Prop := l.bufacl &&& 0x809090#24 = 0x808080#24
    (tail.toNat < 2 ^ r0.sqlog → ∃ t, exec (.sqDoorbell q tail) s = .next t ∧ t.mem = s.mem ∧
      t.queue q = { r0 with sqtail := tail.toNat } ∧ ∀ k, k ≠ q → t.queue k = s.queue k) ∧
    (2 ^ r0.sqlog ≤ tail.toNat → ∃ t, exec (.sqDoorbell q tail) s = .next t ∧ t.iod = s.iod) ∧
    (r0.held = [] → ∃ t, exec (.cqhead q tail) s = .next t ∧ t.mem = s.mem ∧
      t.queue q = { r0 with cqhead := tail.toNat }) ∧
    -- the round-robin, the head of a queue, and the fields of a launch
    (p < 65 → s.iod.turn < 65 → (s.atTurn p = true ↔
      ∀ k, k < (p + 65 - s.iod.turn) % 65 → s.canServe ((s.iod.turn + k) % 65) = false)) ∧
    (s.headPacket q = none → s.canServe q.val = false) ∧
    (s.headPacket q = some b → pktType b = 1 → (s.canServe q.val = true ↔ s.refusal b ≠ none ∨ s.hasRoom l = true)) ∧
    (r0.sqen = true → 1 ≤ r0.sqlog → r0.sqlog ≤ 12 →
      (r0.sqhead % 2 ^ r0.sqlog ≠ r0.sqtail % 2 ^ r0.sqlog → cq.cqen = false ∨ room →
        s.headPacket q = some (s.mem.readList (r0.sqbase + 4096 * (r0.sqhead % 2 ^ r0.sqlog)) 2560)) ∧
      (r0.sqhead % 2 ^ r0.sqlog = r0.sqtail % 2 ^ r0.sqlog → s.headPacket q = none)) ∧
    (r0.sqen = false → s.headPacket q = none) ∧
    (l.prio = min (f 0 8 / 256 % 8) r0.pmax ∧ l.repro = decide (f 0 8 / 0x800 % 2 = 1) ∧
      l.demand = decide (f 0 8 / 0x1000 % 2 = 1) ∧ l.retry = f 0 8 / 0x10000 % 16 ∧ l.tmo = f 0 8 / 0x100000 % 0x10000 ∧
      l.jreplay = f 0 8 / 0x1000000000 % 16 ∧ l.dmask = f 0 8 / 0x10000000000 % 0x1000000 ∧ l.jobId = BitVec.ofNat 64 (f 8 8) ∧
      l.seed = BitVec.ofNat 64 (f 0x10 8) ∧ l.ng = f 0x18 8 % 0x20000 ∧ l.ghl = f 0x18 8 / 0x20000 % 8 ∧
      l.gwl = f 0x18 8 / 0x100000 % 8 ∧ l.cred = f 0x18 8 / 0x800000 % 64 ∧ l.budget = f 0x18 8 / 0x100000000 % 0x100000000 ∧
      l.tbase = f 0x20 8 ∧ l.barrow = f 0x28 8 ∧ l.brecs = f 0x30 8 % 0x20000 ∧ l.save = f 0x38 8 ∧
      l.svclim = f 0x40 8 % 0x10000 ∧ l.jtime = f 0x40 8 / 0x10000 % 0x100000000 ∧ l.bufacl = BitVec.ofNat 24 (f 0x48 3) ∧
      l.bars = (b.drop 0x50).take 8 ∧ l.deps = (List.range 4).map (fun k => BitVec.ofNat 64 (f (0x58 + 8 * k) 8)) ∧
      l.tag = BitVec.ofNat 64 (f 0x78 8) ∧ (∀ c k, c < 16 → k < 4 → (l.image c k).toNat = im c k) ∧
      ∀ k, k < 224 → l.cws.getD k 0 = BitVec.ofNat 64 (f (0x300 + 8 * k) 8)) ∧
    -- placement and room
    (let D := (List.range 24).filter fun d => decide (l.dmask / 2 ^ d % 2 = 1)
     let nbx := 32 / 2 ^ l.gwl
     let k := (g / D.length + n) % (nbx * (32 / 2 ^ l.ghl))
     l.place n g = (D.getD ((n + g) % D.length) 0, k / nbx * 2 ^ l.ghl, k % nbx * 2 ^ l.gwl)) ∧
    (s.hasRoom l = true ↔ ∀ d, d < 24 →
      (s.jobs.map fun x => if x.2.completed then 0 else
        ((List.range x.2.launch.ng).filter fun h => (x.2.launch.place x.2.placeSeq h).1 == d).length).sum +
      ((List.range l.ng).filter fun h => (l.place (s.iod.log.length + 1) h).1 == d).length ≤ 4096) ∧
    -- the checks of a launch, the lowest reason first
    (pktType b ≠ 1 → s.refusal b = some 1) ∧
    (pktType b = 1 → (¬ok2 → s.refusal b = some 2) ∧ (ok2 → (¬ok3 → s.refusal b = some 3) ∧ (ok3 →
      (¬ok4 → s.refusal b = some 4) ∧ (ok4 → (¬ok5 → s.refusal b = some 5) ∧ (ok5 → (¬ok6 → s.refusal b = some 6) ∧
        (ok6 → (¬ok7 → s.refusal b = some 7) ∧ (ok7 → (4096 < (l.ng + nd - 1) / nd → s.refusal b = some 8) ∧
          ((l.ng + nd - 1) / nd ≤ 4096 → s.refusal b = none)))))))) ∧
    (s.atTurn q.val = false → exec (.launchPacket q) s = .next s ∧ exec (.translationInvalidate q) s = .next s) ∧
    (s.headPacket q = some b → r0.gone = [] → s.atTurn q.val = true →
      (s.refusal b = none → s.hasRoom l = true →
        ∃ t n jn, exec (.launchPacket q) s = .next t ∧ t.job n = some jn ∧ jn.launch = l ∧ jn.eprio = l.prio ∧
          jn.queue = q.val ∧ jn.seq = s.iod.log.length + 1 ∧ jn.placeSeq = jn.seq ∧ jn.stop = none ∧
          jn.completed = false ∧ jn.broadcastAt = s.iod.ptime ∧ t.iod.log = s.iod.log ++ [.launch n] ∧
          jn.deps = l.deps.filterMap (fun d => if d = 0 then none else s.liveJob d.toNat) ∧
          (t.queue q).sqhead = next ∧ t.iod.turn = (q.val + 1) % 65 ∧ t.mem = s.mem) ∧
      (s.refusal b = none → s.hasRoom l = false → exec (.launchPacket q) s = .next s) ∧
      (pktType b ≠ 2 → pktType b ≠ 3 → s.refusal b = some why →
        ∃ t, exec (.launchPacket q) s = .next t ∧ refused t why (f 0x78 8)) ∧
      (let good : Prop := pktZero b 1 8 = true ∧ pktZero b 0x20 2560 = true
       pktType b = 3 →
        (good → f 0x18 8 % 65536 = 0 → f 0x10 8 % 65536 = 0 → ∃ t tag, exec (.translationInvalidate q) s = .next t ∧
          t.iod.log = s.iod.log ++ [.invalidate (BitVec.ofNat 64 (f 8 8)) (f 0x10 8) (f 0x18 8) q.val tag] ∧
          (t.queue q).sqhead = next ∧ t.mem = s.mem) ∧
        (¬good → ∃ t, exec (.translationInvalidate q) s = .next t ∧ refused t 2 0) ∧
        (good → f 0x18 8 % 65536 ≠ 0 → ∃ t, exec (.translationInvalidate q) s = .next t ∧ refused t 3 0) ∧
        (good → f 0x18 8 % 65536 = 0 → f 0x10 8 % 65536 ≠ 0 →
          ∃ t, exec (.translationInvalidate q) s = .next t ∧ refused t 4 0))) ∧
    (s.liveJob id.toNat = some j → ∃ x, (j, x) ∈ s.jobs ∧ x.launch.jobId = id ∧ x.completed = false) ∧
    (s.liveJob id.toNat = some j → s.job j = some jb → jb.stop = none → jb.completed = false →
      ∃ t, exec (.abort id) s = .next t ∧ t.job j = some { jb with stop := some .aborted }) ∧
    (s.liveJob id.toNat = none → s.iod.graphs = [] → s.queued 1 id.toNat = some (q, i) → s.queued 2 id.toNat = none → r0.gone = [] →
      ∃ t, exec (.abort id) s = .next t ∧ t.jobs = s.jobs ∧ t.iod.log = s.iod.log ∧
        (i ≠ r0.sqhead % 2 ^ r0.sqlog → (t.queue q).gone = [i] ∧ (t.queue q).sqhead = r0.sqhead) ∧
        (i = r0.sqhead % 2 ^ r0.sqlog → (t.queue q).gone = [] ∧ (t.queue q).sqhead = next)) ∧
    ((∃ i, s.queued 1 id.toNat = some (q, i)) → r0.sqen = true ∧ r0.sqhead % 2 ^ r0.sqlog ≠ r0.sqtail % 2 ^ r0.sqlog) ∧
    (s.liveJob id.toNat = none → s.iod.graphs = [] → s.queued 1 id.toNat = none → s.queued 2 id.toNat = none → exec (.abort id) s = .next s) ∧
    (∀ token : BitVec 16, s.tokenOf token.toNat = some tk → tk.who = .request core r.seq → s.req core nth = some r →
      r.phase = .serviced tk.token → (∀ i, i < nth → ∀ q, s.req core i = some q → q.phase ≠ .serviced tk.token) →
      ∃ t1 t2 q, exec (.fqdb token true) s = .next t1 ∧ t1.req core nth = some { r with phase := .issued } ∧
        t1.tokenOf tk.token = none ∧ exec (.fqdb token false) s = .next t2 ∧ t2.req core nth = some q ∧
        q.phase = .refused ⟨if tk.cause = 1 then 0x0A else 0x09, r.op.kind, tk.level, 1, tk.cause, r.ptr⟩) ∧
    (∀ token : BitVec 16, s.tokenOf token.toNat = none → exec (.fqdb token true) s = .next s) ∧
    (r0.held = [] →
      (r0.sqen = false → (∃ t, exec (.bar0RegisterWrite base w) s = .next t ∧ t.mem = s.mem ∧
          t.queue q = { r0 with sqbase := w.toNat / 0x1000 % 0x10000000000 * 4096 }) ∧
        ∃ t, exec (.bar0RegisterWrite (base + 8) w) s = .next t ∧ t.mem = s.mem ∧
          t.queue q = { r0 with sqen := wbit w 15, pmax := wbits w 14 12, cqn := wbits w 11 6, sqlog := wbits w 3 0 }) ∧
      (r0.sqen = true → ∃ t, exec (.bar0RegisterWrite (base + 8) w) s = .next t ∧ t.mem = s.mem ∧
        t.queue q = { r0 with sqen := wbit w 15 }) ∧
      (r0.cqen = false → (∃ t, exec (.bar0RegisterWrite (base + 0x20) w) s = .next t ∧ t.mem = s.mem ∧
          t.queue q = { r0 with cqbase := w.toNat / 64 % 0x400000000000 * 64 }) ∧
        ∃ t, exec (.bar0RegisterWrite (base + 0x28) w) s = .next t ∧ t.mem = s.mem ∧
          t.queue q = { r0 with cqen := wbit w 15, vec := wbits w 14 4, cqlog := wbits w 3 0 })) ∧
    (∃ t, exec (.bar0RegisterWrite 0x100000247 w) s = .next t ∧ t.sp.rr = (s.sp.rr && wbit w 63) ∧ t.iod = s.iod) ∧
    (s.iod.fq.en = false → ∃ t, exec (.bar0RegisterWrite 0x10 w) s = .next t ∧ t.iod.fq.en = wbit w 12 ∧
      t.iod.fq.base = w.toNat / 0x2000 % 0x8000000000 * 8192 ∧ t.iod.fq.vec = wbits w 10 0) ∧
    ∃ t, exec (.bar0RegisterWrite 0x30 w) s = .next t ∧ t.mem = s.mem ∧ t.iod.fq.head = w.toNat % 256

/-- R369, R372, R373, R376 to R378: a graph packet is checked, its table node by node, and refused with the node and reason or
started at node 0; GEVENT, or the completion of its kernel, moves an instance to its next node: a conditional and a loop choose
theirs, an event with WAIT waits, a kernel's packet is copied, checked and entered at Slaxel's turn where there is room, an END
or the 65th node without a kernel finishes it, as does a kernel that ended with another STATUS; ABORT ends an instance with its kernel, also
where its number is a live launch's too, or drops its waiting kernel.
Logs 43 and 73 (DEDUCED): a reserved field of the packet has REASON 0x02, a GID of 0 or of an instance that runs REASON 0x06, and
the numbers of instances and of launches are apart. R361 to R363: a predicate word is read at its home; log 95 (DEDUCED): while
that does not take the read the instance stays at its node, and an error of an unprotected word ends it.
Log 56 (DEDUCED): which records an instance leaves. Log 80 (DESIGN CHOICE): the place of Slaxel in the round-robin. -/
def Obligations.GraphEvents : Prop :=
  ∀ (q : Fin 64) (b p : List Byte) (id : BitVec 64) (g : Graph) (n e e' : Node) (i j : Nat) (jb : Job) (s : State),
    let r0 := s.queue q
    let cq := s.queue (Fin.ofNat 64 r0.cqn)
    let gid := bytesToNat ((b.drop 8).take 8)
    let base := pktField b 0x10 8
    let nn := pktField b 0x18 8
    let raw (i : Nat) : List Byte := s.mem.readList (base + 64 * i) 64
    let next := (r0.sqhead + 1) % 2 ^ r0.sqlog
    let room : Prop := cq.cqen = true ∧ cq.held = [] ∧ 1 ≤ cq.cqlog ∧ cq.cqlog ≤ 12 ∧
      (cq.cqtail + 2 ^ cq.cqlog - cq.cqhead % 2 ^ cq.cqlog) % 2 ^ cq.cqlog + 1 < 2 ^ cq.cqlog
    let refused (t : State) (why node : Nat) : Prop :=
      (t.queue q).sqhead = next ∧ t.jobs = s.jobs ∧ t.iod.log = s.iod.log ∧ t.iod.graphs = s.iod.graphs ∧
        (room → t.mem = s.mem.writeList (cq.cqbase + 64 * cq.cqtail)
          (natToBytes 8 gid ++ natToBytes 8 0 ++ natToBytes 8 (7 + 256 * why + 65536 * node) ++ natToBytes 8 0 ++
            natToBytes 8 s.iod.ptime ++ natToBytes 8 (pktField b 0x78 8) ++ natToBytes 16 0))
    let headerOk : Prop := pktZero b 1 8 = true ∧ pktZero b 0x20 0x78 = true ∧ pktZero b 0x80 2560 = true ∧ base % 64 = 0 ∧
      base < 2 ^ 52 ∧ nn < 8192
    let nodesOk : Prop := ∀ i, i < nn → nodeOk (raw i) nn = true
    (s.atTurn q.val = false → exec (.graphPacket q) s = .next s) ∧
    (s.headPacket q = some b → pktType b = 2 → r0.gone = [] → s.atTurn q.val = true →
      (¬headerOk → ∃ t, exec (.graphPacket q) s = .next t ∧ refused t 2 0) ∧
      (headerOk → nn = 0 ∨ 4096 < nn → ∃ t, exec (.graphPacket q) s = .next t ∧ refused t 3 0) ∧
      (headerOk → 1 ≤ nn → nn ≤ 4096 →
        (64 ≤ s.iod.graphs.length → exec (.graphPacket q) s = .next s) ∧
        (s.iod.graphs.length < 64 →
          (i < nn → nodeOk (raw i) nn = false → (∀ k, k < i → nodeOk (raw k) nn = true) →
            ∃ t, exec (.graphPacket q) s = .next t ∧ refused t 3 i) ∧
          (nodesOk → gid = 0 ∨ s.graphOf (BitVec.ofNat 64 gid) ≠ none →
            ∃ t, exec (.graphPacket q) s = .next t ∧ refused t 6 0) ∧
          (nodesOk → gid ≠ 0 → s.graphOf (BitVec.ofNat 64 gid) = none → (nodeOf (raw 0)).kind = 3 →
            (nodeOf (raw 0)).flag = true →
            ∃ t h, exec (.graphPacket q) s = .next t ∧ t.graphOf (BitVec.ofNat 64 gid) = some h ∧ h.waiting = true ∧
              h.node = 0 ∧ h.nodes = (List.range nn).map (fun i => nodeOf (raw i)) ∧ h.queue = q.val ∧
              h.tag = BitVec.ofNat 64 (pktField b 0x78 8) ∧ (t.queue q).sqhead = next ∧ t.iod.log = s.iod.log)))) ∧
    (s.graphOf id = some g → g.nodes[g.node]? = some n → g.nodes[n.next]? = some e → g.waiting = true →
      (e.kind = 4 → g.run < 64 → ∃ t, exec (.gevent id) s = .next t ∧ t.graphOf id = none ∧ t.jobs = s.jobs) ∧
      (e.kind ≠ 0 → (e.kind = 1 → s.slaxelReads e.addr = true) → 64 ≤ g.run →
        ∃ t, exec (.gevent id) s = .next t ∧ t.graphOf id = none ∧ t.jobs = s.jobs) ∧
      (e.kind = 1 → s.slaxelReads e.addr = false → ∃ t h, exec (.gevent id) s = .next t ∧ t.graphOf id = some h ∧
        h.node = n.next ∧ h.waiting = false ∧ h.job = none ∧ h.run = g.run ∧ t.jobs = s.jobs ∧ t.mem = s.mem) ∧
      (e.kind = 1 → s.slaxelReads e.addr = true → s.errorAt e.addr 8 = true → s.dataUnit e.addr = false →
        ∃ t, exec (.gevent id) s = .next t ∧ t.graphOf id = none ∧ t.jobs = s.jobs) ∧
      (e'.kind = 3 → e'.flag = true → g.run < 63 →
        (let next := if s.mem.readNat e.addr 8 ≠ 0 then e.next else e.alt
         e.kind = 1 → s.slaxelReads e.addr = true → s.errorAt e.addr 8 = false ∨ s.dataUnit e.addr = true →
          g.nodes[next]? = some e' → ∃ t h, exec (.gevent id) s = .next t ∧ t.graphOf id = some h ∧
          h.node = next ∧ h.waiting = true ∧ h.run = g.run + 2) ∧
        (let c := (g.counts.find n.next).getD 0
         let next := if c < e.max then e.alt else e.next
         e.kind = 2 → g.nodes[next]? = some e' → ∃ t h, exec (.gevent id) s = .next t ∧ t.graphOf id = some h ∧
          h.node = next ∧ h.waiting = true ∧ h.counts.find n.next = some (if c < e.max then c + 1 else 0)))) ∧
    (s.graphOf id = some g → g.waiting = false → exec (.gevent id) s = .next s) ∧
    (∀ pa, s.slaxelReads pa = true ↔ s.mdNow (pa / 256 % 8) / 0x40000000 ≠ 1 ∧ s.unitLost pa = false) ∧
    (s.graphOf id = some g → g.waiting = false → g.job = none → g.packet = none → g.nodes[g.node]? = some e → e.kind = 1 →
      (s.slaxelReads e.addr = false → ∃ t, exec (.graphKernelComplete id) s = .next t ∧ t.graphOf id = some g ∧ t.jobs = s.jobs) ∧
      (let next := if s.mem.readNat e.addr 8 ≠ 0 then e.next else e.alt
       s.slaxelReads e.addr = true → s.errorAt e.addr 8 = false ∨ s.dataUnit e.addr = true → g.run < 63 →
        g.nodes[next]? = some e' → e'.kind = 3 → e'.flag = true → ∃ t h, exec (.graphKernelComplete id) s = .next t ∧
          t.graphOf id = some h ∧ h.node = next ∧ h.waiting = true)) ∧
    (s.graphOf id = none → exec (.gevent id) s = .next s) ∧
    (s.graphOf id = some g → g.waiting = false → g.job = some j → s.job j = some jb → jb.completed = true →
      (jb.stop ≠ none → ∃ t, exec (.graphKernelComplete id) s = .next t ∧ t.graphOf id = none ∧ t.jobs = s.jobs) ∧
      (jb.stop = none → g.nodes[g.node]? = some n → g.nodes[n.next]? = some e →
        (e.kind = 4 → g.run < 64 →
          ∃ t, exec (.graphKernelComplete id) s = .next t ∧ t.graphOf id = none ∧ t.jobs = s.jobs) ∧
        (let k := s.mem.readList e.addr 2560
         let l := launchOf k (s.queue (Fin.ofNat 64 g.queue)).pmax
         e.kind = 0 →
          (s.refusal k ≠ none →
            ∃ t, exec (.graphKernelComplete id) s = .next t ∧ t.graphOf id = none ∧ t.jobs = s.jobs) ∧
          (s.refusal k = none → s.atTurn 64 = true → s.hasRoom l = true →
            ∃ t h m jn, exec (.graphKernelComplete id) s = .next t ∧ t.graphOf id = some h ∧ h.node = n.next ∧
              h.run = 0 ∧ h.job = some m ∧ h.packet = none ∧ t.job m = some jn ∧ jn.launch = l ∧ jn.graph = some id ∧
              jn.queue = g.queue ∧ t.iod.log = s.iod.log ++ [.launch m]) ∧
          (s.refusal k = none → s.atTurn 64 = false ∨ s.hasRoom l = false →
            ∃ t h, exec (.graphKernelComplete id) s = .next t ∧ t.graphOf id = some h ∧ h.node = n.next ∧
              h.job = none ∧ h.packet = some k ∧ t.jobs = s.jobs ∧ t.iod.log = s.iod.log)))) ∧
    (s.graphOf id = some g → g.waiting = false → g.job = none → g.packet = some p →
      (let l := launchOf p (s.queue (Fin.ofNat 64 g.queue)).pmax
       (s.atTurn 64 = true → s.hasRoom l = true →
        ∃ t h m jn, exec (.graphKernelComplete id) s = .next t ∧ t.graphOf id = some h ∧ h.job = some m ∧
          h.packet = none ∧ t.job m = some jn ∧ jn.launch = l ∧ jn.graph = some id ∧ t.iod.turn = 0 ∧
          t.iod.log = s.iod.log ++ [.launch m]) ∧
       (s.atTurn 64 = false ∨ s.hasRoom l = false →
        ∃ t, exec (.graphKernelComplete id) s = .next t ∧ t.graphOf id = some g ∧ t.jobs = s.jobs))) ∧
    (s.graphOf id = some g → ∃ t, exec (.abort id) s = .next t ∧ t.graphOf id = none ∧
      (g.job = some j ∨ s.liveJob id.toNat = some j → s.job j = some jb → jb.stop = none → jb.completed = false →
        t.job j = some { jb with stop := some .aborted })) ∧
    (s.liveJob id.toNat = none → s.graphOf id = none → g ∈ s.iod.graphs → g.packet = some p → pktId p = id.toNat →
      (∀ k ∈ s.iod.graphs, ∀ x, k.packet = some x → pktId x = id.toNat → k = g) →
      ∃ t, exec (.abort id) s = .next t ∧ t.graphOf g.gid = none ∧ t.jobs = s.jobs ∧ t.iod.log = s.iod.log)

/-- R22, R23, R25, R26, R109, R110, R141, R360, R361, R373: a unit acts on the entries of the broadcast order in their order: a
die takes the gangs a launch places on it, a map update or an invalidate, which drops every matching translation it holds; the
cores of a die that a spare takes work again, and an update of an MD's entry ends the requests outstanding to it; an invalidate
completes once every unit has acted on it and nothing translated before it is under way.
Log 45 (DEDUCED): what a unit sees of the maps is the entries it has applied. Log 15 (DEDUCED): MAPGEN of a core is the sum of
its own count and its die's. Log 31 (DESIGN CHOICE): CYCLES of a core whose die a spare takes is a free value. Log 8 (DESIGN
CHOICE): the entry at place n of the order has SEQ n + 1. -/
def Obligations.BroadcastEvents : Prop :=
  ∀ (die j c va len q n x : Nat) (e : BitVec 8) (w : BitVec 32) (id tag : Word) (m : MapChange) (b : Job) (s : State),
    let next := s.nextEntry die
    die < 24 →
    ((s.die die).applied ≤ next ∧ (∀ k, (s.die die).applied ≤ k → k < next → ∃ i, s.iod.log[k]? = some (.completion i)) ∧
      ∀ i, s.iod.log[next]? ≠ some (.completion i)) ∧
    (s.iod.xdEntry 0 x = (s.iod.dieMap.toList.getD x 0).toNat ∧ s.iod.mdEntry 0 x = (s.iod.mdMap.toList.getD x 0).toNat ∧
      (s.iod.log[n]? = some (.map (.xd c w)) → s.iod.mdEntry (n + 1) x = s.iod.mdEntry n x ∧
        s.iod.xdEntry (n + 1) x = if c = x then w.toNat else s.iod.xdEntry n x) ∧
      (s.iod.log[n]? = some (.map (.md c w)) → s.iod.xdEntry (n + 1) x = s.iod.xdEntry n x ∧
        s.iod.mdEntry (n + 1) x = if c = x then w.toNat else s.iod.mdEntry n x) ∧
      ((∀ i v, s.iod.log[n]? ≠ some (.map (.xd i v)) ∧ s.iod.log[n]? ≠ some (.map (.md i v))) →
        s.iod.xdEntry (n + 1) x = s.iod.xdEntry n x ∧ s.iod.mdEntry (n + 1) x = s.iod.mdEntry n x)) ∧
    (s.iod.log[next]? = some (.launch j) → s.job j = some b → b.stopped = false → b.completed = false →
      b.seq = next + 1 → ∃ t, exec (.dieApplyLaunch die) s = .next t ∧ (t.die die).applied = next + 1 ∧
        t.gangs = s.gangs ++ b.gangsOn j die ∧ t.mem = s.mem) ∧
    (s.iod.log[next]? = some (.launch j) → s.job j = some b → b.stopped = true ∨ b.completed = true ∨ b.seq ≠ next + 1 →
      ∃ t, exec (.dieApplyLaunch die) s = .next t ∧ (t.die die).applied = next + 1 ∧ t.gangs = s.gangs) ∧
    (∀ x ∈ b.gangsOn j die, x.job = j ∧ x.die = die ∧ x.state = .queued ∧
      (x.die, x.row0, x.col0) = b.launch.place b.placeSeq x.g) ∧
    (∀ g, g < b.launch.ng → (b.launch.place b.placeSeq g).1 = die → ∃ x ∈ b.gangsOn j die, x.g = g) ∧
    (s.iod.log[next]? = some (.map (.core c e)) → dieOf c = die →
      ∃ t, exec (.mapUpdate die) s = .next t ∧ (t.die die).applied = next + 1 ∧ (t.die die).coreMap.find c = some e ∧
        (t.core c).mapgen = (if s.coreEntry c = e.toNat then (s.core c).mapgen else (s.core c).mapgen + 1)) ∧
    (s.iod.log[next]? = some (.map (.xd x w)) →
      (x ≠ die ∨ s.iod.xdEntry next x = w.toNat → ∃ t, exec (.mapUpdate die) s = .next t ∧
        (t.die die).applied = next + 1 ∧ (t.die die).mapgen = (s.die die).mapgen ∧ t.cores = s.cores) ∧
      (x = die → s.iod.xdEntry next x ≠ w.toNat → ∃ t, exec (.mapUpdate die) s = .next t ∧
        (t.die die).applied = next + 1 ∧ (t.die die).mapgen = (s.die die).mapgen + 1 ∧
        (s.iod.xdEntry next x / 2 ^ 30 = 1 → w.toNat / 2 ^ 30 ≠ 1 → (t.die die).coreMap = [] ∧ (t.die die).csUsed = [] ∧
          ∀ n, dieOf n = die → (t.core n).life = .alive) ∧
        (s.iod.xdEntry next x / 2 ^ 30 ≠ 1 ∨ w.toNat / 2 ^ 30 = 1 → t.cores = s.cores))) ∧
    (s.iod.log[next]? = some (.map (.md x w)) → ∃ t, exec (.mapUpdate die) s = .next t ∧ (t.die die).applied = next + 1 ∧
      (t.die die).mapgen = (if s.iod.mdEntry next x = w.toNat then (s.die die).mapgen else (s.die die).mapgen + 1) ∧
      (∀ k, dieOf k ≠ die → t.core k = s.core k) ∧
      ((s.cores.map (·.1)).Nodup → ∀ k, dieOf k = die → ∀ r ∈ (t.core k).reqs, r.awaits x = false)) ∧
    (∀ u, 24 ≤ u → u < 32 → s.iod.log[s.nextEntry u]? = some (.map m) →
      ∃ t, exec (.mapUpdate u) s = .next t ∧ t.iod.mdApplied.toList.getD (u - 24) 0 = s.nextEntry u + 1 ∧
        t.cores = s.cores ∧ t.dies = s.dies) ∧
    (s.iod.log[next]? = some (.invalidate id va len q tag) →
      ∃ t, exec (.translationInvalidateApply die) s = .next t ∧ (t.die die).applied = next + 1 ∧ t.mem = s.mem ∧
        (∀ k ∈ (t.die die).tlb, k.job ∈ s.jobsNamed id → k.within va len = false) ∧
        (∀ n, dieOf n = die → ∀ k ∈ (t.core n).tlb, k.job ∈ s.jobsNamed id → k.within va len = false) ∧
        ∀ n, dieOf n ≠ die → t.core n = s.core n) ∧
    (s.iod.log[n]? = some (.invalidate id va len q tag) → n + 1 ∉ s.iod.invalidated →
      (∀ u, u < 32 → n + 1 ≤ s.nextEntry u) →
      (∀ p ∈ s.cores, (∀ r ∈ p.2.reqs, r.stale (s.jobsNamed id) (n + 1) va len = false) ∧
        ∀ k ∈ p.2.cmds, k.isEnded = true ∨ n + 1 ∉ k.stale) →
      ∃ t, exec (.invalidateComplete (n + 1)) s = .next t ∧ t.iod.invalidated = s.iod.invalidated ++ [n + 1]) ∧
    (∀ u, u < 32 → s.nextEntry u < n + 1 → exec (.invalidateComplete (n + 1)) s = .next s)

/-- R101, R105 to R107, R109, R111, R113 to R115, R127, R128, R370, R371, R374: a gang starts on a free block that no gang ahead
of it in the queue of its die waits for, with its registers and window as the packet gives them and a start message in channel 0
of each core, but none where WLOCK refuses it; it completes when its cores have retired, their messages are accepted and nothing
is outstanding, also in the first step of a pre-emption, which then saves nothing, and later; a job completes with its gangs, by a
record of its first SEQ (log 44, DEDUCED); a gang of higher priority pre-empts those without a core stopped for debug, unless one
of the die is being saved, and the pre-empted gang
is saved, its buffers zeroed, and restored where its block is free again, its cores to take in their Barrow records first. The bytes
of the save area are free values, the model's choice (log 22). -/
def Obligations.GangEvents : Prop :=
  ∀ (j g die : Nat) (x y : Gang) (b : Job) (s : State),
    let cores := x.cores b.launch
    let size := 2 ^ b.launch.ghl * 2 ^ b.launch.gwl
    let cq := s.queue (Fin.ofNat 64 (s.queue (Fin.ofNat 64 b.queue)).cqn)
    let fits : Prop := x.die < 24 ∧ x.row0 + 2 ^ b.launch.ghl ≤ 32 ∧ x.col0 + 2 ^ b.launch.gwl ≤ 32
    (s.ahead x y = true ↔ s.priority y < s.priority x ∨ (s.priority x = s.priority y ∧ (s.seqOf x < s.seqOf y ∨
      (s.seqOf x = s.seqOf y ∧ x.g < y.g)))) ∧
    (s.grantable x b = true ↔ b.stop = none ∧ b.replaying = false ∧ (∀ d ∈ b.deps, s.sawCompletion x.die d = true) ∧
      s.xdDown x.die x.die = false ∧ (∀ n ∈ cores, (s.core n).gang = none ∧ (s.core n).life = .alive ∧
        s.coreEntryDown n = false ∧ (s.core n).late = []) ∧
      ∀ z ∈ s.gangs, z.die = x.die → z.waits = true → s.ahead z x = true → s.blocksMeet x z = false) ∧
    (s.gang j g = some x → s.job j = some b →
    cores.length = size ∧ b.launch.size = size ∧
    (x.state = .queued → s.grantable x b = false → exec (.gangGrant j g) s = .next s) ∧
    (x.state = .queued → s.grantable x b = true → fits →
      (∀ z ∈ s.gangs, z.job = j → z.started = true → z.g ≠ g → ∀ n ∈ cores, z.covers b.launch n = false) →
      (b.launch.image 0 1).toNat / 2 ^ 30 % 2 = 0 →
      ∃ t z, exec (.gangGrant j g) s = .next t ∧ t.gang j g = some z ∧ z.state = .running ∧ z.retired = [] ∧
        t.mem = s.mem ∧ ∀ r, r < size →
          let n := x.die * 1024 + (x.row0 + r / 2 ^ b.launch.gwl) * 32 + (x.col0 + r % 2 ^ b.launch.gwl)
          let u := t.core n
          u.gang = some (j, g) ∧ u.rank = r ∧ u.rings = Vector.replicate 16 Ring.zero ∧ u.bufacl = b.launch.bufacl ∧
          u.taskCount = 0 ∧ u.task = none ∧ u.spcred = (if b.launch.cred = 0 then 8 else b.launch.cred) ∧
          u.fault = FaultRegs.zero ∧ u.jobattr = b.launch.repro ∧ u.jobBudget = b.launch.budget ∧ u.lastChan = 14 ∧
          (∀ k : Fin 16,
            let img := b.launch.image k.val 1
            let writer := img.toNat % 2 ^ 15
            let mode := img.toNat / 2 ^ 22 % 4
            (u.chans[k]).hnd = b.launch.image k.val 0 &&& 0x000FFFFFFFFFFFF8#64 ∧
            (u.chans[k]).cond = b.launch.image k.val 2 &&& 0x3FFFFFFF#64 ∧
            (u.chans[k]).till = b.launch.image k.val 3 &&& 0xFFFFFFFF8003FFF0#64 ∧
            (u.chans[k]).ctl = (img &&& 0xFFFFFFFFE7000000#64) |||
              (BitVec.ofNat 64 (if mode = 1 then x.coreOf (2 ^ b.launch.gwl) writer else if mode = 2 then n else writer)) |||
              (if k = 15 then 0x07000000#64 else 0)) ∧
          (∀ k, k < 224 → u.cwN k = b.launch.cws.getD k 0) ∧
          (∀ k, k < 32 → u.cwN (224 + k) = [word n, word n, word g, word r, word size, b.launch.jobId, b.launch.seed,
            word (r * 2 ^ 48)].getD k 0) ∧
          ((s.core n).posts = [] → (s.core n).seqReady = true →
            ∃ m, (u.chans[0]).queue = [m] ∧ m.dest = n ∧ m.src = n ∧ m.chan = 0 ∧ m.kind = 4 ∧ m.payload = [] ∧
              m.seq = (s.core n).seqctr) ∧
          ∀ k : Fin 16, k ≠ 0 → (u.chans[k]).queue = []) ∧
    (let ctl := (b.launch.image 0 1).toNat
     x.state = .queued → s.grantable x b = true → fits →
      (∀ z ∈ s.gangs, z.job = j → z.started = true → z.g ≠ g → ∀ n ∈ cores, z.covers b.launch n = false) →
      ctl / 2 ^ 30 % 2 = 1 → ctl / 2 ^ 29 % 2 = 0 → ctl / 2 ^ 22 % 4 = 0 → ctl % 2 ^ 15 ∉ cores →
      (∀ n ∈ cores, (s.core n).posts = [] ∧ (s.core n).seqReady = true) →
      ∃ t z, exec (.gangGrant j g) s = .next t ∧ t.gang j g = some z ∧ z.state = .running ∧ t.mem = s.mem ∧
        t.job j = some { b with discarded := b.discarded + size } ∧
        ∀ n ∈ cores, ((t.core n).chans[0]).queue = [] ∧ (t.core n).posts = []) ∧
    (x.started = true → x.retired.length = size → x.charged = false →
      (∀ n ∈ cores, (x.state = .saved ∨ (s.core n).task = none ∧ (s.core n).outbox = [] ∧ (s.core n).posts = [] ∧
        (s.core n).outstanding = 0 ∧ (s.core n).late = []) ∧ ∀ m ∈ s.net.msgs, m.job = j → m.src = n → m.kind = 4 ∨ m.kind = 5) →
      ∃ t z, exec (.gangComplete j g) s = .next t ∧ t.gang j g = some z ∧ z.state = .complete ∧ t.mem = s.mem ∧
        ∀ n, (t.core n).gang = if n ∈ cores ∧ (s.core n).gang = some (j, g) then none else (s.core n).gang) ∧
    (∀ n ∈ cores, ∀ m ∈ s.net.msgs, m.job = j → m.src = n → m.kind ≠ 4 → m.kind ≠ 5 →
      exec (.gangComplete j g) s = .next s) ∧
    (b.completed = false → b.replaying = false → b.stop = none → s.gangsDone j b = true → s.jobQuiet j = true →
      ∃ t, exec (.jobCompletionRecord j) s = .next t ∧ t.job j = some { b with completed := true } ∧
        t.iod.log = s.iod.log ++ [.completion j] ∧ (∀ z ∈ t.gangs, z.job ≠ j) ∧ (∀ r ∈ t.resid, r.job ≠ j) ∧
        (∀ r ∈ t.replicas, r.job ≠ j) ∧ (∀ l ∈ t.net.lags, l.job ≠ j) ∧
        (b.graph = none → cq.cqen = true → cq.held = [] → 1 ≤ cq.cqlog → cq.cqlog ≤ 12 →
          (cq.cqtail + 2 ^ cq.cqlog - cq.cqhead % 2 ^ cq.cqlog) % 2 ^ cq.cqlog + 1 < 2 ^ cq.cqlog →
          t.iod.vectors = s.iod.vectors ++ [cq.vec] ∧ t.mem = s.mem.writeList (cq.cqbase + 64 * cq.cqtail)
            (natToBytes 8 b.launch.jobId.toNat ++ natToBytes 8 b.placeSeq ++
              natToBytes 8 (b.discarded % 2 ^ 32 * 2 ^ 32) ++ natToBytes 8 (b.replays % 65536) ++
              natToBytes 8 s.iod.ptime ++ natToBytes 8 b.launch.tag.toNat ++ natToBytes 16 0))) ∧
    (die < 24 → s.headGang die = some x → s.blockers x b ≠ [] →
      (∀ z ∈ s.blockers x b, s.priority z < s.priority x) →
      (∀ n ∈ cores, (s.core n).gang.isSome = true ∨ s.coreFree n = true) → b.stop = none → b.replaying = false →
      s.depsMet die b = true → s.xdDown die die = false → (∀ z ∈ s.gangs, z.die = die → z.state ≠ .saving) →
      ∃ t, exec (.preemptStart die) s = .next t ∧ t.cores = s.cores ∧ t.mem = s.mem ∧
        (y ∈ s.blockers x b → y.state = .running → (∀ n ∈ s.coresOf y, (s.core n).dbg.halted = false) →
          { y with state := .preempting } ∈ t.gangs) ∧
        (y ∈ s.gangs → (∃ n ∈ s.coresOf y, (s.core n).dbg.halted = true) → y ∈ t.gangs)) ∧
    (die < 24 → s.headGang die = some x → (∃ z ∈ s.blockers x b, s.priority x ≤ s.priority z) →
      exec (.preemptStart die) s = .next s) ∧
    (die < 24 → (∃ z ∈ s.gangs, z.die = die ∧ z.state = .saving) → exec (.preemptStart die) s = .next s) ∧
    (x.state = .preempting → (∀ n ∈ cores, (s.core n).task = none ∧ (s.core n).settled = true ∧ (s.core n).outbox = [] ∧
        (s.core n).posts = [] ∧ (s.core n).late = [] ∧ (s.core n).dbg.halted = false ∧
        ∀ m ∈ s.net.msgs, m.kind = 4 → m.dest = n → m.record = true) → s.gangFinished x b = false →
      let area := b.launch.save + g * size * 589824
      ∃ t z, exec (.preemptSave j g) s = .next t ∧ t.gang j g = some z ∧ z.state = .saving ∧
        z.saved = cores.map (fun n => ⟨(s.core n).loc, (s.core n).rings, (s.core n).chans, (s.core n).spcred,
          (s.core n).taskCount, (s.core n).bufacl, (s.core n).fault⟩) ∧ t.cores = s.cores ∧
        (s.mem.wf = true → ∀ a, a < area ∨ area + size * 589824 ≤ a → t.mem.read a = s.mem.read a)) ∧
    ((∃ n ∈ cores, (s.core n).dbg.halted = true) ∨ s.gangFinished x b = true → exec (.preemptSave j g) s = .next s) ∧
    (x.state = .saving → x.charged = false →
      ∃ t z, exec (.preemptSaveComplete j g) s = .next t ∧ t.gang j g = some z ∧ z.state = .saved ∧
        ∀ n ∈ cores, (t.core n).gang = none ∧ (t.core n).loc = [] ∧ (t.core n).rings = Vector.replicate 16 Ring.zero ∧
          (t.core n).bufacl = 0xFFEFEF#24) ∧
    (x.state = .saved → s.grantable x b = true → x.charged = false → x.saved.length = size → fits →
      ∃ t z, exec (.gangResume j g) s = .next t ∧ t.gang j g = some z ∧ z.state = .running ∧ z.saved = [] ∧
        z.resuming = List.range size ∧ t.mem = s.mem ∧ ∀ r k, r < size → x.saved[r]? = some k →
          let u := t.core (x.coreOf (2 ^ b.launch.gwl) r)
          u.gang = some (j, g) ∧ u.rank = r ∧ u.loc = k.loc ∧ u.rings = k.rings ∧ u.spcred = k.spcred ∧
          u.taskCount = k.taskCount ∧ u.bufacl = k.bufacl ∧ u.fault = k.fault ∧ u.lastChan = 14 ∧
          ∀ i : Fin 16, (u.chans[i]).queue = (k.chans[i]).queue ∧ (u.chans[i]).ctl = (k.chans[i]).ctl ∧
            (u.chans[i]).hnd = (k.chans[i]).hnd ∧ (u.chans[i]).wait = 0))

/-! ### Events of recovery and service -/

/-- R84, R85, R106, R347, R349, R350, R353 to R356, R367, R370: a charge makes a scope's replay due or moves outward, and a scope
that is being replayed, itself or with one around it, is not charged again; a task's charge counts with its message, also as a
logged root; a job whose charge for the loss of its package is still due (log 52, DEDUCED) is not replayed before; a job to be
stopped is stopped once nothing of it runs; a job past its time limit is to be stopped; an instance's replay aborts its running
members, save on cores stopped for debug, and places its roots at the heads of their channels in logged order, with EN set,
before what is queued there; a gang's replay repeats gang start; a job's replay enters its launch again; a sealed quiet instance ends.
Log 49 (DEDUCED): JNEXT of a JOIN channel is then the ordinal of its first root, and what 32 slots do not hold goes to the Barrow.
Log 8 (DESIGN CHOICE): the first SEQ is 1. -/
def Obligations.ReplayEvents : Prop :=
  ∀ (j g dom n : Nat) (x : Gang) (b : Job) (i : DomInstance) (s : State),
    let bare (m : Msg) : Msg := { m with slot := 0 }
    let rootsOf (n : Nat) : List Msg := (i.roots.filter fun p => p.1 == n).map (·.2)
    let fits : Prop := x.die < 24 ∧ x.row0 + 2 ^ b.launch.ghl ≤ 32 ∧ x.col0 + 2 ^ b.launch.gwl ≤ 32
    s.job j = some b →
    (b.replaying = false → b.completed = false →
      (b.launch.jreplay ≤ b.replays → s.chargeJob j = s.markStop j .failed) ∧
      (b.replays < b.launch.jreplay → (s.chargeJob j).job j = some { b with replaying := true, charges := b.charges + 1 })) ∧
    (b.stop ≠ none → b.stopped = false → (s.windDown j false).wound j = true →
      ∃ t, exec (.jobStop j) s = .next t ∧ t.job j = some { b with stopped := true, replaying := false } ∧
        (∀ z ∈ t.gangs, z.job ≠ j) ∧ ∀ n h, (t.core n).gang ≠ some (j, h)) ∧
    (b.launch.jtime ≠ 0 → b.broadcastAt + b.launch.jtime * 1000000 ≤ s.iod.ptime → b.stop = none → b.completed = false →
      exec (.jobTimeout j) s = .next { s with jobs := s.jobs.put j { b with stop := some .timeout } }) ∧
    (b.launch.jtime = 0 ∨ s.iod.ptime < b.broadcastAt + b.launch.jtime * 1000000 → exec (.jobTimeout j) s = .next s) ∧
    (j ∈ s.sp.chargeDue → exec (.jobReplay j) s = .next s) ∧
    (b.replaying = true → b.stop = none → b.completed = false → j ∉ s.sp.chargeDue → (s.windDown j true).wound j = true →
      ∃ t k, exec (.jobReplay j) s = .next t ∧ t.job j = some k ∧ k.replaying = false ∧ k.replays = b.replays + 1 ∧
        k.seq = s.iod.log.length + 1 ∧ k.placeSeq = b.placeSeq ∧ k.launch = b.launch ∧
        t.iod.log = s.iod.log ++ [.launch j]) ∧
    (s.gang j g = some x →
      (x.charged = true ∨ b.replaying = true → s.chargeGang j g = s) ∧
      (x.charged = false → b.replaying = false → x.state ≠ .complete →
        (x.outside = true ∨ 3 ≤ x.charges → s.chargeGang j g = s.chargeJob j) ∧
        (x.outside = false → x.charges < 3 →
          (s.chargeGang j g).gang j g = some { x with charges := x.charges + 1, charged := true })) ∧
      (∀ k, x.inst dom n = some i → i.replaying = true ∨ x.charged = true ∨ b.replaying = true →
        s.chargeInst j g dom n (k + 1) = s) ∧
      (∀ k, x.inst dom n = some i → i.replaying = false → x.charged = false → b.replaying = false → i.done = true →
        s.chargeInst j g dom n (k + 1) = s.chargeGang j g) ∧
      (∀ (c : Nat) (k : Task), (s.core c).task = some k → (s.core c).gang = some (j, g) →
        (k.msg.charges < 3 → ∃ y, (s.countTask c).gang j g = some y ∧
          ((s.countTask c).core c).task = some { k with msg := { k.msg with charges := k.msg.charges + 1 } } ∧
          ∀ o ∈ y.insts, ∀ p ∈ o.roots, p.1 = c → p.2.src = k.msg.src → p.2.seq = k.msg.seq → p.2.kind = k.msg.kind →
            p.2.charges = k.msg.charges + 1) ∧
        (3 ≤ k.msg.charges → s.countTask c = (match (s.core c).marks with
          | q :: _ => s.chargeInst q.job q.gang q.dom q.inst 5
          | [] => s.chargeGang j g))) ∧
      (∀ k, x.inst dom n = some i → i.replaying = false → x.charged = false → b.replaying = false → i.done = false →
        (i.coll = true → s.chargeInst j g dom n (k + 1) = s.chargeJob j) ∧
        (i.coll = false → 3 ≤ i.charges → s.chargeInst j g dom n (k + 1) =
          (match i.below with
          | some (d, m) => s.chargeInst j g d m k
          | none => s.chargeGang j g)) ∧
        (i.coll = false → i.charges < 3 → ∃ y, (s.chargeInst j g dom n (k + 1)).gang j g = some y ∧
          y.inst dom n = some { i with charges := i.charges + 1, replaying := true })) ∧
      (x.dueInst dom = some i → ∃ t, exec (.instanceReplay j g dom) s = .next t ∧ t.mem = s.mem ∧
        ∀ n ∈ s.coresOf x,
          ((s.core n).gang = some (j, g) → (s.core n).memberOf dom i.inst = true → (s.core n).dbg.halted = false →
            (t.core n).task = none) ∧
          ((s.core n).memberOf dom i.inst = false ∨ (s.core n).dbg.halted = true → (t.core n).task = (s.core n).task) ∧
          ∀ k : Fin 16, ∀ m ∈ ((t.core n).chans[k]).queue, (⟨j, g, dom, i.inst⟩ : InstanceId) ∉ m.marks) ∧
      (x.dueInst dom = some i →
        (∀ n ∈ s.coresOf x, (s.core n).task = none ∧ (s.core n).gang = some (j, g) ∧ (s.core n).life = .alive ∧
          s.coreEntryDown n = false ∧ (s.core n).slotsUsed + (rootsOf n).length ≤ 30) →
        ∃ t y k, exec (.replayRootRestore j g dom) s = .next t ∧ t.mem = s.mem ∧ t.gang j g = some y ∧
          y.inst dom i.inst = some k ∧ k.done = true ∧ k.isSealed = true ∧ k.roots = [] ∧
          ∀ n ∈ s.coresOf x, rootsOf n ≠ [] → ∀ c : Fin 16,
            let mine := (rootsOf n).filter fun m => m.chan % 16 == c.val
            let u := (t.core n).chans[c]
            ∃ head rest, u.queue = head ++ rest ∧ head.map bare = mine.map bare ∧
              (∀ m ∈ rest, ∃ k : Fin 16, ∃ m0 ∈ ((s.core n).chans[k]).queue, bare m = bare m0) ∧
              ∀ r l, mine = r :: l → 2 ^ 31 ≤ u.ctl.toNat % 2 ^ 32 ∧ (u.ctl.toNat / 2 ^ 29 % 2 = 1 → u.jnext = r.ford)) ∧
      (x.charged = true → x.state = .running → b.stop = none → b.replaying = false → s.xdDown x.die x.die = false → fits →
        (∀ z ∈ s.gangs, z.job = j → z.started = true → z.g ≠ g → ∀ n ∈ x.cores b.launch, z.covers b.launch n = false) →
        (∀ n ∈ x.cores b.launch, (s.core n).task = none ∧ (s.core n).settled = true ∧ (s.core n).late = [] ∧
          (s.core n).life = .alive ∧ s.coreEntryDown n = false) →
        ∃ t y, exec (.gangReplay j g) s = .next t ∧ t.gang j g = some y ∧ y.state = .running ∧ y.charged = false ∧
          y.retired = [] ∧ y.barrow = [] ∧ t.mem = s.mem ∧
          ∀ n ∈ x.cores b.launch, (t.core n).gang = some (j, g) ∧ (t.core n).taskCount = 0) ∧
      ((x.insts.find? fun k => k.dom == dom && k.isSealed && !k.done && !k.replaying &&
          s.instQuiet ⟨j, g, k.dom, k.inst⟩ k) = some i →
        ∃ t y k, exec (.domainInstanceEnd j g dom) s = .next t ∧ t.gang j g = some y ∧ y.inst dom i.inst = some k ∧
          k.done = true ∧ k.roots = [] ∧ t.cores = s.cores ∧ t.mem = s.mem) ∧
      (s.instQuiet ⟨j, g, dom, i.inst⟩ i = true ↔ (∀ m ∈ i.members, m.enrolled = false) ∧ ∀ p ∈ s.cores,
        (∀ r ∈ p.2.reqs, (⟨j, g, dom, i.inst⟩ : InstanceId) ∉ r.marks) ∧
        ∀ m ∈ p.2.cmds, m.isEnded = true ∨ (⟨j, g, dom, i.inst⟩ : InstanceId) ∉ m.marks))

/-- R16, R23, R88, R331, R352, R358 to R360, R362, R364, R392: what the loss of a core leaves and the spare that takes its identity,
heartbeats and missing ones, the second failure of a cluster that makes the die suspect, the votes that quarantine a core or
declare a die or MD lost, whose entry goes DOWN and then names a spare, and the rebuilding of a lost symbol, which gives back the
byte that the equations of R331 had there; in a group the stops and charges that end a recovery wait for it.
Log 46 (DESIGN CHOICE): the number that counts a core's empty intervals, and that they are events; log 31 (DESIGN CHOICE): CYCLES
of a spare core; log 32 (DESIGN CHOICE): which remote die replaces a lost one; log 47 (DEDUCED): a second failure while the first
core awaits its spare is one too; log 48 (DEDUCED): JNEXT steps back for a task lost with its core; log 52 (DEDUCED): votes, the
spare's entry at once, and what the loss of a package charges. -/
def Obligations.LossEvents : Prop :=
  (∀ (a : Byte) (n : Nat), gpow 0 a = a ∧ gpow (n + 1) a = gpow n (if a.getLsbD 7 then (a <<< 1) ^^^ 0x1D#8 else a <<< 1)) ∧
  (∀ (d d' : Nat → Byte) (lost : List Nat) (x : Nat),
    d 10 = (List.range 10).foldl (fun p i => p ^^^ d i) 0 → d 11 = (List.range 10).foldl (fun p i => p ^^^ gpow i (d i)) 0 →
    lost.length ≤ 2 → (∀ y ∈ lost, y < 12) → x ∈ lost → (∀ y, y ∉ lost → d' y = d y) → rebuiltByte d' lost x = d x) ∧
  ∀ (core unit die md u j : Nat) (sym : Fin 12) (v : Vote) (e : Erasure) (l : Nat × Nat) (jb : Job) (s : State),
    let c := s.core core
    let both : Prop := v.spa = true ∧ v.spb = true ∧ s.sp.works false = true ∧ s.sp.works true = true ∧ s.sp.replaced = []
    (core < 24576 → c.life = .alive → ∃ t, exec (.parityLocal core) s = .next t ∧ (t.core core).life = .failed ∧
      (t.core core).task = none ∧ (t.core core).loc = [] ∧ (t.core core).regs = Regs.zero ∧ t.mem = s.mem ∧
      (t.core core).dbg.trcctl = c.dbg.trcctl ∧ t.sp.log = s.sp.log ++ [.parity core] ∧
      ∀ k, c.task = some k → c.written = [] → ((t.core core).chans[Fin.ofNat 16 k.chan]).jnext =
        if (c.chans[Fin.ofNat 16 k.chan]).ctl.toNat / 0x20000000 % 2 = 1 then
          ((c.chans[Fin.ofNat 16 k.chan]).jnext + 15) % 16 else (c.chans[Fin.ofNat 16 k.chan]).jnext) ∧
    (core < 24576 → c.life ≠ .alive → core ∈ s.sp.failed → s.coreEntryDown core = true →
      clusterOf core ∉ (s.die (dieOf core)).csUsed →
      ∃ t, exec (.spareCoreTakeover core) s = .next t ∧ (t.core core).life = .alive ∧
        clusterOf core ∈ (t.die (dieOf core)).csUsed ∧ t.iod.log = s.iod.log ++ [.map (.core core 0x08)] ∧
        core ∈ t.sp.quarantine ∧ core ∉ t.sp.failed ∧ t.sp.rr = true ∧ (∀ h : Fin 16, (t.core core).rings[h] = Ring.zero) ∧
        (t.core core).dbg.evcnt = (if c.dbg.evsel.toNat / 256 % 2 = 1 then 0 else c.dbg.evcnt) ∧
        (∀ r ∈ t.sp.readings, r.done = false → r.selects core = true → r.loss = true) ∧
        ∀ x b, s.gangOf c = some x → s.job c.jobNo = some b → (t.core core).bufacl = b.launch.bufacl ∧
          ∀ k, k < 224 → (t.core core).cwN k = b.launch.cws.getD k 0) ∧
    (let quiet (n : Nat) : Prop := n ∉ s.sp.failed ∧ (s.core n).dbg.halted = false ∧ ((s.die die).beats.find n).getD 0 < 3
     die < 24 → s.xdDown die die = false → (s.die die).stopped = false →
      ((∀ i, i < 1024 → quiet (die * 1024 + i)) →
        ∃ t, exec (.heartbeatIntervalEnd die) s = .next t ∧ t.cores = s.cores ∧ ∀ i, i < 1024 →
          let n := die * 1024 + i
          (t.die die).beats.find n = some (((s.die die).beats.find n).getD 0 + 1)) ∧
      (dieOf core = die → core ∉ s.sp.failed → c.dbg.halted = false → (s.die die).beats.find core = some 3 →
        (∀ i, i < 1024 → die * 1024 + i ≠ core → quiet (die * 1024 + i)) →
        ∃ t, exec (.heartbeatIntervalEnd die) s = .next t ∧ (t.core core).life = .failed ∧
          t.sp.failed = s.sp.failed ++ [core] ∧
          (let second : Prop := clusterOf core ∈ (s.die die).csUsed ∨
            ∃ n ∈ s.sp.failed, n ≠ core ∧ dieOf n = die ∧ clusterOf n = clusterOf core
           (second → t.sp.suspect = s.sp.suspect ++ [die] ∧ t.iod.log = s.iod.log) ∧
           (¬second → t.sp.suspect = s.sp.suspect ∧
            t.iod.log = s.iod.log ++ [.map (.core core (BitVec.ofNat 8 (0x40 + s.coreEntry core % 16)))])))) ∧
    (core < 24576 → core ∉ s.sp.failed → s.xdDown (dieOf core) (dieOf core) = false →
      let n := ((s.die (dieOf core)).beats.find core).getD 0
      (c.dbg.halted = true ∨ (s.die (dieOf core)).stopped = true ∨ 16 ≤ n → s.countInterval core =
        s.modDie (dieOf core) fun x => { x with beats := x.beats.put core (max 1 (n % 16)) }) ∧
      (c.dbg.halted = false → (s.die (dieOf core)).stopped = false → n < 3 → s.countInterval core =
        s.modDie (dieOf core) fun x => { x with beats := x.beats.put core (n + 1) })) ∧
    (unit < 32 → unit ∉ s.sp.lost → ∃ t, exec (.dieHeartbeat unit) s = .next t ∧
      t.sp.dieBeats.toList.getD unit 0 = s.iod.ptime ∧ t.cores = s.cores) ∧
    (unit < 32 → unit ∉ s.sp.suspect → s.sp.dieBeats.toList.getD unit 0 + 300000 ≤ s.iod.ptime →
      exec (.dieHeartbeatTimeout unit) s =
        .next { s with sp := { s.sp with suspect := s.sp.suspect ++ [unit] } }) ∧
    (unit < 32 → s.iod.ptime < s.sp.dieBeats.toList.getD unit 0 + 300000 →
      exec (.dieHeartbeatTimeout unit) s = .next s) ∧
    (v.subject = .core core → v.spa = true → s.sp.works false = true → s.sp.replaced = [] → core ∈ s.sp.failed →
      core ∉ s.sp.quarantine → ∃ t, exec (.peerVote v) s = .next t ∧ t.sp.quarantine = s.sp.quarantine ++ [core] ∧
        (t.core core).life = .quarantined) ∧
    (∀ l p, (pickSpare l p = none ↔ l = []) ∧
      ∀ k, pickSpare l p = some k → k ∈ l ∧ (k % 2 = p % 2 ∨ ∀ q ∈ l, q % 2 ≠ p % 2)) ∧
    (v.subject = .xd die → die < 24 → both → s.erasure = none →
      (die ∉ s.sp.lost →
        (∀ p, pickSpare s.sp.spares (s.xdNow die % 32) = some p →
          ∃ t, exec (.peerVote v) s = .next t ∧ t.iod.log = s.iod.log ++
            [.map (.xd die (downEntry (s.xdNow die))), .map (.xd die (BitVec.ofNat 32 p))] ∧ t.sp.rr = true ∧
            p ∉ t.sp.spares ∧ ∀ n, dieOf n = die → n ∈ s.cores.map (·.1) → (t.core n).life = .failed) ∧
        (s.sp.spares = [] → ∃ t, exec (.peerVote v) s = .next t ∧
          t.iod.log = s.iod.log ++ [.map (.xd die (downEntry (s.xdNow die)))] ∧ die ∈ t.sp.lost)) ∧
      (die ∈ s.sp.lost → ∃ t w, exec (.peerVote v) s = .next t ∧ t.iod.log = s.iod.log ++ [.map (.xd die w)] ∧
        w.toNat / 0x40000000 = 2 ∧ w.toNat % 32 < 26 ∧ w.toNat / 32 % 512 = 0 ∧ die ∉ t.sp.lost)) ∧
    (v.subject = .md md → md < 8 → both → s.erasure = none → 24 + md ∉ s.sp.lost →
      ∃ t, exec (.peerVote v) s = .next t ∧ t.iod.log = s.iod.log ++ [.map (.md md (downEntry (s.mdNow md)))] ∧
        t.sp.rr = true ∧ 24 + md ∈ t.sp.lost ∧ (∀ a, homeOf a = md → t.mem.read a = 0) ∧
        ∀ f ∈ s.iod.frames, s.job f.2 = some jb → jb.stop = none → jb.completed = false →
          t.job f.2 = some { jb with stop := some .memlost }) ∧
    (∀ w, (downEntry w).toNat = 0x40000000 + w % 0x40000000) ∧
    -- a group: the last steps of a recovery wait until what is lost is rebuilt
    (v.subject = .md md → md < 8 → both → s.erasure = some e → 6 ≤ v.peers → 24 + md ∉ s.sp.lost →
      ∃ t, exec (.peerVote v) s = .next t ∧ t.iod.log = s.iod.log ++ [.map (.md md (downEntry (s.mdNow md)))] ∧
        t.sp.rr = true ∧ 24 + md ∈ t.sp.lost ∧ t.jobs = s.jobs ∧
        ∀ f ∈ s.iod.frames, s.frameProtected f.1 = false → f.2 ∈ t.sp.memDue) ∧
    (v.subject = .package e.position → both → s.erasure = some e → 6 ≤ v.peers → e.position < 12 → e.frames ≠ [] →
      (∀ k, k < 8 → s.mdNow k / 0x40000000 ≠ 1) → (∀ u, (e.lost.filter fun l => l.1 == u).length ≤ 1) →
      s.job j = some jb → jb.completed = false → jb.replaying = false → jb.stop = none →
      ∃ t, exec (.peerVote v) s = .next t ∧ t.job j = some { jb with replaying := true } ∧ j ∈ t.sp.chargeDue) ∧
    (s.rebuildable e l = true ↔ (e.lost.filter fun k => k.1 == l.1).length < 3 ∧
      (l.2 = symbolAt e.position l.1 → ∀ k, k < 8 → s.mdNow k / 0x40000000 ≠ 1)) ∧
    (s.lossOpen = true ↔ (∃ k, k < 8 ∧ s.mdNow k / 0x40000000 = 1) ∨ ∃ e, s.erasure = some e ∧
      ∃ l ∈ e.lost, l.2 = symbolAt e.position l.1 ∧ s.rebuildable e l = true) ∧
    (s.lossOpen = true → s.settleLoss = s) ∧
    (s.lossOpen = false → s.settleLoss.sp.memDue = [] ∧ s.settleLoss.sp.chargeDue = [] ∧
      (s.job j = some jb → jb.stop = none → jb.completed = false →
        (j ∈ s.sp.memDue → s.settleLoss.job j = some { jb with stop := some .memlost }) ∧
        (j ∉ s.sp.memDue → s.sp.chargeDue = [j] → jb.replaying = true →
          s.settleLoss.job j = some (if jb.launch.jreplay ≤ jb.replays then { jb with replaying := false, stop := some .failed }
            else { jb with charges := jb.charges + 1 })))) ∧
    (∀ k rest, e.wanted = k :: rest → (∃ l ∈ e.lost, l.1 = k ∧ s.rebuildable e l = true) → (s.isNext e u = true ↔ u = k)) ∧
    (e.wanted = [] → (s.isNext e u = true ↔ ∀ l ∈ e.lost, s.rebuildable e l = true → u ≤ l.1)) ∧
    (v.subject = .xd die → die < 24 → s.sp.works false = true → s.sp.works true = true → s.sp.replaced = [] →
      v.spa ≠ v.spb → ∃ t, exec (.peerVote v) s = .next t ∧ t.sp.rr = true ∧ t.iod.log = s.iod.log ∧
        t.sp.log = s.sp.log ++ [.disagreement v.subject]) ∧
    (let lost := (e.lost.filter fun l => l.1 == u).map (·.2)
     s.erasure = some e → s.mem.wf = true → e.symbols.wf = true → sym.val ∈ lost → lost.length ≤ 2 → s.rebuildable e (u, sym.val) = true →
      s.isNext e u = true → s.net.parity = [] →
      ∃ t e', exec (.stripeRebuild u sym) s = .next t ∧ t.erasure = some e' ∧ (u, sym.val) ∉ e'.lost ∧
        ∀ b, b < 65536 → t.symbolByte e' u sym.val b =
          rebuiltByte (fun i => s.symbolByte e u i b) lost sym.val)

/-- R23, R29, R30 to R32, R36, R379 to R382, R391, R392: package time follows its grandmaster, forward in one step where it is
behind by more than 1 ms; a power limit outside its range is refused; a signed image at or above the floor is kept for the
next reset, which zeroes package time, empties the cores and activates it; bring-up maps the logical dies to those that
passed; the responder answers each request; a reading is taken or refused, selects its cores at T0, is armed on them and ended.
Log 33 (DESIGN CHOICE): the bytes that SPDM and the device leave open are free values. Log 34 (DEDUCED): the maps after a reset name
only working units. Log 53 (DEDUCED): no bring-up without a service processor, and an empty answer for an index without a
measurement. Log 54 (DEDUCED): an offset of at most 1 ms changes no count at the message. Log 55 (DEDUCED): a core that a
reading did not arm does not latch, which is loss. Log 91 (DEDUCED): a reading arms a core that is halted for debug too. Log 74
(DEDUCED): after the reset each service processor with a new image
is still to restart on it. -/
def Obligations.ServiceEvents : Prop :=
  ∀ (ptp : Ptp) (st : SelfTest) (im : FwImage) (mw die i core : Nat) (nonce : BitVec 256) (rq : ReadingReq) (r : Machine.Reading)
    (k : Fin 5) (f : Firmware) (s : State),
    let c := s.core core
    let answers (i : Instr) (q : SpdmRequest) (fixed : List Byte) : Prop :=
      ∃ x, exec i s = .next { s with sp := { s.sp with spdm := some ⟨q, none, fixed ++ x⟩ } }
    (1000000 < ptp.behind → ∃ t, exec (.ptpMessage ptp) s = .next t ∧
      t.iod.ptime = s.iod.ptime + ptp.behind.toNat ∧ t.iod.step = true ∧ t.iod.sync = true ∧ t.cores = s.cores) ∧
    (ptp.behind ≤ 1000000 → exec (.ptpMessage ptp) s =
      .next { s with iod := { s.iod with sync := decide (ptp.behind.natAbs ≤ 50) } }) ∧
    (4000000 ≤ mw → mw ≤ 8400000 → exec (.setPlim mw) s = .next { s with sp := { s.sp with plim := mw } }) ∧
    (mw < 4000000 ∨ 8400000 < mw → ∃ t, exec (.setPlim mw) s = .next t ∧ t.sp.plim = s.sp.plim ∧
      t.sp.log = s.sp.log ++ [.plimRefused mw]) ∧
    (im.signed = true → (s.sp.fw[bankOf im.target]).floor.toNat ≤ im.version.toNat →
      ∃ t, exec (.firmwareImage im) s = .next t ∧ (t.sp.fw[bankOf im.target]).next = some ⟨im.version, im.digest⟩ ∧
        (t.sp.fw[bankOf im.target]).active = (s.sp.fw[bankOf im.target]).active) ∧
    (im.signed = false ∨ im.version.toNat < (s.sp.fw[bankOf im.target]).floor.toNat →
      ∃ t, exec (.firmwareImage im) s = .next t ∧ t.sp.fw = s.sp.fw ∧ t.sp.log = s.sp.log ++ [.imageRefused]) ∧
    (∃ t, exec .packageReset s = .next t ∧ t.iod.ptime = 0 ∧ t.iod.log = [] ∧ t.jobs = [] ∧ t.gangs = [] ∧
      t.net.msgs = [] ∧ t.iod.queues = State.reset.iod.queues ∧ (∀ n, (t.core n).task = none ∧ (t.core n).cycles = 0) ∧
      t.mem = s.mem ∧ (∀ n : Fin 24, t.iod.dieMap[n] = BitVec.ofNat 32 (s.xdNow n.val)) ∧
      ((s.die die).applied = s.iod.log.length → die < 24 → dieOf core = die → t.coreEntry core = s.coreEntry core) ∧
      t.sp.restarting = none ∧ ((s.sp.fw[0]).next ≠ none ↔ false ∈ t.sp.due) ∧ ((s.sp.fw[1]).next ≠ none ↔ true ∈ t.sp.due) ∧
      ((s.sp.fw[k]).next = some f → (s.sp.fw[k]).floor.toNat ≤ f.version.toNat → (t.sp.fw[k]).active = f ∧
        (t.sp.fw[k]).floor = f.version ∧ (t.sp.fw[k]).next = none)) ∧
    (st.spaVerified = false → st.spbVerified = false → exec (.powerGood st) s = .next s) ∧
    (st.spaVerified = true ∨ st.spbVerified = true →
      let good := ((List.finRange 26).filter fun p => st.xds.contains p).map (·.val)
      ∃ t, exec (.powerGood st) s = .next t ∧ t.cores = [] ∧ t.sp.spaUp = st.spaVerified ∧ t.sp.spbUp = st.spbVerified ∧
        (∀ d : Fin 24, t.iod.dieMap[d] = BitVec.ofNat 32 (if d.val < good.length then good.getD d.val 0 else 0x40000000 + d.val)) ∧
        (∀ d : Fin 8, t.iod.mdMap[d] = BitVec.ofNat 32 (if d ∈ st.mds then d.val else 0x40000000 + d.val)) ∧
        t.sp.spares = (good.drop 24).take 2) ∧
    answers .getVersion .version [] ∧ answers .getCapabilities .capabilities [] ∧
    (∃ x, exec .negotiateAlgorithms s = .next { s with sp := { s.sp with
      spdm := some ⟨.algorithms, some (.sha256, .lmsSha256M32H10LmotsN32W4), x⟩ } }) ∧
    (die < 35 → answers (.getDigests die) .digests [] ∧ answers (.getCertificate die) .certificate [] ∧
      answers (.challenge die nonce) .challenge [] ∧ answers (.getMeasurements (die + 1)) .measurements
        (let bank : Fin 5 := if die < 26 then 4 else if die < 34 then 3 else 2
         natToBytes 32 (s.sp.fw[bank]).active.digest.toNat)) ∧
    answers (.getMeasurements 0x40) .measurements s.report ∧ s.report.length = 2304 ∧
    (i = 0 ∨ 35 < i → i ≠ 0x40 →
      exec (.getMeasurements i) s = .next { s with sp := { s.sp with spdm := some ⟨.measurements, none, []⟩ } }) ∧
    (die < 26 → (∀ d, d < 24 → ¬(s.xdNow d / 0x40000000 = 0 ∧ s.xdNow d % 32 = die)) → (s.report.drop (64 + 64 * die)).take 8 =
      natToBytes 8 (die + if die ∈ s.sp.physFailed then 0x200 else 0x100)) ∧
    (die < 26 → ∀ l, (∀ d, d < 24 → (s.xdNow d / 0x40000000 = 0 ∧ s.xdNow d % 32 = die ↔ d = l)) → l < 24 →
      let used (n : Nat) : Prop := (s.report.drop (64 + 64 * die)).take 8 = natToBytes 8 (die + l * 0x10000 + n * 0x1000000)
      -- the die has applied every entry; or the entry by which it takes the identity is still on its way
      (s.iod.log.length ≤ (s.die l).applied → used ((s.die l).csUsed.length % 256)) ∧
      (∀ w, s.iod.log[(s.die l).applied]? = some (.map (.xd l w)) → s.iod.log.length = (s.die l).applied + 1 →
        s.xdDown l l = true → w.toNat / 0x40000000 ≠ 1 → used 0)) ∧
    (s.report.take 64 = (List.range 64).map (Config.reportHeader 0x550A2410 Config.packageAddress s.sp.spares.length
      s.iod.dieMapgen)) ∧
    (s.iod.log = [] → s.iod.dieMapgen = 0) ∧
    (∀ (l : LogEntry) (d : Iod), d.log = s.iod.log ++ [l] → d.dieMap = s.iod.dieMap →
      d.dieMapgen = s.iod.dieMapgen + (match l with
        | .map (.xd x w) => if s.xdNow x = w.toNat then 0 else 1
        | _ => 0)) ∧
    (readingsClash r.req rq = true ↔ r.req.t0 < rq.t1 ∧ rq.t0 < r.req.t1 ∧
      (r.req.scope = none ∨ rq.scope = none ∨ r.req.scope = rq.scope)) ∧
    (s.iod.ptime + 10000 ≤ rq.t0 → rq.t0 < rq.t1 → rq.event.toNat ≤ 0x0C →
      (∀ a ∈ s.sp.readings, readingsClash a.req rq = false) →
      ∃ t a, exec (.readingRequest rq) s = .next t ∧ t.sp.readings = s.sp.readings ++ [a] ∧ a.req = rq ∧
        a.begun = false ∧ a.armed = [] ∧ a.loss = false ∧ a.done = false) ∧
    (rq.t0 < s.iod.ptime + 10000 ∨ 0x0C < rq.event.toNat ∨ (∃ a ∈ s.sp.readings, readingsClash a.req rq = true) →
      exec (.readingRequest rq) s = .next s) ∧
    (r.begun = false → (s.iod.ptime < r.req.t0 → s.markReading r = r) ∧
      (r.req.t0 ≤ s.iod.ptime → (s.markReading r).begun = true ∧ (s.markReading r).req = r.req ∧
        (r.req.jobId ≠ 0 → ∀ n, n ∈ (s.markReading r).held ↔ ∃ p ∈ s.cores, p.1 = n ∧ p.2.gang.isSome = true ∧
          ∃ b, s.job p.2.jobNo = some b ∧ b.launch.jobId = r.req.jobId))) ∧
    (r.selects core = true ↔ r.begun = true ∧ (∀ d, r.req.scope = some d → d.val = dieOf core) ∧
      (r.req.jobId = 0 ∨ core ∈ r.held)) ∧
    (core ∈ r.cores ↔ r.selects core = true ∧ (r.req.jobId = 0 → core < 24576)) ∧
    (s.latches core = true ↔ c.life = .alive ∧ s.coreEntryDown core = false ∧ s.xdDown (dieOf core) (dieOf core) = false) ∧
    (core < 24576 → s.sp.readings[i]? = some r → r.done = false → core ∉ r.armed → c.life = .alive →
      r.selects core = true → ∃ t, exec (.readingStart i core) s = .next t ∧
        (t.core core).dbg.evcnt = 0 ∧ (t.core core).dbg.evsel.toNat = 256 + r.req.event.toNat ∧
        t.sp.readings[i]? = some { r with armed := r.armed ++ [core] }) ∧
    (core < 24576 → s.sp.readings[i]? = some r → r.selects core = false →
      exec (.readingStart i core) s = .next s) ∧
    (s.sp.readings[i]? = some r → r.done = false → r.begun = true → r.req.t1 ≤ s.iod.ptime →
      (∀ n ∈ r.cores, n ∈ r.armed ∨ s.latches n = false) →
      let ok := r.armed.filter s.latches
      let count (n : Nat) : Nat := (s.core n).dbg.evcnt.toNat
      ∃ t a, exec (.readingEnd i) s = .next t ∧ t.sp.readings[i]? = some a ∧ a.done = true ∧
        a.loss = (r.loss || decide (ok.length < r.cores.length)) ∧ a.latched = ok.map (fun n => (n, count n)) ∧
        (r.req.minMax = false → a.sum = (ok.map count).sum % 0x1000000000000000000000000) ∧
        (r.req.minMax = true → ok ≠ [] → ∃ lo ∈ ok, ∃ hi ∈ ok, a.min = some (lo, count lo) ∧ a.max = some (hi, count hi) ∧
          ∀ n ∈ ok, count lo ≤ count n ∧ count n ≤ count hi ∧ (count n = count lo → lo ≤ n) ∧ (count n = count hi → hi ≤ n)))

/-- R358, R367, R383 to R390, R393 to R396: HALT_DIE halts its idle cores and RESUME_DIE runs its halted ones; a core resumed alone
leaves the halt of its die, and aborts put off take place; writes of the debug registers, reads and writes of a halted core,
the records of the trace and state logs written at their place of their rings, and the capture of a voltage domain.
Log 15 (DEDUCED): CAUSE reads 0 while the core is not halted. Log 46 (DESIGN CHOICE): how the monitor's count notes that a core
was halted in an interval. Log 55 (DEDUCED): what the debug path reads is held in `Sp.read`. -/
def Obligations.DebugEvents : Prop :=
  ∀ (core die : Nat) (w : Word) (d : Fin 32) (k : Fin 8) (q : TraceRec) (rest : List TraceRec) (x : Die) (s : State),
    let c := s.core core
    let dom := s.domain die k.val
    (die < 24 → ∃ t, exec (.haltDie die) s = .next t ∧ t.mem = s.mem ∧ (t.die die).halting = true ∧ ∀ i, i < 1024 →
      let n := die * 1024 + i
      (t.core n).dbg.dieHalt = true ∧ ((s.core n).task = none → (t.core n).dbg.halted = true)) ∧
    (die < 24 → ∃ t, exec (.resumeDie die) s = .next t ∧ ∀ i, i < 1024 →
      let n := die * 1024 + i
      (t.core n).dbg.dieHalt = false ∧ ((s.core n).late = [] → (s.core n).dbg.dbgctl.toNat / 4 % 2 = 0 →
        (t.core n).dbg.halted = false)) ∧
    (x.halting = false → s.haltedDie die x = x) ∧
    (x.halting = true → (∃ p ∈ s.cores, dieOf p.1 = die ∧ p.2.dbg.dieHalt = true) →
      s.haltedDie die x =
        { x with stopped := x.stopped || (dieCores die).all fun n => (s.core n).dbg.halted }) ∧
    (x.halting = true → (∀ p ∈ s.cores, dieOf p.1 = die → p.2.dbg.dieHalt = false) →
      (s.haltedDie die x).halting = false ∧ (s.haltedDie die x).stopped = false) ∧
    (core < 24576 →
      (∃ t, exec (.dbgctl core w) s = .next t ∧ (t.core core).dbg.dbgctl = w &&& 7 ∧ (t.core core).regs = c.regs ∧
        (c.task = none → w.toNat / 4 % 2 = 1 → (t.core core).dbg.halted = true)) ∧
      (w.toNat < 2 ^ 63 → exec (.dbgstat core w) s = .next s) ∧
      (2 ^ 63 ≤ w.toNat → c.dbg.halted = false → exec (.dbgstat core w) s = .next s) ∧
      (2 ^ 63 ≤ w.toNat → c.dbg.halted = true → c.late = [] → c.dbg.dbgctl.toNat / 4 % 2 = 0 →
        ∃ t, exec (.dbgstat core w) s = .next t ∧ (t.core core).dbg.halted = false ∧ (t.core core).dbg.dieHalt = false ∧
          (s.dueAbort core = false → (t.core core).dbg.skipBp = true ∧ (t.core core).task = c.task) ∧
          (s.dueAbort core = true → (t.core core).task = none) ∧ (t.core core).dbg.cause = 0 ∧
          ∃ n, (t.die (dieOf core)).beats.find core = some n ∧ 16 ≤ n) ∧
      (c.dbg.trcctl.toNat % 2 = 0 → w.toNat % 2 = 1 → ∃ t, exec (.trcctl core w) s = .next t ∧ t.mem = s.mem ∧
        (t.core core).dbg.trcctl = w &&& 0x3F ∧ (t.core core).dbg.trcwr = 0 ∧ (t.core core).dbg.trcdrop = 0) ∧
      (w.toNat % 2 = 0 → ∃ t, exec (.trcctl core w) s = .next t ∧ (t.core core).dbg.trcctl = w &&& 0x3F ∧
        (c.dbg.trcctl.toNat % 2 = 1 → (t.core core).dbg.trcQ = [])) ∧
      (c.dbg.slctl.toNat % 2 = 0 → w.toNat % 2 = 1 → c.dbg.slQ = [] → ∃ t, exec (.slctl core w) s = .next t ∧
        (t.core core).dbg.slctl = 1 ∧ (t.core core).dbg.slwr = 0 ∧
        (t.core core).dbg.slQ = [word (s.condition core * 2 ^ 62)]) ∧
      (w.toNat % 2 = 0 → ∃ t, exec (.slctl core w) s = .next t ∧ (t.core core).dbg.slctl = 0) ∧
      exec (.debugRegisterWrite core 0x202 w) s =
        .next (s.setCore core { c with dbg := { c.dbg with bp0 := w &&& 0x800FFFFFFFFFFFF8#64 } }) ∧
      exec (.debugRegisterWrite core 0x203 w) s =
        .next (s.setCore core { c with dbg := { c.dbg with bp1 := w &&& 0x800FFFFFFFFFFFF8#64 } }) ∧
      exec (.debugRegisterWrite core 0x209 w) s =
        .next (s.setCore core { c with dbg := { c.dbg with trcbase := w &&& 0x000FFFFFFFFFF00F#64 } }) ∧
      exec (.debugRegisterWrite core 0x219 w) s =
        .next (s.setCore core { c with dbg := { c.dbg with slbase := w &&& 0x000FFFFFFFFFF00F#64 } }) ∧
      (∃ t, exec (.debugRegisterWrite core 0x201 w) s = .next t ∧ t.core core = c) ∧
      (c.dbg.halted = true →
        (∃ t, exec (.debugPathAccess core (.writeX d w)) s = .next t ∧
          t.core core = { c with regs := c.regs.setX d w }) ∧
        (∃ t, exec (.debugPathAccess core (.readX d)) s = .next t ∧ t.core core = c ∧
          t.sp.read = some (if d = 0 then 0 else (c.regs.x[d]).toNat))) ∧
      (c.dbg.trcQ = q :: rest → ∃ t, exec (.traceRecordWrite core) s = .next t ∧ (t.core core).dbg.trcQ = rest ∧
        (t.core core).dbg.trcwr = c.dbg.trcwr + 1 ∧
        t.mem = s.mem.writeList (c.dbg.trcbase.toNat / 2 ^ 12 % 2 ^ 40 * 4096 +
          32 * (c.dbg.trcwr.toNat % (2 ^ (12 + c.dbg.trcbase.toNat % 16) / 32)))
          (natToBytes 8 q.cycles.toNat ++ natToBytes 8 (q.type * 2 ^ 56 + q.addr.toNat / 8 % 2 ^ 49 * 8) ++
            natToBytes 8 q.value.toNat ++ natToBytes 8 (q.count % 2 ^ 32))) ∧
      (∀ v vs, c.dbg.slQ = v :: vs → ∃ t, exec (.stateLogRecordWrite core) s = .next t ∧ (t.core core).dbg.slQ = vs ∧
        (t.core core).dbg.slwr = c.dbg.slwr + 1 ∧
        t.mem = s.mem.writeList (c.dbg.slbase.toNat / 2 ^ 12 % 2 ^ 40 * 4096 +
          8 * (c.dbg.slwr.toNat % (2 ^ (12 + c.dbg.slbase.toNat % 16) / 8))) (natToBytes 8 v.toNat))) ∧
    (die < 24 → dom.held = true → ∃ t, exec (.droopCapture die k) s = .next t ∧
      t.domain die k.val = { dom with missed := dom.missed + 1 } ∧ t.cores = s.cores) ∧
    (die < 24 → dom.held = false → ∃ t l, exec (.droopCapture die k) s = .next t ∧
      t.domain die k.val = ⟨true, s.iod.ptime, 0⟩ ∧ t.mem = s.mem ∧
      t.sp.log = s.sp.log ++ [.droop (s.xdNow die % 32) k.val s.iod.ptime dom.missed l] ∧ ∀ i, i < 128 →
        let n := die * 1024 + k.val * 128 + i
        let b := s.core n
        let bundle : Word := if b.dbg.halted then b.dbg.next else if b.task = none then 0 else b.pc
        let addr : Word := word (s.condition n * 2 ^ 62 + (if b.dbg.halted then 2 ^ 61 else 0) + bundle.toNat / 8 % 2 ^ 49 * 8)
        (t.core n).dbg.drptime = word s.iod.ptime ∧ (t.core n).dbg.drpaddr = addr ∧
        l[i]? = some (n, addr, (s.core n).taskCount.toNat, (s.core n).msgId)) ∧
    (die < 24 → dom.held = true → dom.since + 10000 ≤ s.iod.ptime →
      ∃ t, exec (.droopHoldoffExpiry die k) s = .next t ∧ t.domain die k.val = { dom with held := false } ∧
        t.cores = s.cores) ∧
    (die < 24 → s.iod.ptime < dom.since + 10000 → exec (.droopHoldoffExpiry die k) s = .next s) ∧
    s.condition core = (match c.task with
      | some t => if t.ended then (if c.mxq = [] then 0 else 2) else if c.stalled = none ∨ c.stalled = some .fetch then 0 else 2
      | none => if c.gang = none then 3 else if ∃ n, c.ready n = true then 0
        else if (∃ n : Fin 16, (c.chans[n]).queue ≠ []) ∨ s.inBarrow core = true then 1 else 3)

/-! ### Steps, encodings, reset and invariants -/

/-- R13, R14: an event on a unit that the package does not have stops: a core above 24,575, a die above 23, an MXU above
3,071, an MD or logical unit above the last. The stop and its name are the model's (log 57). -/
def Obligations.NoSuchUnit : Prop :=
  ∀ (core die mxu n i : Nat) (c : Fin 16) (b : Fin 2) (md k : Fin 8) (e : Bool) (w : Word) (a : DebugAccess)
    (via : WalkVia) (nonce : BitVec 256) (got : Option (List (BitVec 8))) (s : State),
    (24576 ≤ core → ∀ v ∈ [Instr.stalledIssueResume core, .breakpointHalt core b, .debugHalt core, .barrowRefill core,
      .taskDispatch core, .waitAging core c, .taskBudget core, .taskEndRelease core, .bufferedMessageSend core n,
      .lateFault core, .globalRequestAtHome core n e, .atomicPerform core n e, .orderedAtomicSend core n,
      .globalResponse core n, .ackTimeout core n, .pageWalk (.fetch core) via, .pageWalk (.request core n) via,
      .pageWalk (.command core n i) via, .engineCommandAccept core n, .engineBlockSend core n e,
      .engineBlockArrival core n i got, .blockResend core n i, .engineCommandComplete core n, .grammarExecute core n,
      .mmaRetire core, .czeroRetire core, .csclRetire core, .caddRetire core, .heartbeat core, .parityLocal core,
      .spareCoreTakeover core, .readingStart n core, .dbgctl core w, .dbgstat core w, .trcctl core w, .slctl core w,
      .debugRegisterWrite core n w, .debugPathAccess core a, .traceRecordWrite core, .stateLogRecordWrite core,
      .dieCacheTakesStore core n, .residencyRequestAtSlice core n md], exec v s = .fault .noSuchUnit) ∧
    (24 ≤ die → ∀ v ∈ [Instr.fwdStoreRemoteVisible die n, .dieApplyLaunch die, .preemptStart die,
      .heartbeatIntervalEnd die, .haltDie die, .resumeDie die, .droopCapture die k, .droopHoldoffExpiry die k],
      exec v s = .fault .noSuchUnit) ∧
    (3072 ≤ mxu → exec (.mxuStart mxu) s = .fault .noSuchUnit) ∧
    (8 ≤ n → exec (.replicaUpdate n) s = .fault .noSuchUnit) ∧
    (32 ≤ n → ∀ v ∈ [Instr.mapUpdate n, .translationInvalidateApply n, .dieHeartbeat n, .dieHeartbeatTimeout n],
      exec v s = .fault .noSuchUnit) ∧
    (35 ≤ n → ∀ v ∈ [Instr.getDigests n, .getCertificate n, .challenge n nonce], exec v s = .fault .noSuchUnit)

/-- R161 to R163, R165 to R167, R213, R215, R348, R361 to R363: with nothing on the agenda, a core whose task runs at a bundle that
its TLB maps fetches it, and the step is that of the instructions the bundle decodes to: of the one of a lone bundle; of the C
instruction and then the X instruction of a pair, both reading the registers, rights and bindings from before the bundle. Where
they end without a trap or stall the next bundle is chosen; a bundle whose decode checks fail takes their trap. An entry of the
agenda is an event, time, cycles, cycles of a bank conflict (R20, R391), a bundle, or an act of the service processors: a map entry written or refused (R22, R23), a
group map (R330), a corrected error (R360), throttling (R36), the domain number (R381), a restart (R382), an error in memory (R363).
Log 1 (DESIGN CHOICE: the order in which the package's agents act is a list in the state): the first entry of the agenda
is what a step does, and the rest stands after it. Log 5 (DESIGN CHOICE): a bundle of a running core takes one cycle of its
core, which passes before the bundle acts; log 96 (DESIGN CHOICE): when a bank conflict stalls a core. Log 75 (DEDUCED): which values of an entry are refused. -/
def Obligations.StepRunsTheBundle : Prop :=
  (∀ (i x : Instr) (k : Task) (e : TlbEntry) (s : State),
     let s1 := { s with last := .done }.runCycles s.cur 1
     let c := s1.core s.cur
     let s2 := s1.setCore s.cur { c with bundlePos := c.positions }
     let pa := e.place c.pc.toNat
     let bytes := s.view (some (dieOf s.cur)) pa 8
     let lo := bytesToNat (bytes.take 4)
     let hi := bytesToNat (bytes.drop 4)
     s.agenda = [] → s.cur < 24576 → c.runs = true → c.late = [] → c.task = some k → k.left ≠ 0 → c.breakpointAt = none →
     s.fetchWaits s.cur = false → c.pc.toNat < 2 ^ 52 → tlbFind c.tlb c.jobNo c.pc.toNat = some e →
     Right.fetch.allowed e.leaf = true → s.ecpOk e = true → s.homeTakes s.cur pa = true →
     s.foreign pa c.jobNo = false → s.errorAt pa 8 = false ∨ s.dataUnit pa = true →
     (decodeBundle lo hi = .ok (.lone i) →
       (∀ t, exec i s2 = .next t → step s = .next (t.afterSlots s.cur).settle) ∧
       (∀ f, exec i s2 = .fault f → step s = .fault f)) ∧
     (decodeBundle lo hi = .ok (.pair i x) → c.windowClash i x = false →
       (∀ t u, exec i (s2.modCore s.cur Core.snapshot) = .next t → t.last = .done → exec x t = .next u → u.last = .done →
         u.cur = s.cur → step s = .next ((u.modCore s.cur Core.forget).afterSlots s.cur).settle) ∧
       (∀ t w, exec i (s2.modCore s.cur Core.snapshot) = .next t → t.last = .trapped w →
         step s = .next (({ s2.takeTrap s.cur w with last := .trapped w }).afterSlots s.cur).settle)) ∧
     (∀ d, decodeBundle lo hi = .error d →
       step s = .next (({ s2.takeTrap s.cur (decodeTrap d) with last := .trapped (decodeTrap d) }).afterSlots
         s.cur).settle) ∧
     (c.snapshot = { c with before := some ⟨c.regs, c.bufacl, k.binds⟩ }) ∧
     (∀ t : State, t.last = .done → t.afterSlots s.cur = t.modCore s.cur Core.complete)) ∧
  (∀ (rest : List Action) (i : Instr) (core n ns : Nat) (m : MapChange) (members : List (Nat × Nat)) (frames : List Nat) (on : Bool)
    (s : State),
     let u := { s with agenda := rest }
     (s.agenda = .event i :: rest →
       (∀ t, exec i u = .next t → step s = .next t.settle) ∧ (∀ f, exec i u = .fault f → step s = .fault f)) ∧
     (s.agenda = .elapse ns :: rest → step s = .next (u.elapse ns).settle ∧
       (u.elapse ns).iod.ptime = s.iod.ptime + ns) ∧
     (s.agenda = .cycles core n :: rest → core < 24576 → step s = .next (u.runCycles core n).settle) ∧
     (s.agenda = .conflict core n :: rest → core < 24576 → step s = .next (u.conflict core n).settle) ∧
     (∀ k, (s.core core).clocked = true → (s.core core).task = some k → (s.core core).stalled = none →
       ((s.conflict core n).core core).cycles = (s.core core).cycles + word n ∧
       ((s.core core).dbg.evsel.toNat = 0x107 →
         ((s.conflict core n).core core).dbg.evcnt = (s.core core).dbg.evcnt + word n)) ∧
     (s.agenda = .bundle core :: rest → core < 24576 → ∀ t, u.runBundle core = .next t → step s = .next t.settle) ∧
     (s.agenda = .mapWrite m :: rest → step s = .next (writeMap m u).settle) ∧
     (s.agenda = .groupMap members frames :: rest → step s = .next (setGroupMap members frames u).settle) ∧
     (s.agenda = .corrected n :: rest →
       step s = .next ({ u with sp := { u.sp with log := s.sp.log ++ [.corrected n] } } : State).settle) ∧
     (s.agenda = .throttle core on :: rest → core < 24576 →
       step s = .next (u.setCore core { s.core core with throttled := on }).settle) ∧
     (s.agenda = .ptpDomain n :: rest → step s = .next ({ u with sp := { u.sp with domain := n } } : State).settle) ∧
     (s.agenda = .restart on :: rest → step s = .next (restartProcessor on u).settle) ∧
     (s.agenda = .memoryError n :: rest → step s = .next (u.noteError n).settle)) ∧
  (∀ (n pa : Nat) (frames : List Nat) (w : BitVec 32) (e : BitVec 8) (members : List (Nat × Nat)) (b : Bool) (s : State),
     -- the on-package spares: the sound dies that no entry of the die map names
     let spare (t : State) (p : Nat) : Bool := !t.sp.physFailed.contains p &&
       (List.range 24).all fun d => decide (t.xdNow d / 0x40000000 ≠ 0 ∨ t.xdNow d % 32 ≠ p)
     let noted (t : State) : State := { t with sp := { t.sp with spares := (List.range 26).filter (spare t) } }
     (n < 24576 → e.toNat / 64 < 2 → e.toNat % 16 < 9 →
       writeMap (.core n e) s = noted (s.broadcast (.map (.core n (e &&& 0xCF#8))))) ∧
     (1 < e.toNat / 64 ∨ 8 < e.toNat % 16 → writeMap (.core n e) s = s.logSp (.reservedEntry (.core n e))) ∧
     (n < 24 → w.toNat / 2 ^ 30 < 3 → w.toNat % 32 < 26 →
       writeMap (.xd n w) s = noted (s.broadcast (.map (.xd n (w &&& 0xFFFFC01F#32))))) ∧
     (w.toNat / 2 ^ 30 = 3 ∨ 25 < w.toNat % 32 → writeMap (.xd n w) s = s.logSp (.reservedEntry (.xd n w))) ∧
     (n < 8 → w.toNat / 2 ^ 30 < 3 → w.toNat % 32 < 8 →
       writeMap (.md n w) s = noted (s.broadcast (.map (.md n (w &&& 0xFFFFC01F#32))))) ∧
     (w.toNat / 2 ^ 30 = 3 ∨ 7 < w.toNat % 32 → writeMap (.md n w) s = s.logSp (.reservedEntry (.md n w))) ∧
     (members ≠ [] → members.length ≠ 12 ∨ ¬(members.map (·.2)).Nodup →
       setGroupMap members frames s = s.logSp .groupMapRefused) ∧
     (s.sp.restarting = none → b ∈ s.sp.due → (restartProcessor b s).sp.restarting = some b) ∧
     (s.sp.restarting = some b → (restartProcessor b s).sp.restarting = none ∧ b ∉ (restartProcessor b s).sp.due) ∧
     (s.sp.restarting = some (!b) → (restartProcessor b s).sp = s.sp) ∧
     (s.noteError pa).errorAt pa 1 = true ∧
     ((∀ p ∈ s.cores, p.2.posts = [] ∧ ∀ m ∈ p.2.cmds, m.stage ≠ .cancelled) →
       s.settle.mem = s.mem ∧ s.settle.net = s.net ∧ s.settle.iod = s.iod ∧ s.settle.jobs = s.jobs ∧
       s.settle.gangs = s.gangs ∧ s.settle.agenda = s.agenda ∧ s.settle.cur = s.cur ∧ s.settle.last = s.last ∧
       ∀ k, (s.settle.core k).regs = (s.core k).regs ∧ (s.settle.core k).pc = (s.core k).pc ∧
         (s.settle.core k).loc = (s.core k).loc ∧ (s.settle.core k).task = (s.core k).task ∧
         (s.settle.core k).rings = (s.core k).rings ∧ (s.settle.core k).reqs = (s.core k).reqs ∧
         (s.settle.core k).cmds = (s.core k).cmds))

/-! ### Encoding, invariants and reset -/

/-- The words of R163, R164 and R169 to R181, as the worked encodings of the manual write them out, decode to what they
stand for. -/
def Obligations.SpecWords : Prop :=
  decodeSlot .c 0x00A190A0 = .ok (.add ⟨true, 2⟩ 3 4 5) ∧
  decodeSlot .x 0x02031D09 = .ok (.vmul ⟨false, 0⟩ 6 7 8 9) ∧
  decodeSlot .c 0x03318442 = .ok (.cmplt ⟨false, 3⟩ 3 1 2) ∧
  decodeSlot .c 0x130A4005 = .ok (.loop ⟨false, 0⟩ 1 9 5) ∧
  decodeSlot .c 0x100FFFFD = .ok (.br ⟨false, 0⟩ 0xFFFFD#20) ∧
  decodeSlot .c 0x08020030 = .ok (.ldc ⟨false, 0⟩ 4 12) ∧
  decodeSlot .x 0x0000886A = .ok (.vadd ⟨false, 0⟩ 1 2 3 false 10) ∧
  decodeSlot .c 0x2103A41C = .ok (.gst ⟨false, 0⟩ 7 9 0 3 true false) ∧
  decodeSlot .x 0x38012141 = .ok (.mma ⟨false, 0⟩ 1 2 5 true) ∧
  decodeBundle 0x08020030 0x0000886A = .ok (.pair (.ldc ⟨false, 0⟩ 4 12) (.vadd ⟨false, 0⟩ 1 2 3 false 10)) ∧
  decodeBundle 0x6103A41C 0 = .ok (.lone (.gst ⟨false, 0⟩ 7 9 0 3 true false)) ∧
  decodeBundle 0xB8012141 0 = .ok (.lone (.mma ⟨false, 0⟩ 1 2 5 true)) ∧
  decodeBundle 0x40808000 0 = .ok (.lone (.add Guard.never 1 0 0)) ∧
  decodeBundle 0 0 = .ok (.pair (.add ⟨false, 0⟩ 0 0 0) (.vadd ⟨false, 0⟩ 0 0 0 false 0)) ∧
  decodeBundle 0xC0000000 0 = .error .illegalBundle ∧
  decodeBundle 0x40800000 0x00800000 = .error .illegalBundle ∧
  decodeBundle 0x00000000 0x80000000 = .error .illegalBundle ∧
  decodeBundle 0x4F000000 0 = .error .illegalOpcode ∧
  decodeBundle 0x0F000000 0x3F000000 = .error .illegalOpcode ∧
  decodeBundle 0x4F800001 0 = .error .illegalOpcode ∧
  decodeBundle 0x8000000C 0 = .error .illegalOpcode ∧
  decodeBundle 0x5800001C 0 = .error .resField

/-- R163, R165, R167: a bundle raises ILLEGAL_BUNDLE exactly where SL is 0b11, a lone bundle has a nonzero high word, a
paired bundle's high word has SL bits, or both its words are assigned and name one destination; any other bundle raises
ILLEGAL_OPCODE exactly where a word is unassigned, and RES_FIELD exactly where none is and one has a nonzero res0 field. -/
def Obligations.BundleChecks : Prop :=
  ∀ lo hi : Nat, lo < 2 ^ 32 → hi < 2 ^ 32 →
    let sl := lo / 2 ^ 30
    let words : List (Slot × Nat) := if sl = 0 then [(.c, lo), (.x, hi)] else if sl = 1 then [(.c, lo)] else [(.x, lo)]
    let clash := sl = 3 ∨ ((sl = 1 ∨ sl = 2) ∧ hi ≠ 0) ∨ (sl = 0 ∧ 2 ^ 30 ≤ hi) ∨
      (sl = 0 ∧ hi < 2 ^ 30 ∧ ∃ rc rx, readAssigned .c lo = some rc ∧ readAssigned .x hi = some rx ∧
        ∃ r ∈ rc.instr.dests, r ∈ rx.instr.dests ∧ r ≠ .x 0 ∧ r ≠ .k 0 ∧ rc.instr.guard ≠ Guard.never ∧
          rx.instr.guard ≠ Guard.never)
    (clash ↔ decodeBundle lo hi = .error .illegalBundle) ∧
    (¬clash → ((∃ p ∈ words, readAssigned p.1 p.2 = none) ↔ decodeBundle lo hi = .error .illegalOpcode) ∧
      (((∀ p ∈ words, readAssigned p.1 p.2 ≠ none) ∧
        ∃ p ∈ words, ∃ r, readAssigned p.1 p.2 = some r ∧ (r.clear && r.instr.fieldsReserved) = false) ↔
        decodeBundle lo hi = .error .resField) ∧
      ((∀ p ∈ words, ∃ i, decodeSlot p.1 p.2 = .ok i) ↔ ∃ b, decodeBundle lo hi = .ok b))

/-- R168 to R181: every instruction of a slot whose fields are assigned has a word of 30 bits, and in its slot the
decoder reads that instruction from it: no bit of an encoding is dropped. -/
def Obligations.RoundTrip : Prop :=
  ∀ (i : Instr) (sl : Slot), i.slot = some sl → i.wf = true →
    ∃ w, i.encode = some w ∧ w < 2 ^ 30 ∧ decodeSlot sl w = .ok i

/-- R168 to R181: what the decoder reads from a word is well formed, belongs in that slot, and has that word and no other as
its encoding: every bit of a word counts. -/
def Obligations.DecodeExact : Prop :=
  ∀ (sl : Slot) (w : Nat) (i : Instr), w < 2 ^ 30 → decodeSlot sl w = .ok i →
    i.wf = true ∧ i.slot = some sl ∧ i.encode = some w

/-- Every step keeps every memory of the package (the HBM, the local buffers, the saved ones and the symbols of the erasure
group) in its canonical form: addresses strictly rising and no entry equal to what an unlisted address reads as. The form
is the model's (log 4); the memories are those of R18, R28, R113 and R330. -/
def Obligations.StepKeepsCanonical : Prop :=
  ∀ s t : State, s.Canonical → step s = .next t → t.Canonical

/-- Reset leaves the memories canonical, R79 to R83, R125, R129 and R157 their values in every core, R22, R23 and R26 the
maps, R31 and R32 the time base, R296 the arbiters, R36 the power limit, R365 the spares, R368 and R375 the host's registers
and R384 to R396 the debug registers; no core runs a task, and nothing is on its way. The sequence counter's first number
and the empty agenda are the model's choice (logs 1, 2). -/
def Obligations.ResetState : Prop :=
  State.reset.Canonical ∧
  (∀ n : Nat, let c := State.reset.core n
    c.task = none ∧ c.bufacl = 0xFFEFEF#24 ∧ c.ackcfg = 0x30014#20 ∧ c.mapgen = 0 ∧ c.cycles = 0 ∧ c.seqctr = 0 ∧
    c.weight = 1 ∧ c.fault = FaultRegs.zero ∧ c.reqs = [] ∧ c.cmds = [] ∧ c.mxq = [] ∧ c.late = [] ∧
    (∀ h : Fin 16, c.rings[h] = Ring.zero) ∧
    (∀ k : Fin 16, (c.chans[k]).hnd = 0 ∧ (c.chans[k]).cond = 0 ∧ (c.chans[k]).till = 0 ∧ (c.chans[k]).wait = 0 ∧
      (c.chans[k]).jnext = 0 ∧ (c.chans[k]).queue = [] ∧
      (c.chans[k]).ctl = if k = 15 then 0x87000000#64 else 0) ∧
    c.dbg.dbgctl = 0 ∧ c.dbg.halted = false ∧ c.dbg.bp0 = 0 ∧ c.dbg.bp1 = 0 ∧ c.dbg.trcctl = 0 ∧ c.dbg.evsel = 0 ∧
    c.dbg.evcnt = 0 ∧ c.dbg.slctl = 0 ∧ c.dbg.drptime = 0 ∧ c.dbg.drpaddr = 0) ∧
  (∀ core : Nat, State.reset.coreEntry core = clusterRank core) ∧
  (∀ mxu : Nat, State.reset.arbiter mxu = ⟨7, 1⟩) ∧
  (∀ n : Fin 24, (State.reset.iod.dieMap[n]).toNat = n.val) ∧ (∀ n : Fin 8, (State.reset.iod.mdMap[n]).toNat = n.val) ∧
  State.reset.iod.ptime = 0 ∧ State.reset.iod.sync = false ∧ State.reset.iod.step = false ∧
  (∀ q : Fin 64, State.reset.iod.queues[q] = Queue.reset ∧ (State.reset.iod.queues[q]).pmax = 7 ∧
    (State.reset.iod.queues[q]).sqen = false ∧ (State.reset.iod.queues[q]).cqen = false) ∧
  State.reset.iod.fq.phase = true ∧ State.reset.iod.fq.en = false ∧
  State.reset.sp.plim = 8400000 ∧ State.reset.sp.spares.length = 2 ∧
  State.reset.jobs = [] ∧ State.reset.net.msgs = [] ∧ State.reset.agenda = []

end
end

