-- ==== Sys2Proof/Laws/State.lean ====
section
/-! SUPPORT. What each named update of the state and of a core leaves of every field: one lemma per field and update, all
true by unfolding, and the reads of the sparse maps. -/

namespace Sys2Proof.Machine

@[simp] theorem State.setCore_dies (s : State) (n : Nat) (c : Core) : (s.setCore n c).dies = s.dies := rfl
@[simp] theorem State.setCore_mem (s : State) (n : Nat) (c : Core) : (s.setCore n c).mem = s.mem := rfl
@[simp] theorem State.setCore_net (s : State) (n : Nat) (c : Core) : (s.setCore n c).net = s.net := rfl
@[simp] theorem State.setCore_iod (s : State) (n : Nat) (c : Core) : (s.setCore n c).iod = s.iod := rfl
@[simp] theorem State.setCore_sp (s : State) (n : Nat) (c : Core) : (s.setCore n c).sp = s.sp := rfl
@[simp] theorem State.setCore_jobs (s : State) (n : Nat) (c : Core) : (s.setCore n c).jobs = s.jobs := rfl
@[simp] theorem State.setCore_gangs (s : State) (n : Nat) (c : Core) : (s.setCore n c).gangs = s.gangs := rfl
@[simp] theorem State.setCore_resid (s : State) (n : Nat) (c : Core) : (s.setCore n c).resid = s.resid := rfl
@[simp] theorem State.setCore_replicas (s : State) (n : Nat) (c : Core) : (s.setCore n c).replicas = s.replicas := rfl
@[simp] theorem State.setCore_erasure (s : State) (n : Nat) (c : Core) : (s.setCore n c).erasure = s.erasure := rfl
@[simp] theorem State.setCore_agenda (s : State) (n : Nat) (c : Core) : (s.setCore n c).agenda = s.agenda := rfl
@[simp] theorem State.setCore_cur (s : State) (n : Nat) (c : Core) : (s.setCore n c).cur = s.cur := rfl
@[simp] theorem State.setCore_last (s : State) (n : Nat) (c : Core) : (s.setCore n c).last = s.last := rfl
@[simp] theorem State.setCore_fresh (s : State) (n : Nat) (c : Core) : (s.setCore n c).fresh = s.fresh := rfl

@[simp] theorem State.modCore_dies (s : State) (n : Nat) (f : Core → Core) : (s.modCore n f).dies = s.dies := rfl
@[simp] theorem State.modCore_mem (s : State) (n : Nat) (f : Core → Core) : (s.modCore n f).mem = s.mem := rfl
@[simp] theorem State.modCore_net (s : State) (n : Nat) (f : Core → Core) : (s.modCore n f).net = s.net := rfl
@[simp] theorem State.modCore_iod (s : State) (n : Nat) (f : Core → Core) : (s.modCore n f).iod = s.iod := rfl
@[simp] theorem State.modCore_sp (s : State) (n : Nat) (f : Core → Core) : (s.modCore n f).sp = s.sp := rfl
@[simp] theorem State.modCore_jobs (s : State) (n : Nat) (f : Core → Core) : (s.modCore n f).jobs = s.jobs := rfl
@[simp] theorem State.modCore_gangs (s : State) (n : Nat) (f : Core → Core) : (s.modCore n f).gangs = s.gangs := rfl
@[simp] theorem State.modCore_resid (s : State) (n : Nat) (f : Core → Core) : (s.modCore n f).resid = s.resid := rfl
@[simp] theorem State.modCore_replicas (s : State) (n : Nat) (f : Core → Core) : (s.modCore n f).replicas = s.replicas := rfl
@[simp] theorem State.modCore_erasure (s : State) (n : Nat) (f : Core → Core) : (s.modCore n f).erasure = s.erasure := rfl
@[simp] theorem State.modCore_agenda (s : State) (n : Nat) (f : Core → Core) : (s.modCore n f).agenda = s.agenda := rfl
@[simp] theorem State.modCore_cur (s : State) (n : Nat) (f : Core → Core) : (s.modCore n f).cur = s.cur := rfl
@[simp] theorem State.modCore_last (s : State) (n : Nat) (f : Core → Core) : (s.modCore n f).last = s.last := rfl
@[simp] theorem State.modCore_fresh (s : State) (n : Nat) (f : Core → Core) : (s.modCore n f).fresh = s.fresh := rfl

@[simp] theorem State.setDie_cores (s : State) (n : Nat) (d : Die) : (s.setDie n d).cores = s.cores := rfl
@[simp] theorem State.setDie_mem (s : State) (n : Nat) (d : Die) : (s.setDie n d).mem = s.mem := rfl
@[simp] theorem State.setDie_net (s : State) (n : Nat) (d : Die) : (s.setDie n d).net = s.net := rfl
@[simp] theorem State.setDie_iod (s : State) (n : Nat) (d : Die) : (s.setDie n d).iod = s.iod := rfl
@[simp] theorem State.setDie_sp (s : State) (n : Nat) (d : Die) : (s.setDie n d).sp = s.sp := rfl
@[simp] theorem State.setDie_jobs (s : State) (n : Nat) (d : Die) : (s.setDie n d).jobs = s.jobs := rfl
@[simp] theorem State.setDie_gangs (s : State) (n : Nat) (d : Die) : (s.setDie n d).gangs = s.gangs := rfl
@[simp] theorem State.setDie_resid (s : State) (n : Nat) (d : Die) : (s.setDie n d).resid = s.resid := rfl
@[simp] theorem State.setDie_replicas (s : State) (n : Nat) (d : Die) : (s.setDie n d).replicas = s.replicas := rfl
@[simp] theorem State.setDie_erasure (s : State) (n : Nat) (d : Die) : (s.setDie n d).erasure = s.erasure := rfl
@[simp] theorem State.setDie_agenda (s : State) (n : Nat) (d : Die) : (s.setDie n d).agenda = s.agenda := rfl
@[simp] theorem State.setDie_cur (s : State) (n : Nat) (d : Die) : (s.setDie n d).cur = s.cur := rfl
@[simp] theorem State.setDie_last (s : State) (n : Nat) (d : Die) : (s.setDie n d).last = s.last := rfl
@[simp] theorem State.setDie_fresh (s : State) (n : Nat) (d : Die) : (s.setDie n d).fresh = s.fresh := rfl

@[simp] theorem State.modDie_cores (s : State) (n : Nat) (f : Die → Die) : (s.modDie n f).cores = s.cores := rfl
@[simp] theorem State.modDie_mem (s : State) (n : Nat) (f : Die → Die) : (s.modDie n f).mem = s.mem := rfl
@[simp] theorem State.modDie_net (s : State) (n : Nat) (f : Die → Die) : (s.modDie n f).net = s.net := rfl
@[simp] theorem State.modDie_iod (s : State) (n : Nat) (f : Die → Die) : (s.modDie n f).iod = s.iod := rfl
@[simp] theorem State.modDie_sp (s : State) (n : Nat) (f : Die → Die) : (s.modDie n f).sp = s.sp := rfl
@[simp] theorem State.modDie_jobs (s : State) (n : Nat) (f : Die → Die) : (s.modDie n f).jobs = s.jobs := rfl
@[simp] theorem State.modDie_gangs (s : State) (n : Nat) (f : Die → Die) : (s.modDie n f).gangs = s.gangs := rfl
@[simp] theorem State.modDie_resid (s : State) (n : Nat) (f : Die → Die) : (s.modDie n f).resid = s.resid := rfl
@[simp] theorem State.modDie_replicas (s : State) (n : Nat) (f : Die → Die) : (s.modDie n f).replicas = s.replicas := rfl
@[simp] theorem State.modDie_erasure (s : State) (n : Nat) (f : Die → Die) : (s.modDie n f).erasure = s.erasure := rfl
@[simp] theorem State.modDie_agenda (s : State) (n : Nat) (f : Die → Die) : (s.modDie n f).agenda = s.agenda := rfl
@[simp] theorem State.modDie_cur (s : State) (n : Nat) (f : Die → Die) : (s.modDie n f).cur = s.cur := rfl
@[simp] theorem State.modDie_last (s : State) (n : Nat) (f : Die → Die) : (s.modDie n f).last = s.last := rfl
@[simp] theorem State.modDie_fresh (s : State) (n : Nat) (f : Die → Die) : (s.modDie n f).fresh = s.fresh := rfl

@[simp] theorem State.modGang_cores (s : State) (j g : Nat) (f : Gang → Gang) : (s.modGang j g f).cores = s.cores := rfl
@[simp] theorem State.modGang_dies (s : State) (j g : Nat) (f : Gang → Gang) : (s.modGang j g f).dies = s.dies := rfl
@[simp] theorem State.modGang_mem (s : State) (j g : Nat) (f : Gang → Gang) : (s.modGang j g f).mem = s.mem := rfl
@[simp] theorem State.modGang_net (s : State) (j g : Nat) (f : Gang → Gang) : (s.modGang j g f).net = s.net := rfl
@[simp] theorem State.modGang_iod (s : State) (j g : Nat) (f : Gang → Gang) : (s.modGang j g f).iod = s.iod := rfl
@[simp] theorem State.modGang_sp (s : State) (j g : Nat) (f : Gang → Gang) : (s.modGang j g f).sp = s.sp := rfl
@[simp] theorem State.modGang_jobs (s : State) (j g : Nat) (f : Gang → Gang) : (s.modGang j g f).jobs = s.jobs := rfl
@[simp] theorem State.modGang_resid (s : State) (j g : Nat) (f : Gang → Gang) : (s.modGang j g f).resid = s.resid := rfl
@[simp] theorem State.modGang_replicas (s : State) (j g : Nat) (f : Gang → Gang) : (s.modGang j g f).replicas = s.replicas := rfl
@[simp] theorem State.modGang_erasure (s : State) (j g : Nat) (f : Gang → Gang) : (s.modGang j g f).erasure = s.erasure := rfl
@[simp] theorem State.modGang_agenda (s : State) (j g : Nat) (f : Gang → Gang) : (s.modGang j g f).agenda = s.agenda := rfl
@[simp] theorem State.modGang_cur (s : State) (j g : Nat) (f : Gang → Gang) : (s.modGang j g f).cur = s.cur := rfl
@[simp] theorem State.modGang_last (s : State) (j g : Nat) (f : Gang → Gang) : (s.modGang j g f).last = s.last := rfl
@[simp] theorem State.modGang_fresh (s : State) (j g : Nat) (f : Gang → Gang) : (s.modGang j g f).fresh = s.fresh := rfl

@[simp] theorem State.send_cores (s : State) (m : Msg) : (s.send m).cores = s.cores := rfl
@[simp] theorem State.send_dies (s : State) (m : Msg) : (s.send m).dies = s.dies := rfl
@[simp] theorem State.send_mem (s : State) (m : Msg) : (s.send m).mem = s.mem := rfl
@[simp] theorem State.send_iod (s : State) (m : Msg) : (s.send m).iod = s.iod := rfl
@[simp] theorem State.send_sp (s : State) (m : Msg) : (s.send m).sp = s.sp := rfl
@[simp] theorem State.send_jobs (s : State) (m : Msg) : (s.send m).jobs = s.jobs := rfl
@[simp] theorem State.send_gangs (s : State) (m : Msg) : (s.send m).gangs = s.gangs := rfl
@[simp] theorem State.send_resid (s : State) (m : Msg) : (s.send m).resid = s.resid := rfl
@[simp] theorem State.send_replicas (s : State) (m : Msg) : (s.send m).replicas = s.replicas := rfl
@[simp] theorem State.send_erasure (s : State) (m : Msg) : (s.send m).erasure = s.erasure := rfl
@[simp] theorem State.send_agenda (s : State) (m : Msg) : (s.send m).agenda = s.agenda := rfl
@[simp] theorem State.send_cur (s : State) (m : Msg) : (s.send m).cur = s.cur := rfl
@[simp] theorem State.send_last (s : State) (m : Msg) : (s.send m).last = s.last := rfl
@[simp] theorem State.send_fresh (s : State) (m : Msg) : (s.send m).fresh = s.fresh := rfl

@[simp] theorem State.doneAs_dies (s : State) (c : Core) : (s.doneAs c).dies = s.dies := rfl
@[simp] theorem State.doneAs_mem (s : State) (c : Core) : (s.doneAs c).mem = s.mem := rfl
@[simp] theorem State.doneAs_net (s : State) (c : Core) : (s.doneAs c).net = s.net := rfl
@[simp] theorem State.doneAs_iod (s : State) (c : Core) : (s.doneAs c).iod = s.iod := rfl
@[simp] theorem State.doneAs_sp (s : State) (c : Core) : (s.doneAs c).sp = s.sp := rfl
@[simp] theorem State.doneAs_jobs (s : State) (c : Core) : (s.doneAs c).jobs = s.jobs := rfl
@[simp] theorem State.doneAs_gangs (s : State) (c : Core) : (s.doneAs c).gangs = s.gangs := rfl
@[simp] theorem State.doneAs_resid (s : State) (c : Core) : (s.doneAs c).resid = s.resid := rfl
@[simp] theorem State.doneAs_replicas (s : State) (c : Core) : (s.doneAs c).replicas = s.replicas := rfl
@[simp] theorem State.doneAs_erasure (s : State) (c : Core) : (s.doneAs c).erasure = s.erasure := rfl
@[simp] theorem State.doneAs_agenda (s : State) (c : Core) : (s.doneAs c).agenda = s.agenda := rfl
@[simp] theorem State.doneAs_cur (s : State) (c : Core) : (s.doneAs c).cur = s.cur := rfl
@[simp] theorem State.doneAs_fresh (s : State) (c : Core) : (s.doneAs c).fresh = s.fresh := rfl

@[simp] theorem State.doneSame_cores (s : State) : (s.doneSame).cores = s.cores := rfl
@[simp] theorem State.doneSame_dies (s : State) : (s.doneSame).dies = s.dies := rfl
@[simp] theorem State.doneSame_mem (s : State) : (s.doneSame).mem = s.mem := rfl
@[simp] theorem State.doneSame_net (s : State) : (s.doneSame).net = s.net := rfl
@[simp] theorem State.doneSame_iod (s : State) : (s.doneSame).iod = s.iod := rfl
@[simp] theorem State.doneSame_sp (s : State) : (s.doneSame).sp = s.sp := rfl
@[simp] theorem State.doneSame_jobs (s : State) : (s.doneSame).jobs = s.jobs := rfl
@[simp] theorem State.doneSame_gangs (s : State) : (s.doneSame).gangs = s.gangs := rfl
@[simp] theorem State.doneSame_resid (s : State) : (s.doneSame).resid = s.resid := rfl
@[simp] theorem State.doneSame_replicas (s : State) : (s.doneSame).replicas = s.replicas := rfl
@[simp] theorem State.doneSame_erasure (s : State) : (s.doneSame).erasure = s.erasure := rfl
@[simp] theorem State.doneSame_agenda (s : State) : (s.doneSame).agenda = s.agenda := rfl
@[simp] theorem State.doneSame_cur (s : State) : (s.doneSame).cur = s.cur := rfl
@[simp] theorem State.doneSame_fresh (s : State) : (s.doneSame).fresh = s.fresh := rfl

@[simp] theorem State.dropFetch_cores (s : State) (n : Nat) : (s.dropFetch n).cores = s.cores := rfl
@[simp] theorem State.dropFetch_dies (s : State) (n : Nat) : (s.dropFetch n).dies = s.dies := rfl
@[simp] theorem State.dropFetch_mem (s : State) (n : Nat) : (s.dropFetch n).mem = s.mem := rfl
@[simp] theorem State.dropFetch_net (s : State) (n : Nat) : (s.dropFetch n).net = s.net := rfl
@[simp] theorem State.dropFetch_sp (s : State) (n : Nat) : (s.dropFetch n).sp = s.sp := rfl
@[simp] theorem State.dropFetch_jobs (s : State) (n : Nat) : (s.dropFetch n).jobs = s.jobs := rfl
@[simp] theorem State.dropFetch_gangs (s : State) (n : Nat) : (s.dropFetch n).gangs = s.gangs := rfl
@[simp] theorem State.dropFetch_resid (s : State) (n : Nat) : (s.dropFetch n).resid = s.resid := rfl
@[simp] theorem State.dropFetch_replicas (s : State) (n : Nat) : (s.dropFetch n).replicas = s.replicas := rfl
@[simp] theorem State.dropFetch_erasure (s : State) (n : Nat) : (s.dropFetch n).erasure = s.erasure := rfl
@[simp] theorem State.dropFetch_agenda (s : State) (n : Nat) : (s.dropFetch n).agenda = s.agenda := rfl
@[simp] theorem State.dropFetch_cur (s : State) (n : Nat) : (s.dropFetch n).cur = s.cur := rfl
@[simp] theorem State.dropFetch_last (s : State) (n : Nat) : (s.dropFetch n).last = s.last := rfl
@[simp] theorem State.dropFetch_fresh (s : State) (n : Nat) : (s.dropFetch n).fresh = s.fresh := rfl

@[simp] theorem State.logSp_cores (s : State) (e : SpLog) : (s.logSp e).cores = s.cores := rfl
@[simp] theorem State.logSp_dies (s : State) (e : SpLog) : (s.logSp e).dies = s.dies := rfl
@[simp] theorem State.logSp_mem (s : State) (e : SpLog) : (s.logSp e).mem = s.mem := rfl
@[simp] theorem State.logSp_net (s : State) (e : SpLog) : (s.logSp e).net = s.net := rfl
@[simp] theorem State.logSp_iod (s : State) (e : SpLog) : (s.logSp e).iod = s.iod := rfl
@[simp] theorem State.logSp_jobs (s : State) (e : SpLog) : (s.logSp e).jobs = s.jobs := rfl
@[simp] theorem State.logSp_gangs (s : State) (e : SpLog) : (s.logSp e).gangs = s.gangs := rfl
@[simp] theorem State.logSp_resid (s : State) (e : SpLog) : (s.logSp e).resid = s.resid := rfl
@[simp] theorem State.logSp_replicas (s : State) (e : SpLog) : (s.logSp e).replicas = s.replicas := rfl
@[simp] theorem State.logSp_erasure (s : State) (e : SpLog) : (s.logSp e).erasure = s.erasure := rfl
@[simp] theorem State.logSp_agenda (s : State) (e : SpLog) : (s.logSp e).agenda = s.agenda := rfl
@[simp] theorem State.logSp_cur (s : State) (e : SpLog) : (s.logSp e).cur = s.cur := rfl
@[simp] theorem State.logSp_last (s : State) (e : SpLog) : (s.logSp e).last = s.last := rfl
@[simp] theorem State.logSp_fresh (s : State) (e : SpLog) : (s.logSp e).fresh = s.fresh := rfl

@[simp] theorem State.applyAll_cores (s : State) (pa : Nat) (bytes : List Byte) : (s.applyAll pa bytes).cores = s.cores := rfl
@[simp] theorem State.applyAll_dies (s : State) (pa : Nat) (bytes : List Byte) : (s.applyAll pa bytes).dies = s.dies := rfl
@[simp] theorem State.applyAll_sp (s : State) (pa : Nat) (bytes : List Byte) : (s.applyAll pa bytes).sp = s.sp := rfl
@[simp] theorem State.applyAll_jobs (s : State) (pa : Nat) (bytes : List Byte) : (s.applyAll pa bytes).jobs = s.jobs := rfl
@[simp] theorem State.applyAll_gangs (s : State) (pa : Nat) (bytes : List Byte) : (s.applyAll pa bytes).gangs = s.gangs := rfl
@[simp] theorem State.applyAll_resid (s : State) (pa : Nat) (bytes : List Byte) : (s.applyAll pa bytes).resid = s.resid := rfl
@[simp] theorem State.applyAll_replicas (s : State) (pa : Nat) (bytes : List Byte) : (s.applyAll pa bytes).replicas = s.replicas := rfl
@[simp] theorem State.applyAll_erasure (s : State) (pa : Nat) (bytes : List Byte) : (s.applyAll pa bytes).erasure = s.erasure := rfl
@[simp] theorem State.applyAll_agenda (s : State) (pa : Nat) (bytes : List Byte) : (s.applyAll pa bytes).agenda = s.agenda := rfl
@[simp] theorem State.applyAll_cur (s : State) (pa : Nat) (bytes : List Byte) : (s.applyAll pa bytes).cur = s.cur := rfl
@[simp] theorem State.applyAll_last (s : State) (pa : Nat) (bytes : List Byte) : (s.applyAll pa bytes).last = s.last := rfl
@[simp] theorem State.applyAll_fresh (s : State) (pa : Nat) (bytes : List Byte) : (s.applyAll pa bytes).fresh = s.fresh := rfl

@[simp] theorem Core.setX_before (c : Core) (d : Fin 32) (w : Word) : (c.setX d w).before = c.before := rfl
@[simp] theorem Core.setX_pc (c : Core) (d : Fin 32) (w : Word) : (c.setX d w).pc = c.pc := rfl
@[simp] theorem Core.setX_target (c : Core) (d : Fin 32) (w : Word) : (c.setX d w).target = c.target := rfl
@[simp] theorem Core.setX_endSeen (c : Core) (d : Fin 32) (w : Word) : (c.setX d w).endSeen = c.endSeen := rfl
@[simp] theorem Core.setX_brkSeen (c : Core) (d : Fin 32) (w : Word) : (c.setX d w).brkSeen = c.brkSeen := rfl
@[simp] theorem Core.setX_fstat (c : Core) (d : Fin 32) (w : Word) : (c.setX d w).fstat = c.fstat := rfl
@[simp] theorem Core.setX_table (c : Core) (d : Fin 32) (w : Word) : (c.setX d w).table = c.table := rfl
@[simp] theorem Core.setX_task (c : Core) (d : Fin 32) (w : Word) : (c.setX d w).task = c.task := rfl
@[simp] theorem Core.setX_serials (c : Core) (d : Fin 32) (w : Word) : (c.setX d w).serials = c.serials := rfl
@[simp] theorem Core.setX_positions (c : Core) (d : Fin 32) (w : Word) : (c.setX d w).positions = c.positions := rfl
@[simp] theorem Core.setX_bundlePos (c : Core) (d : Fin 32) (w : Word) : (c.setX d w).bundlePos = c.bundlePos := rfl
@[simp] theorem Core.setX_taskCount (c : Core) (d : Fin 32) (w : Word) : (c.setX d w).taskCount = c.taskCount := rfl
@[simp] theorem Core.setX_spcred (c : Core) (d : Fin 32) (w : Word) : (c.setX d w).spcred = c.spcred := rfl
@[simp] theorem Core.setX_ackcfg (c : Core) (d : Fin 32) (w : Word) : (c.setX d w).ackcfg = c.ackcfg := rfl
@[simp] theorem Core.setX_bufacl (c : Core) (d : Fin 32) (w : Word) : (c.setX d w).bufacl = c.bufacl := rfl
@[simp] theorem Core.setX_jobattr (c : Core) (d : Fin 32) (w : Word) : (c.setX d w).jobattr = c.jobattr := rfl
@[simp] theorem Core.setX_jobBudget (c : Core) (d : Fin 32) (w : Word) : (c.setX d w).jobBudget = c.jobBudget := rfl
@[simp] theorem Core.setX_mapgen (c : Core) (d : Fin 32) (w : Word) : (c.setX d w).mapgen = c.mapgen := rfl
@[simp] theorem Core.setX_cycles (c : Core) (d : Fin 32) (w : Word) : (c.setX d w).cycles = c.cycles := rfl
@[simp] theorem Core.setX_seqctr (c : Core) (d : Fin 32) (w : Word) : (c.setX d w).seqctr = c.seqctr := rfl
@[simp] theorem Core.setX_seqBlocks (c : Core) (d : Fin 32) (w : Word) : (c.setX d w).seqBlocks = c.seqBlocks := rfl
@[simp] theorem Core.setX_chans (c : Core) (d : Fin 32) (w : Word) : (c.setX d w).chans = c.chans := rfl
@[simp] theorem Core.setX_written (c : Core) (d : Fin 32) (w : Word) : (c.setX d w).written = c.written := rfl
@[simp] theorem Core.setX_posts (c : Core) (d : Fin 32) (w : Word) : (c.setX d w).posts = c.posts := rfl
@[simp] theorem Core.setX_lastChan (c : Core) (d : Fin 32) (w : Word) : (c.setX d w).lastChan = c.lastChan := rfl
@[simp] theorem Core.setX_rings (c : Core) (d : Fin 32) (w : Word) : (c.setX d w).rings = c.rings := rfl
@[simp] theorem Core.setX_loc (c : Core) (d : Fin 32) (w : Word) : (c.setX d w).loc = c.loc := rfl
@[simp] theorem Core.setX_reqs (c : Core) (d : Fin 32) (w : Word) : (c.setX d w).reqs = c.reqs := rfl
@[simp] theorem Core.setX_cmds (c : Core) (d : Fin 32) (w : Word) : (c.setX d w).cmds = c.cmds := rfl
@[simp] theorem Core.setX_holds (c : Core) (d : Fin 32) (w : Word) : (c.setX d w).holds = c.holds := rfl
@[simp] theorem Core.setX_outbox (c : Core) (d : Fin 32) (w : Word) : (c.setX d w).outbox = c.outbox := rfl
@[simp] theorem Core.setX_readFrom (c : Core) (d : Fin 32) (w : Word) : (c.setX d w).readFrom = c.readFrom := rfl
@[simp] theorem Core.setX_mxq (c : Core) (d : Fin 32) (w : Word) : (c.setX d w).mxq = c.mxq := rfl
@[simp] theorem Core.setX_mxRetired (c : Core) (d : Fin 32) (w : Word) : (c.setX d w).mxRetired = c.mxRetired := rfl
@[simp] theorem Core.setX_weight (c : Core) (d : Fin 32) (w : Word) : (c.setX d w).weight = c.weight := rfl
@[simp] theorem Core.setX_fault (c : Core) (d : Fin 32) (w : Word) : (c.setX d w).fault = c.fault := rfl
@[simp] theorem Core.setX_dbg (c : Core) (d : Fin 32) (w : Word) : (c.setX d w).dbg = c.dbg := rfl
@[simp] theorem Core.setX_late (c : Core) (d : Fin 32) (w : Word) : (c.setX d w).late = c.late := rfl
@[simp] theorem Core.setX_stalled (c : Core) (d : Fin 32) (w : Word) : (c.setX d w).stalled = c.stalled := rfl
@[simp] theorem Core.setX_collUses (c : Core) (d : Fin 32) (w : Word) : (c.setX d w).collUses = c.collUses := rfl
@[simp] theorem Core.setX_tlb (c : Core) (d : Fin 32) (w : Word) : (c.setX d w).tlb = c.tlb := rfl
@[simp] theorem Core.setX_gang (c : Core) (d : Fin 32) (w : Word) : (c.setX d w).gang = c.gang := rfl
@[simp] theorem Core.setX_rank (c : Core) (d : Fin 32) (w : Word) : (c.setX d w).rank = c.rank := rfl
@[simp] theorem Core.setX_life (c : Core) (d : Fin 32) (w : Word) : (c.setX d w).life = c.life := rfl
@[simp] theorem Core.setX_throttled (c : Core) (d : Fin 32) (w : Word) : (c.setX d w).throttled = c.throttled := rfl

@[simp] theorem Core.setK_before (c : Core) (d : Fin 8) (b : Bool) : (c.setK d b).before = c.before := rfl
@[simp] theorem Core.setK_pc (c : Core) (d : Fin 8) (b : Bool) : (c.setK d b).pc = c.pc := rfl
@[simp] theorem Core.setK_target (c : Core) (d : Fin 8) (b : Bool) : (c.setK d b).target = c.target := rfl
@[simp] theorem Core.setK_endSeen (c : Core) (d : Fin 8) (b : Bool) : (c.setK d b).endSeen = c.endSeen := rfl
@[simp] theorem Core.setK_brkSeen (c : Core) (d : Fin 8) (b : Bool) : (c.setK d b).brkSeen = c.brkSeen := rfl
@[simp] theorem Core.setK_fstat (c : Core) (d : Fin 8) (b : Bool) : (c.setK d b).fstat = c.fstat := rfl
@[simp] theorem Core.setK_table (c : Core) (d : Fin 8) (b : Bool) : (c.setK d b).table = c.table := rfl
@[simp] theorem Core.setK_task (c : Core) (d : Fin 8) (b : Bool) : (c.setK d b).task = c.task := rfl
@[simp] theorem Core.setK_serials (c : Core) (d : Fin 8) (b : Bool) : (c.setK d b).serials = c.serials := rfl
@[simp] theorem Core.setK_positions (c : Core) (d : Fin 8) (b : Bool) : (c.setK d b).positions = c.positions := rfl
@[simp] theorem Core.setK_bundlePos (c : Core) (d : Fin 8) (b : Bool) : (c.setK d b).bundlePos = c.bundlePos := rfl
@[simp] theorem Core.setK_taskCount (c : Core) (d : Fin 8) (b : Bool) : (c.setK d b).taskCount = c.taskCount := rfl
@[simp] theorem Core.setK_spcred (c : Core) (d : Fin 8) (b : Bool) : (c.setK d b).spcred = c.spcred := rfl
@[simp] theorem Core.setK_ackcfg (c : Core) (d : Fin 8) (b : Bool) : (c.setK d b).ackcfg = c.ackcfg := rfl
@[simp] theorem Core.setK_bufacl (c : Core) (d : Fin 8) (b : Bool) : (c.setK d b).bufacl = c.bufacl := rfl
@[simp] theorem Core.setK_jobattr (c : Core) (d : Fin 8) (b : Bool) : (c.setK d b).jobattr = c.jobattr := rfl
@[simp] theorem Core.setK_jobBudget (c : Core) (d : Fin 8) (b : Bool) : (c.setK d b).jobBudget = c.jobBudget := rfl
@[simp] theorem Core.setK_mapgen (c : Core) (d : Fin 8) (b : Bool) : (c.setK d b).mapgen = c.mapgen := rfl
@[simp] theorem Core.setK_cycles (c : Core) (d : Fin 8) (b : Bool) : (c.setK d b).cycles = c.cycles := rfl
@[simp] theorem Core.setK_seqctr (c : Core) (d : Fin 8) (b : Bool) : (c.setK d b).seqctr = c.seqctr := rfl
@[simp] theorem Core.setK_seqBlocks (c : Core) (d : Fin 8) (b : Bool) : (c.setK d b).seqBlocks = c.seqBlocks := rfl
@[simp] theorem Core.setK_chans (c : Core) (d : Fin 8) (b : Bool) : (c.setK d b).chans = c.chans := rfl
@[simp] theorem Core.setK_written (c : Core) (d : Fin 8) (b : Bool) : (c.setK d b).written = c.written := rfl
@[simp] theorem Core.setK_posts (c : Core) (d : Fin 8) (b : Bool) : (c.setK d b).posts = c.posts := rfl
@[simp] theorem Core.setK_lastChan (c : Core) (d : Fin 8) (b : Bool) : (c.setK d b).lastChan = c.lastChan := rfl
@[simp] theorem Core.setK_rings (c : Core) (d : Fin 8) (b : Bool) : (c.setK d b).rings = c.rings := rfl
@[simp] theorem Core.setK_loc (c : Core) (d : Fin 8) (b : Bool) : (c.setK d b).loc = c.loc := rfl
@[simp] theorem Core.setK_reqs (c : Core) (d : Fin 8) (b : Bool) : (c.setK d b).reqs = c.reqs := rfl
@[simp] theorem Core.setK_cmds (c : Core) (d : Fin 8) (b : Bool) : (c.setK d b).cmds = c.cmds := rfl
@[simp] theorem Core.setK_holds (c : Core) (d : Fin 8) (b : Bool) : (c.setK d b).holds = c.holds := rfl
@[simp] theorem Core.setK_outbox (c : Core) (d : Fin 8) (b : Bool) : (c.setK d b).outbox = c.outbox := rfl
@[simp] theorem Core.setK_readFrom (c : Core) (d : Fin 8) (b : Bool) : (c.setK d b).readFrom = c.readFrom := rfl
@[simp] theorem Core.setK_mxq (c : Core) (d : Fin 8) (b : Bool) : (c.setK d b).mxq = c.mxq := rfl
@[simp] theorem Core.setK_mxRetired (c : Core) (d : Fin 8) (b : Bool) : (c.setK d b).mxRetired = c.mxRetired := rfl
@[simp] theorem Core.setK_weight (c : Core) (d : Fin 8) (b : Bool) : (c.setK d b).weight = c.weight := rfl
@[simp] theorem Core.setK_fault (c : Core) (d : Fin 8) (b : Bool) : (c.setK d b).fault = c.fault := rfl
@[simp] theorem Core.setK_dbg (c : Core) (d : Fin 8) (b : Bool) : (c.setK d b).dbg = c.dbg := rfl
@[simp] theorem Core.setK_late (c : Core) (d : Fin 8) (b : Bool) : (c.setK d b).late = c.late := rfl
@[simp] theorem Core.setK_stalled (c : Core) (d : Fin 8) (b : Bool) : (c.setK d b).stalled = c.stalled := rfl
@[simp] theorem Core.setK_collUses (c : Core) (d : Fin 8) (b : Bool) : (c.setK d b).collUses = c.collUses := rfl
@[simp] theorem Core.setK_tlb (c : Core) (d : Fin 8) (b : Bool) : (c.setK d b).tlb = c.tlb := rfl
@[simp] theorem Core.setK_gang (c : Core) (d : Fin 8) (b : Bool) : (c.setK d b).gang = c.gang := rfl
@[simp] theorem Core.setK_rank (c : Core) (d : Fin 8) (b : Bool) : (c.setK d b).rank = c.rank := rfl
@[simp] theorem Core.setK_life (c : Core) (d : Fin 8) (b : Bool) : (c.setK d b).life = c.life := rfl
@[simp] theorem Core.setK_throttled (c : Core) (d : Fin 8) (b : Bool) : (c.setK d b).throttled = c.throttled := rfl

@[simp] theorem Core.putV_before (c : Core) (d : Fin 32) (v : Vec) : (c.putV d v).before = c.before := rfl
@[simp] theorem Core.putV_pc (c : Core) (d : Fin 32) (v : Vec) : (c.putV d v).pc = c.pc := rfl
@[simp] theorem Core.putV_target (c : Core) (d : Fin 32) (v : Vec) : (c.putV d v).target = c.target := rfl
@[simp] theorem Core.putV_endSeen (c : Core) (d : Fin 32) (v : Vec) : (c.putV d v).endSeen = c.endSeen := rfl
@[simp] theorem Core.putV_brkSeen (c : Core) (d : Fin 32) (v : Vec) : (c.putV d v).brkSeen = c.brkSeen := rfl
@[simp] theorem Core.putV_fstat (c : Core) (d : Fin 32) (v : Vec) : (c.putV d v).fstat = c.fstat := rfl
@[simp] theorem Core.putV_table (c : Core) (d : Fin 32) (v : Vec) : (c.putV d v).table = c.table := rfl
@[simp] theorem Core.putV_task (c : Core) (d : Fin 32) (v : Vec) : (c.putV d v).task = c.task := rfl
@[simp] theorem Core.putV_serials (c : Core) (d : Fin 32) (v : Vec) : (c.putV d v).serials = c.serials := rfl
@[simp] theorem Core.putV_positions (c : Core) (d : Fin 32) (v : Vec) : (c.putV d v).positions = c.positions := rfl
@[simp] theorem Core.putV_bundlePos (c : Core) (d : Fin 32) (v : Vec) : (c.putV d v).bundlePos = c.bundlePos := rfl
@[simp] theorem Core.putV_taskCount (c : Core) (d : Fin 32) (v : Vec) : (c.putV d v).taskCount = c.taskCount := rfl
@[simp] theorem Core.putV_spcred (c : Core) (d : Fin 32) (v : Vec) : (c.putV d v).spcred = c.spcred := rfl
@[simp] theorem Core.putV_ackcfg (c : Core) (d : Fin 32) (v : Vec) : (c.putV d v).ackcfg = c.ackcfg := rfl
@[simp] theorem Core.putV_bufacl (c : Core) (d : Fin 32) (v : Vec) : (c.putV d v).bufacl = c.bufacl := rfl
@[simp] theorem Core.putV_jobattr (c : Core) (d : Fin 32) (v : Vec) : (c.putV d v).jobattr = c.jobattr := rfl
@[simp] theorem Core.putV_jobBudget (c : Core) (d : Fin 32) (v : Vec) : (c.putV d v).jobBudget = c.jobBudget := rfl
@[simp] theorem Core.putV_mapgen (c : Core) (d : Fin 32) (v : Vec) : (c.putV d v).mapgen = c.mapgen := rfl
@[simp] theorem Core.putV_cycles (c : Core) (d : Fin 32) (v : Vec) : (c.putV d v).cycles = c.cycles := rfl
@[simp] theorem Core.putV_seqctr (c : Core) (d : Fin 32) (v : Vec) : (c.putV d v).seqctr = c.seqctr := rfl
@[simp] theorem Core.putV_seqBlocks (c : Core) (d : Fin 32) (v : Vec) : (c.putV d v).seqBlocks = c.seqBlocks := rfl
@[simp] theorem Core.putV_chans (c : Core) (d : Fin 32) (v : Vec) : (c.putV d v).chans = c.chans := rfl
@[simp] theorem Core.putV_written (c : Core) (d : Fin 32) (v : Vec) : (c.putV d v).written = c.written := rfl
@[simp] theorem Core.putV_posts (c : Core) (d : Fin 32) (v : Vec) : (c.putV d v).posts = c.posts := rfl
@[simp] theorem Core.putV_lastChan (c : Core) (d : Fin 32) (v : Vec) : (c.putV d v).lastChan = c.lastChan := rfl
@[simp] theorem Core.putV_rings (c : Core) (d : Fin 32) (v : Vec) : (c.putV d v).rings = c.rings := rfl
@[simp] theorem Core.putV_loc (c : Core) (d : Fin 32) (v : Vec) : (c.putV d v).loc = c.loc := rfl
@[simp] theorem Core.putV_reqs (c : Core) (d : Fin 32) (v : Vec) : (c.putV d v).reqs = c.reqs := rfl
@[simp] theorem Core.putV_cmds (c : Core) (d : Fin 32) (v : Vec) : (c.putV d v).cmds = c.cmds := rfl
@[simp] theorem Core.putV_holds (c : Core) (d : Fin 32) (v : Vec) : (c.putV d v).holds = c.holds := rfl
@[simp] theorem Core.putV_outbox (c : Core) (d : Fin 32) (v : Vec) : (c.putV d v).outbox = c.outbox := rfl
@[simp] theorem Core.putV_readFrom (c : Core) (d : Fin 32) (v : Vec) : (c.putV d v).readFrom = c.readFrom := rfl
@[simp] theorem Core.putV_mxq (c : Core) (d : Fin 32) (v : Vec) : (c.putV d v).mxq = c.mxq := rfl
@[simp] theorem Core.putV_mxRetired (c : Core) (d : Fin 32) (v : Vec) : (c.putV d v).mxRetired = c.mxRetired := rfl
@[simp] theorem Core.putV_weight (c : Core) (d : Fin 32) (v : Vec) : (c.putV d v).weight = c.weight := rfl
@[simp] theorem Core.putV_fault (c : Core) (d : Fin 32) (v : Vec) : (c.putV d v).fault = c.fault := rfl
@[simp] theorem Core.putV_dbg (c : Core) (d : Fin 32) (v : Vec) : (c.putV d v).dbg = c.dbg := rfl
@[simp] theorem Core.putV_late (c : Core) (d : Fin 32) (v : Vec) : (c.putV d v).late = c.late := rfl
@[simp] theorem Core.putV_stalled (c : Core) (d : Fin 32) (v : Vec) : (c.putV d v).stalled = c.stalled := rfl
@[simp] theorem Core.putV_collUses (c : Core) (d : Fin 32) (v : Vec) : (c.putV d v).collUses = c.collUses := rfl
@[simp] theorem Core.putV_tlb (c : Core) (d : Fin 32) (v : Vec) : (c.putV d v).tlb = c.tlb := rfl
@[simp] theorem Core.putV_gang (c : Core) (d : Fin 32) (v : Vec) : (c.putV d v).gang = c.gang := rfl
@[simp] theorem Core.putV_rank (c : Core) (d : Fin 32) (v : Vec) : (c.putV d v).rank = c.rank := rfl
@[simp] theorem Core.putV_life (c : Core) (d : Fin 32) (v : Vec) : (c.putV d v).life = c.life := rfl
@[simp] theorem Core.putV_throttled (c : Core) (d : Fin 32) (v : Vec) : (c.putV d v).throttled = c.throttled := rfl

@[simp] theorem Core.raise_regs (c : Core) (f : Flags) : (c.raise f).regs = c.regs := rfl
@[simp] theorem Core.raise_before (c : Core) (f : Flags) : (c.raise f).before = c.before := rfl
@[simp] theorem Core.raise_pc (c : Core) (f : Flags) : (c.raise f).pc = c.pc := rfl
@[simp] theorem Core.raise_target (c : Core) (f : Flags) : (c.raise f).target = c.target := rfl
@[simp] theorem Core.raise_endSeen (c : Core) (f : Flags) : (c.raise f).endSeen = c.endSeen := rfl
@[simp] theorem Core.raise_brkSeen (c : Core) (f : Flags) : (c.raise f).brkSeen = c.brkSeen := rfl
@[simp] theorem Core.raise_table (c : Core) (f : Flags) : (c.raise f).table = c.table := rfl
@[simp] theorem Core.raise_task (c : Core) (f : Flags) : (c.raise f).task = c.task := rfl
@[simp] theorem Core.raise_serials (c : Core) (f : Flags) : (c.raise f).serials = c.serials := rfl
@[simp] theorem Core.raise_positions (c : Core) (f : Flags) : (c.raise f).positions = c.positions := rfl
@[simp] theorem Core.raise_bundlePos (c : Core) (f : Flags) : (c.raise f).bundlePos = c.bundlePos := rfl
@[simp] theorem Core.raise_taskCount (c : Core) (f : Flags) : (c.raise f).taskCount = c.taskCount := rfl
@[simp] theorem Core.raise_spcred (c : Core) (f : Flags) : (c.raise f).spcred = c.spcred := rfl
@[simp] theorem Core.raise_ackcfg (c : Core) (f : Flags) : (c.raise f).ackcfg = c.ackcfg := rfl
@[simp] theorem Core.raise_bufacl (c : Core) (f : Flags) : (c.raise f).bufacl = c.bufacl := rfl
@[simp] theorem Core.raise_jobattr (c : Core) (f : Flags) : (c.raise f).jobattr = c.jobattr := rfl
@[simp] theorem Core.raise_jobBudget (c : Core) (f : Flags) : (c.raise f).jobBudget = c.jobBudget := rfl
@[simp] theorem Core.raise_mapgen (c : Core) (f : Flags) : (c.raise f).mapgen = c.mapgen := rfl
@[simp] theorem Core.raise_cycles (c : Core) (f : Flags) : (c.raise f).cycles = c.cycles := rfl
@[simp] theorem Core.raise_seqctr (c : Core) (f : Flags) : (c.raise f).seqctr = c.seqctr := rfl
@[simp] theorem Core.raise_seqBlocks (c : Core) (f : Flags) : (c.raise f).seqBlocks = c.seqBlocks := rfl
@[simp] theorem Core.raise_chans (c : Core) (f : Flags) : (c.raise f).chans = c.chans := rfl
@[simp] theorem Core.raise_written (c : Core) (f : Flags) : (c.raise f).written = c.written := rfl
@[simp] theorem Core.raise_posts (c : Core) (f : Flags) : (c.raise f).posts = c.posts := rfl
@[simp] theorem Core.raise_lastChan (c : Core) (f : Flags) : (c.raise f).lastChan = c.lastChan := rfl
@[simp] theorem Core.raise_rings (c : Core) (f : Flags) : (c.raise f).rings = c.rings := rfl
@[simp] theorem Core.raise_loc (c : Core) (f : Flags) : (c.raise f).loc = c.loc := rfl
@[simp] theorem Core.raise_reqs (c : Core) (f : Flags) : (c.raise f).reqs = c.reqs := rfl
@[simp] theorem Core.raise_cmds (c : Core) (f : Flags) : (c.raise f).cmds = c.cmds := rfl
@[simp] theorem Core.raise_holds (c : Core) (f : Flags) : (c.raise f).holds = c.holds := rfl
@[simp] theorem Core.raise_outbox (c : Core) (f : Flags) : (c.raise f).outbox = c.outbox := rfl
@[simp] theorem Core.raise_readFrom (c : Core) (f : Flags) : (c.raise f).readFrom = c.readFrom := rfl
@[simp] theorem Core.raise_mxq (c : Core) (f : Flags) : (c.raise f).mxq = c.mxq := rfl
@[simp] theorem Core.raise_mxRetired (c : Core) (f : Flags) : (c.raise f).mxRetired = c.mxRetired := rfl
@[simp] theorem Core.raise_weight (c : Core) (f : Flags) : (c.raise f).weight = c.weight := rfl
@[simp] theorem Core.raise_fault (c : Core) (f : Flags) : (c.raise f).fault = c.fault := rfl
@[simp] theorem Core.raise_dbg (c : Core) (f : Flags) : (c.raise f).dbg = c.dbg := rfl
@[simp] theorem Core.raise_late (c : Core) (f : Flags) : (c.raise f).late = c.late := rfl
@[simp] theorem Core.raise_stalled (c : Core) (f : Flags) : (c.raise f).stalled = c.stalled := rfl
@[simp] theorem Core.raise_collUses (c : Core) (f : Flags) : (c.raise f).collUses = c.collUses := rfl
@[simp] theorem Core.raise_tlb (c : Core) (f : Flags) : (c.raise f).tlb = c.tlb := rfl
@[simp] theorem Core.raise_gang (c : Core) (f : Flags) : (c.raise f).gang = c.gang := rfl
@[simp] theorem Core.raise_rank (c : Core) (f : Flags) : (c.raise f).rank = c.rank := rfl
@[simp] theorem Core.raise_life (c : Core) (f : Flags) : (c.raise f).life = c.life := rfl
@[simp] theorem Core.raise_throttled (c : Core) (f : Flags) : (c.raise f).throttled = c.throttled := rfl

@[simp] theorem Core.modTask_regs (c : Core) (f : Task → Task) : (c.modTask f).regs = c.regs := rfl
@[simp] theorem Core.modTask_before (c : Core) (f : Task → Task) : (c.modTask f).before = c.before := rfl
@[simp] theorem Core.modTask_pc (c : Core) (f : Task → Task) : (c.modTask f).pc = c.pc := rfl
@[simp] theorem Core.modTask_target (c : Core) (f : Task → Task) : (c.modTask f).target = c.target := rfl
@[simp] theorem Core.modTask_endSeen (c : Core) (f : Task → Task) : (c.modTask f).endSeen = c.endSeen := rfl
@[simp] theorem Core.modTask_brkSeen (c : Core) (f : Task → Task) : (c.modTask f).brkSeen = c.brkSeen := rfl
@[simp] theorem Core.modTask_fstat (c : Core) (f : Task → Task) : (c.modTask f).fstat = c.fstat := rfl
@[simp] theorem Core.modTask_table (c : Core) (f : Task → Task) : (c.modTask f).table = c.table := rfl
@[simp] theorem Core.modTask_serials (c : Core) (f : Task → Task) : (c.modTask f).serials = c.serials := rfl
@[simp] theorem Core.modTask_positions (c : Core) (f : Task → Task) : (c.modTask f).positions = c.positions := rfl
@[simp] theorem Core.modTask_bundlePos (c : Core) (f : Task → Task) : (c.modTask f).bundlePos = c.bundlePos := rfl
@[simp] theorem Core.modTask_taskCount (c : Core) (f : Task → Task) : (c.modTask f).taskCount = c.taskCount := rfl
@[simp] theorem Core.modTask_spcred (c : Core) (f : Task → Task) : (c.modTask f).spcred = c.spcred := rfl
@[simp] theorem Core.modTask_ackcfg (c : Core) (f : Task → Task) : (c.modTask f).ackcfg = c.ackcfg := rfl
@[simp] theorem Core.modTask_bufacl (c : Core) (f : Task → Task) : (c.modTask f).bufacl = c.bufacl := rfl
@[simp] theorem Core.modTask_jobattr (c : Core) (f : Task → Task) : (c.modTask f).jobattr = c.jobattr := rfl
@[simp] theorem Core.modTask_jobBudget (c : Core) (f : Task → Task) : (c.modTask f).jobBudget = c.jobBudget := rfl
@[simp] theorem Core.modTask_mapgen (c : Core) (f : Task → Task) : (c.modTask f).mapgen = c.mapgen := rfl
@[simp] theorem Core.modTask_cycles (c : Core) (f : Task → Task) : (c.modTask f).cycles = c.cycles := rfl
@[simp] theorem Core.modTask_seqctr (c : Core) (f : Task → Task) : (c.modTask f).seqctr = c.seqctr := rfl
@[simp] theorem Core.modTask_seqBlocks (c : Core) (f : Task → Task) : (c.modTask f).seqBlocks = c.seqBlocks := rfl
@[simp] theorem Core.modTask_chans (c : Core) (f : Task → Task) : (c.modTask f).chans = c.chans := rfl
@[simp] theorem Core.modTask_written (c : Core) (f : Task → Task) : (c.modTask f).written = c.written := rfl
@[simp] theorem Core.modTask_posts (c : Core) (f : Task → Task) : (c.modTask f).posts = c.posts := rfl
@[simp] theorem Core.modTask_lastChan (c : Core) (f : Task → Task) : (c.modTask f).lastChan = c.lastChan := rfl
@[simp] theorem Core.modTask_rings (c : Core) (f : Task → Task) : (c.modTask f).rings = c.rings := rfl
@[simp] theorem Core.modTask_loc (c : Core) (f : Task → Task) : (c.modTask f).loc = c.loc := rfl
@[simp] theorem Core.modTask_reqs (c : Core) (f : Task → Task) : (c.modTask f).reqs = c.reqs := rfl
@[simp] theorem Core.modTask_cmds (c : Core) (f : Task → Task) : (c.modTask f).cmds = c.cmds := rfl
@[simp] theorem Core.modTask_holds (c : Core) (f : Task → Task) : (c.modTask f).holds = c.holds := rfl
@[simp] theorem Core.modTask_outbox (c : Core) (f : Task → Task) : (c.modTask f).outbox = c.outbox := rfl
@[simp] theorem Core.modTask_readFrom (c : Core) (f : Task → Task) : (c.modTask f).readFrom = c.readFrom := rfl
@[simp] theorem Core.modTask_mxq (c : Core) (f : Task → Task) : (c.modTask f).mxq = c.mxq := rfl
@[simp] theorem Core.modTask_mxRetired (c : Core) (f : Task → Task) : (c.modTask f).mxRetired = c.mxRetired := rfl
@[simp] theorem Core.modTask_weight (c : Core) (f : Task → Task) : (c.modTask f).weight = c.weight := rfl
@[simp] theorem Core.modTask_fault (c : Core) (f : Task → Task) : (c.modTask f).fault = c.fault := rfl
@[simp] theorem Core.modTask_dbg (c : Core) (f : Task → Task) : (c.modTask f).dbg = c.dbg := rfl
@[simp] theorem Core.modTask_late (c : Core) (f : Task → Task) : (c.modTask f).late = c.late := rfl
@[simp] theorem Core.modTask_stalled (c : Core) (f : Task → Task) : (c.modTask f).stalled = c.stalled := rfl
@[simp] theorem Core.modTask_collUses (c : Core) (f : Task → Task) : (c.modTask f).collUses = c.collUses := rfl
@[simp] theorem Core.modTask_tlb (c : Core) (f : Task → Task) : (c.modTask f).tlb = c.tlb := rfl
@[simp] theorem Core.modTask_gang (c : Core) (f : Task → Task) : (c.modTask f).gang = c.gang := rfl
@[simp] theorem Core.modTask_rank (c : Core) (f : Task → Task) : (c.modTask f).rank = c.rank := rfl
@[simp] theorem Core.modTask_life (c : Core) (f : Task → Task) : (c.modTask f).life = c.life := rfl
@[simp] theorem Core.modTask_throttled (c : Core) (f : Task → Task) : (c.modTask f).throttled = c.throttled := rfl

@[simp] theorem Core.storeLocal_regs (c : Core) (b off n v : Nat) : (c.storeLocal b off n v).regs = c.regs := rfl
@[simp] theorem Core.storeLocal_before (c : Core) (b off n v : Nat) : (c.storeLocal b off n v).before = c.before := rfl
@[simp] theorem Core.storeLocal_pc (c : Core) (b off n v : Nat) : (c.storeLocal b off n v).pc = c.pc := rfl
@[simp] theorem Core.storeLocal_target (c : Core) (b off n v : Nat) : (c.storeLocal b off n v).target = c.target := rfl
@[simp] theorem Core.storeLocal_endSeen (c : Core) (b off n v : Nat) : (c.storeLocal b off n v).endSeen = c.endSeen := rfl
@[simp] theorem Core.storeLocal_brkSeen (c : Core) (b off n v : Nat) : (c.storeLocal b off n v).brkSeen = c.brkSeen := rfl
@[simp] theorem Core.storeLocal_fstat (c : Core) (b off n v : Nat) : (c.storeLocal b off n v).fstat = c.fstat := rfl
@[simp] theorem Core.storeLocal_table (c : Core) (b off n v : Nat) : (c.storeLocal b off n v).table = c.table := rfl
@[simp] theorem Core.storeLocal_task (c : Core) (b off n v : Nat) : (c.storeLocal b off n v).task = c.task := rfl
@[simp] theorem Core.storeLocal_serials (c : Core) (b off n v : Nat) : (c.storeLocal b off n v).serials = c.serials := rfl
@[simp] theorem Core.storeLocal_positions (c : Core) (b off n v : Nat) : (c.storeLocal b off n v).positions = c.positions := rfl
@[simp] theorem Core.storeLocal_bundlePos (c : Core) (b off n v : Nat) : (c.storeLocal b off n v).bundlePos = c.bundlePos := rfl
@[simp] theorem Core.storeLocal_taskCount (c : Core) (b off n v : Nat) : (c.storeLocal b off n v).taskCount = c.taskCount := rfl
@[simp] theorem Core.storeLocal_spcred (c : Core) (b off n v : Nat) : (c.storeLocal b off n v).spcred = c.spcred := rfl
@[simp] theorem Core.storeLocal_ackcfg (c : Core) (b off n v : Nat) : (c.storeLocal b off n v).ackcfg = c.ackcfg := rfl
@[simp] theorem Core.storeLocal_bufacl (c : Core) (b off n v : Nat) : (c.storeLocal b off n v).bufacl = c.bufacl := rfl
@[simp] theorem Core.storeLocal_jobattr (c : Core) (b off n v : Nat) : (c.storeLocal b off n v).jobattr = c.jobattr := rfl
@[simp] theorem Core.storeLocal_jobBudget (c : Core) (b off n v : Nat) : (c.storeLocal b off n v).jobBudget = c.jobBudget := rfl
@[simp] theorem Core.storeLocal_mapgen (c : Core) (b off n v : Nat) : (c.storeLocal b off n v).mapgen = c.mapgen := rfl
@[simp] theorem Core.storeLocal_cycles (c : Core) (b off n v : Nat) : (c.storeLocal b off n v).cycles = c.cycles := rfl
@[simp] theorem Core.storeLocal_seqctr (c : Core) (b off n v : Nat) : (c.storeLocal b off n v).seqctr = c.seqctr := rfl
@[simp] theorem Core.storeLocal_seqBlocks (c : Core) (b off n v : Nat) : (c.storeLocal b off n v).seqBlocks = c.seqBlocks := rfl
@[simp] theorem Core.storeLocal_chans (c : Core) (b off n v : Nat) : (c.storeLocal b off n v).chans = c.chans := rfl
@[simp] theorem Core.storeLocal_written (c : Core) (b off n v : Nat) : (c.storeLocal b off n v).written = c.written := rfl
@[simp] theorem Core.storeLocal_posts (c : Core) (b off n v : Nat) : (c.storeLocal b off n v).posts = c.posts := rfl
@[simp] theorem Core.storeLocal_lastChan (c : Core) (b off n v : Nat) : (c.storeLocal b off n v).lastChan = c.lastChan := rfl
@[simp] theorem Core.storeLocal_rings (c : Core) (b off n v : Nat) : (c.storeLocal b off n v).rings = c.rings := rfl
@[simp] theorem Core.storeLocal_reqs (c : Core) (b off n v : Nat) : (c.storeLocal b off n v).reqs = c.reqs := rfl
@[simp] theorem Core.storeLocal_cmds (c : Core) (b off n v : Nat) : (c.storeLocal b off n v).cmds = c.cmds := rfl
@[simp] theorem Core.storeLocal_holds (c : Core) (b off n v : Nat) : (c.storeLocal b off n v).holds = c.holds := rfl
@[simp] theorem Core.storeLocal_outbox (c : Core) (b off n v : Nat) : (c.storeLocal b off n v).outbox = c.outbox := rfl
@[simp] theorem Core.storeLocal_readFrom (c : Core) (b off n v : Nat) : (c.storeLocal b off n v).readFrom = c.readFrom := rfl
@[simp] theorem Core.storeLocal_mxq (c : Core) (b off n v : Nat) : (c.storeLocal b off n v).mxq = c.mxq := rfl
@[simp] theorem Core.storeLocal_mxRetired (c : Core) (b off n v : Nat) : (c.storeLocal b off n v).mxRetired = c.mxRetired := rfl
@[simp] theorem Core.storeLocal_weight (c : Core) (b off n v : Nat) : (c.storeLocal b off n v).weight = c.weight := rfl
@[simp] theorem Core.storeLocal_fault (c : Core) (b off n v : Nat) : (c.storeLocal b off n v).fault = c.fault := rfl
@[simp] theorem Core.storeLocal_dbg (c : Core) (b off n v : Nat) : (c.storeLocal b off n v).dbg = c.dbg := rfl
@[simp] theorem Core.storeLocal_late (c : Core) (b off n v : Nat) : (c.storeLocal b off n v).late = c.late := rfl
@[simp] theorem Core.storeLocal_stalled (c : Core) (b off n v : Nat) : (c.storeLocal b off n v).stalled = c.stalled := rfl
@[simp] theorem Core.storeLocal_collUses (c : Core) (b off n v : Nat) : (c.storeLocal b off n v).collUses = c.collUses := rfl
@[simp] theorem Core.storeLocal_tlb (c : Core) (b off n v : Nat) : (c.storeLocal b off n v).tlb = c.tlb := rfl
@[simp] theorem Core.storeLocal_gang (c : Core) (b off n v : Nat) : (c.storeLocal b off n v).gang = c.gang := rfl
@[simp] theorem Core.storeLocal_rank (c : Core) (b off n v : Nat) : (c.storeLocal b off n v).rank = c.rank := rfl
@[simp] theorem Core.storeLocal_life (c : Core) (b off n v : Nat) : (c.storeLocal b off n v).life = c.life := rfl
@[simp] theorem Core.storeLocal_throttled (c : Core) (b off n v : Nat) : (c.storeLocal b off n v).throttled = c.throttled := rfl

@[simp] theorem Core.withLocal_regs (c : Core) (la n v : Nat) : (c.withLocal la n v).regs = c.regs := rfl
@[simp] theorem Core.withLocal_before (c : Core) (la n v : Nat) : (c.withLocal la n v).before = c.before := rfl
@[simp] theorem Core.withLocal_pc (c : Core) (la n v : Nat) : (c.withLocal la n v).pc = c.pc := rfl
@[simp] theorem Core.withLocal_target (c : Core) (la n v : Nat) : (c.withLocal la n v).target = c.target := rfl
@[simp] theorem Core.withLocal_endSeen (c : Core) (la n v : Nat) : (c.withLocal la n v).endSeen = c.endSeen := rfl
@[simp] theorem Core.withLocal_brkSeen (c : Core) (la n v : Nat) : (c.withLocal la n v).brkSeen = c.brkSeen := rfl
@[simp] theorem Core.withLocal_fstat (c : Core) (la n v : Nat) : (c.withLocal la n v).fstat = c.fstat := rfl
@[simp] theorem Core.withLocal_table (c : Core) (la n v : Nat) : (c.withLocal la n v).table = c.table := rfl
@[simp] theorem Core.withLocal_task (c : Core) (la n v : Nat) : (c.withLocal la n v).task = c.task := rfl
@[simp] theorem Core.withLocal_serials (c : Core) (la n v : Nat) : (c.withLocal la n v).serials = c.serials := rfl
@[simp] theorem Core.withLocal_positions (c : Core) (la n v : Nat) : (c.withLocal la n v).positions = c.positions := rfl
@[simp] theorem Core.withLocal_bundlePos (c : Core) (la n v : Nat) : (c.withLocal la n v).bundlePos = c.bundlePos := rfl
@[simp] theorem Core.withLocal_taskCount (c : Core) (la n v : Nat) : (c.withLocal la n v).taskCount = c.taskCount := rfl
@[simp] theorem Core.withLocal_spcred (c : Core) (la n v : Nat) : (c.withLocal la n v).spcred = c.spcred := rfl
@[simp] theorem Core.withLocal_ackcfg (c : Core) (la n v : Nat) : (c.withLocal la n v).ackcfg = c.ackcfg := rfl
@[simp] theorem Core.withLocal_bufacl (c : Core) (la n v : Nat) : (c.withLocal la n v).bufacl = c.bufacl := rfl
@[simp] theorem Core.withLocal_jobattr (c : Core) (la n v : Nat) : (c.withLocal la n v).jobattr = c.jobattr := rfl
@[simp] theorem Core.withLocal_jobBudget (c : Core) (la n v : Nat) : (c.withLocal la n v).jobBudget = c.jobBudget := rfl
@[simp] theorem Core.withLocal_mapgen (c : Core) (la n v : Nat) : (c.withLocal la n v).mapgen = c.mapgen := rfl
@[simp] theorem Core.withLocal_cycles (c : Core) (la n v : Nat) : (c.withLocal la n v).cycles = c.cycles := rfl
@[simp] theorem Core.withLocal_seqctr (c : Core) (la n v : Nat) : (c.withLocal la n v).seqctr = c.seqctr := rfl
@[simp] theorem Core.withLocal_seqBlocks (c : Core) (la n v : Nat) : (c.withLocal la n v).seqBlocks = c.seqBlocks := rfl
@[simp] theorem Core.withLocal_chans (c : Core) (la n v : Nat) : (c.withLocal la n v).chans = c.chans := rfl
@[simp] theorem Core.withLocal_written (c : Core) (la n v : Nat) : (c.withLocal la n v).written = c.written := rfl
@[simp] theorem Core.withLocal_posts (c : Core) (la n v : Nat) : (c.withLocal la n v).posts = c.posts := rfl
@[simp] theorem Core.withLocal_lastChan (c : Core) (la n v : Nat) : (c.withLocal la n v).lastChan = c.lastChan := rfl
@[simp] theorem Core.withLocal_rings (c : Core) (la n v : Nat) : (c.withLocal la n v).rings = c.rings := rfl
@[simp] theorem Core.withLocal_reqs (c : Core) (la n v : Nat) : (c.withLocal la n v).reqs = c.reqs := rfl
@[simp] theorem Core.withLocal_cmds (c : Core) (la n v : Nat) : (c.withLocal la n v).cmds = c.cmds := rfl
@[simp] theorem Core.withLocal_holds (c : Core) (la n v : Nat) : (c.withLocal la n v).holds = c.holds := rfl
@[simp] theorem Core.withLocal_outbox (c : Core) (la n v : Nat) : (c.withLocal la n v).outbox = c.outbox := rfl
@[simp] theorem Core.withLocal_readFrom (c : Core) (la n v : Nat) : (c.withLocal la n v).readFrom = c.readFrom := rfl
@[simp] theorem Core.withLocal_mxq (c : Core) (la n v : Nat) : (c.withLocal la n v).mxq = c.mxq := rfl
@[simp] theorem Core.withLocal_mxRetired (c : Core) (la n v : Nat) : (c.withLocal la n v).mxRetired = c.mxRetired := rfl
@[simp] theorem Core.withLocal_weight (c : Core) (la n v : Nat) : (c.withLocal la n v).weight = c.weight := rfl
@[simp] theorem Core.withLocal_fault (c : Core) (la n v : Nat) : (c.withLocal la n v).fault = c.fault := rfl
@[simp] theorem Core.withLocal_dbg (c : Core) (la n v : Nat) : (c.withLocal la n v).dbg = c.dbg := rfl
@[simp] theorem Core.withLocal_late (c : Core) (la n v : Nat) : (c.withLocal la n v).late = c.late := rfl
@[simp] theorem Core.withLocal_stalled (c : Core) (la n v : Nat) : (c.withLocal la n v).stalled = c.stalled := rfl
@[simp] theorem Core.withLocal_collUses (c : Core) (la n v : Nat) : (c.withLocal la n v).collUses = c.collUses := rfl
@[simp] theorem Core.withLocal_tlb (c : Core) (la n v : Nat) : (c.withLocal la n v).tlb = c.tlb := rfl
@[simp] theorem Core.withLocal_gang (c : Core) (la n v : Nat) : (c.withLocal la n v).gang = c.gang := rfl
@[simp] theorem Core.withLocal_rank (c : Core) (la n v : Nat) : (c.withLocal la n v).rank = c.rank := rfl
@[simp] theorem Core.withLocal_life (c : Core) (la n v : Nat) : (c.withLocal la n v).life = c.life := rfl
@[simp] theorem Core.withLocal_throttled (c : Core) (la n v : Nat) : (c.withLocal la n v).throttled = c.throttled := rfl

@[simp] theorem Core.addHold_regs (c : Core) (k : Nat) (w : Bool) : (c.addHold k w).regs = c.regs := rfl
@[simp] theorem Core.addHold_before (c : Core) (k : Nat) (w : Bool) : (c.addHold k w).before = c.before := rfl
@[simp] theorem Core.addHold_pc (c : Core) (k : Nat) (w : Bool) : (c.addHold k w).pc = c.pc := rfl
@[simp] theorem Core.addHold_target (c : Core) (k : Nat) (w : Bool) : (c.addHold k w).target = c.target := rfl
@[simp] theorem Core.addHold_endSeen (c : Core) (k : Nat) (w : Bool) : (c.addHold k w).endSeen = c.endSeen := rfl
@[simp] theorem Core.addHold_brkSeen (c : Core) (k : Nat) (w : Bool) : (c.addHold k w).brkSeen = c.brkSeen := rfl
@[simp] theorem Core.addHold_fstat (c : Core) (k : Nat) (w : Bool) : (c.addHold k w).fstat = c.fstat := rfl
@[simp] theorem Core.addHold_table (c : Core) (k : Nat) (w : Bool) : (c.addHold k w).table = c.table := rfl
@[simp] theorem Core.addHold_task (c : Core) (k : Nat) (w : Bool) : (c.addHold k w).task = c.task := rfl
@[simp] theorem Core.addHold_serials (c : Core) (k : Nat) (w : Bool) : (c.addHold k w).serials = c.serials := rfl
@[simp] theorem Core.addHold_positions (c : Core) (k : Nat) (w : Bool) : (c.addHold k w).positions = c.positions := rfl
@[simp] theorem Core.addHold_bundlePos (c : Core) (k : Nat) (w : Bool) : (c.addHold k w).bundlePos = c.bundlePos := rfl
@[simp] theorem Core.addHold_taskCount (c : Core) (k : Nat) (w : Bool) : (c.addHold k w).taskCount = c.taskCount := rfl
@[simp] theorem Core.addHold_spcred (c : Core) (k : Nat) (w : Bool) : (c.addHold k w).spcred = c.spcred := rfl
@[simp] theorem Core.addHold_ackcfg (c : Core) (k : Nat) (w : Bool) : (c.addHold k w).ackcfg = c.ackcfg := rfl
@[simp] theorem Core.addHold_bufacl (c : Core) (k : Nat) (w : Bool) : (c.addHold k w).bufacl = c.bufacl := rfl
@[simp] theorem Core.addHold_jobattr (c : Core) (k : Nat) (w : Bool) : (c.addHold k w).jobattr = c.jobattr := rfl
@[simp] theorem Core.addHold_jobBudget (c : Core) (k : Nat) (w : Bool) : (c.addHold k w).jobBudget = c.jobBudget := rfl
@[simp] theorem Core.addHold_mapgen (c : Core) (k : Nat) (w : Bool) : (c.addHold k w).mapgen = c.mapgen := rfl
@[simp] theorem Core.addHold_cycles (c : Core) (k : Nat) (w : Bool) : (c.addHold k w).cycles = c.cycles := rfl
@[simp] theorem Core.addHold_seqctr (c : Core) (k : Nat) (w : Bool) : (c.addHold k w).seqctr = c.seqctr := rfl
@[simp] theorem Core.addHold_seqBlocks (c : Core) (k : Nat) (w : Bool) : (c.addHold k w).seqBlocks = c.seqBlocks := rfl
@[simp] theorem Core.addHold_chans (c : Core) (k : Nat) (w : Bool) : (c.addHold k w).chans = c.chans := rfl
@[simp] theorem Core.addHold_written (c : Core) (k : Nat) (w : Bool) : (c.addHold k w).written = c.written := rfl
@[simp] theorem Core.addHold_posts (c : Core) (k : Nat) (w : Bool) : (c.addHold k w).posts = c.posts := rfl
@[simp] theorem Core.addHold_lastChan (c : Core) (k : Nat) (w : Bool) : (c.addHold k w).lastChan = c.lastChan := rfl
@[simp] theorem Core.addHold_rings (c : Core) (k : Nat) (w : Bool) : (c.addHold k w).rings = c.rings := rfl
@[simp] theorem Core.addHold_loc (c : Core) (k : Nat) (w : Bool) : (c.addHold k w).loc = c.loc := rfl
@[simp] theorem Core.addHold_reqs (c : Core) (k : Nat) (w : Bool) : (c.addHold k w).reqs = c.reqs := rfl
@[simp] theorem Core.addHold_cmds (c : Core) (k : Nat) (w : Bool) : (c.addHold k w).cmds = c.cmds := rfl
@[simp] theorem Core.addHold_outbox (c : Core) (k : Nat) (w : Bool) : (c.addHold k w).outbox = c.outbox := rfl
@[simp] theorem Core.addHold_readFrom (c : Core) (k : Nat) (w : Bool) : (c.addHold k w).readFrom = c.readFrom := rfl
@[simp] theorem Core.addHold_mxq (c : Core) (k : Nat) (w : Bool) : (c.addHold k w).mxq = c.mxq := rfl
@[simp] theorem Core.addHold_mxRetired (c : Core) (k : Nat) (w : Bool) : (c.addHold k w).mxRetired = c.mxRetired := rfl
@[simp] theorem Core.addHold_weight (c : Core) (k : Nat) (w : Bool) : (c.addHold k w).weight = c.weight := rfl
@[simp] theorem Core.addHold_fault (c : Core) (k : Nat) (w : Bool) : (c.addHold k w).fault = c.fault := rfl
@[simp] theorem Core.addHold_dbg (c : Core) (k : Nat) (w : Bool) : (c.addHold k w).dbg = c.dbg := rfl
@[simp] theorem Core.addHold_late (c : Core) (k : Nat) (w : Bool) : (c.addHold k w).late = c.late := rfl
@[simp] theorem Core.addHold_stalled (c : Core) (k : Nat) (w : Bool) : (c.addHold k w).stalled = c.stalled := rfl
@[simp] theorem Core.addHold_collUses (c : Core) (k : Nat) (w : Bool) : (c.addHold k w).collUses = c.collUses := rfl
@[simp] theorem Core.addHold_tlb (c : Core) (k : Nat) (w : Bool) : (c.addHold k w).tlb = c.tlb := rfl
@[simp] theorem Core.addHold_gang (c : Core) (k : Nat) (w : Bool) : (c.addHold k w).gang = c.gang := rfl
@[simp] theorem Core.addHold_rank (c : Core) (k : Nat) (w : Bool) : (c.addHold k w).rank = c.rank := rfl
@[simp] theorem Core.addHold_life (c : Core) (k : Nat) (w : Bool) : (c.addHold k w).life = c.life := rfl
@[simp] theorem Core.addHold_throttled (c : Core) (k : Nat) (w : Bool) : (c.addHold k w).throttled = c.throttled := rfl

@[simp] theorem Core.halt_regs (c : Core) (k : Nat) (p : Word) : (c.halt k p).regs = c.regs := rfl
@[simp] theorem Core.halt_before (c : Core) (k : Nat) (p : Word) : (c.halt k p).before = c.before := rfl
@[simp] theorem Core.halt_pc (c : Core) (k : Nat) (p : Word) : (c.halt k p).pc = c.pc := rfl
@[simp] theorem Core.halt_target (c : Core) (k : Nat) (p : Word) : (c.halt k p).target = c.target := rfl
@[simp] theorem Core.halt_endSeen (c : Core) (k : Nat) (p : Word) : (c.halt k p).endSeen = c.endSeen := rfl
@[simp] theorem Core.halt_brkSeen (c : Core) (k : Nat) (p : Word) : (c.halt k p).brkSeen = c.brkSeen := rfl
@[simp] theorem Core.halt_fstat (c : Core) (k : Nat) (p : Word) : (c.halt k p).fstat = c.fstat := rfl
@[simp] theorem Core.halt_table (c : Core) (k : Nat) (p : Word) : (c.halt k p).table = c.table := rfl
@[simp] theorem Core.halt_task (c : Core) (k : Nat) (p : Word) : (c.halt k p).task = c.task := rfl
@[simp] theorem Core.halt_serials (c : Core) (k : Nat) (p : Word) : (c.halt k p).serials = c.serials := rfl
@[simp] theorem Core.halt_positions (c : Core) (k : Nat) (p : Word) : (c.halt k p).positions = c.positions := rfl
@[simp] theorem Core.halt_bundlePos (c : Core) (k : Nat) (p : Word) : (c.halt k p).bundlePos = c.bundlePos := rfl
@[simp] theorem Core.halt_taskCount (c : Core) (k : Nat) (p : Word) : (c.halt k p).taskCount = c.taskCount := rfl
@[simp] theorem Core.halt_spcred (c : Core) (k : Nat) (p : Word) : (c.halt k p).spcred = c.spcred := rfl
@[simp] theorem Core.halt_ackcfg (c : Core) (k : Nat) (p : Word) : (c.halt k p).ackcfg = c.ackcfg := rfl
@[simp] theorem Core.halt_bufacl (c : Core) (k : Nat) (p : Word) : (c.halt k p).bufacl = c.bufacl := rfl
@[simp] theorem Core.halt_jobattr (c : Core) (k : Nat) (p : Word) : (c.halt k p).jobattr = c.jobattr := rfl
@[simp] theorem Core.halt_jobBudget (c : Core) (k : Nat) (p : Word) : (c.halt k p).jobBudget = c.jobBudget := rfl
@[simp] theorem Core.halt_mapgen (c : Core) (k : Nat) (p : Word) : (c.halt k p).mapgen = c.mapgen := rfl
@[simp] theorem Core.halt_cycles (c : Core) (k : Nat) (p : Word) : (c.halt k p).cycles = c.cycles := rfl
@[simp] theorem Core.halt_seqctr (c : Core) (k : Nat) (p : Word) : (c.halt k p).seqctr = c.seqctr := rfl
@[simp] theorem Core.halt_seqBlocks (c : Core) (k : Nat) (p : Word) : (c.halt k p).seqBlocks = c.seqBlocks := rfl
@[simp] theorem Core.halt_chans (c : Core) (k : Nat) (p : Word) : (c.halt k p).chans = c.chans := rfl
@[simp] theorem Core.halt_written (c : Core) (k : Nat) (p : Word) : (c.halt k p).written = c.written := rfl
@[simp] theorem Core.halt_posts (c : Core) (k : Nat) (p : Word) : (c.halt k p).posts = c.posts := rfl
@[simp] theorem Core.halt_lastChan (c : Core) (k : Nat) (p : Word) : (c.halt k p).lastChan = c.lastChan := rfl
@[simp] theorem Core.halt_rings (c : Core) (k : Nat) (p : Word) : (c.halt k p).rings = c.rings := rfl
@[simp] theorem Core.halt_loc (c : Core) (k : Nat) (p : Word) : (c.halt k p).loc = c.loc := rfl
@[simp] theorem Core.halt_reqs (c : Core) (k : Nat) (p : Word) : (c.halt k p).reqs = c.reqs := rfl
@[simp] theorem Core.halt_cmds (c : Core) (k : Nat) (p : Word) : (c.halt k p).cmds = c.cmds := rfl
@[simp] theorem Core.halt_holds (c : Core) (k : Nat) (p : Word) : (c.halt k p).holds = c.holds := rfl
@[simp] theorem Core.halt_outbox (c : Core) (k : Nat) (p : Word) : (c.halt k p).outbox = c.outbox := rfl
@[simp] theorem Core.halt_readFrom (c : Core) (k : Nat) (p : Word) : (c.halt k p).readFrom = c.readFrom := rfl
@[simp] theorem Core.halt_mxq (c : Core) (k : Nat) (p : Word) : (c.halt k p).mxq = c.mxq := rfl
@[simp] theorem Core.halt_mxRetired (c : Core) (k : Nat) (p : Word) : (c.halt k p).mxRetired = c.mxRetired := rfl
@[simp] theorem Core.halt_weight (c : Core) (k : Nat) (p : Word) : (c.halt k p).weight = c.weight := rfl
@[simp] theorem Core.halt_fault (c : Core) (k : Nat) (p : Word) : (c.halt k p).fault = c.fault := rfl
@[simp] theorem Core.halt_late (c : Core) (k : Nat) (p : Word) : (c.halt k p).late = c.late := rfl
@[simp] theorem Core.halt_stalled (c : Core) (k : Nat) (p : Word) : (c.halt k p).stalled = c.stalled := rfl
@[simp] theorem Core.halt_collUses (c : Core) (k : Nat) (p : Word) : (c.halt k p).collUses = c.collUses := rfl
@[simp] theorem Core.halt_tlb (c : Core) (k : Nat) (p : Word) : (c.halt k p).tlb = c.tlb := rfl
@[simp] theorem Core.halt_gang (c : Core) (k : Nat) (p : Word) : (c.halt k p).gang = c.gang := rfl
@[simp] theorem Core.halt_rank (c : Core) (k : Nat) (p : Word) : (c.halt k p).rank = c.rank := rfl
@[simp] theorem Core.halt_life (c : Core) (k : Nat) (p : Word) : (c.halt k p).life = c.life := rfl
@[simp] theorem Core.halt_throttled (c : Core) (k : Nat) (p : Word) : (c.halt k p).throttled = c.throttled := rfl

@[simp] theorem Core.snapshot_regs (c : Core) : (c.snapshot).regs = c.regs := rfl
@[simp] theorem Core.snapshot_pc (c : Core) : (c.snapshot).pc = c.pc := rfl
@[simp] theorem Core.snapshot_target (c : Core) : (c.snapshot).target = c.target := rfl
@[simp] theorem Core.snapshot_endSeen (c : Core) : (c.snapshot).endSeen = c.endSeen := rfl
@[simp] theorem Core.snapshot_brkSeen (c : Core) : (c.snapshot).brkSeen = c.brkSeen := rfl
@[simp] theorem Core.snapshot_fstat (c : Core) : (c.snapshot).fstat = c.fstat := rfl
@[simp] theorem Core.snapshot_table (c : Core) : (c.snapshot).table = c.table := rfl
@[simp] theorem Core.snapshot_task (c : Core) : (c.snapshot).task = c.task := rfl
@[simp] theorem Core.snapshot_serials (c : Core) : (c.snapshot).serials = c.serials := rfl
@[simp] theorem Core.snapshot_positions (c : Core) : (c.snapshot).positions = c.positions := rfl
@[simp] theorem Core.snapshot_bundlePos (c : Core) : (c.snapshot).bundlePos = c.bundlePos := rfl
@[simp] theorem Core.snapshot_taskCount (c : Core) : (c.snapshot).taskCount = c.taskCount := rfl
@[simp] theorem Core.snapshot_spcred (c : Core) : (c.snapshot).spcred = c.spcred := rfl
@[simp] theorem Core.snapshot_ackcfg (c : Core) : (c.snapshot).ackcfg = c.ackcfg := rfl
@[simp] theorem Core.snapshot_bufacl (c : Core) : (c.snapshot).bufacl = c.bufacl := rfl
@[simp] theorem Core.snapshot_jobattr (c : Core) : (c.snapshot).jobattr = c.jobattr := rfl
@[simp] theorem Core.snapshot_jobBudget (c : Core) : (c.snapshot).jobBudget = c.jobBudget := rfl
@[simp] theorem Core.snapshot_mapgen (c : Core) : (c.snapshot).mapgen = c.mapgen := rfl
@[simp] theorem Core.snapshot_cycles (c : Core) : (c.snapshot).cycles = c.cycles := rfl
@[simp] theorem Core.snapshot_seqctr (c : Core) : (c.snapshot).seqctr = c.seqctr := rfl
@[simp] theorem Core.snapshot_seqBlocks (c : Core) : (c.snapshot).seqBlocks = c.seqBlocks := rfl
@[simp] theorem Core.snapshot_chans (c : Core) : (c.snapshot).chans = c.chans := rfl
@[simp] theorem Core.snapshot_written (c : Core) : (c.snapshot).written = c.written := rfl
@[simp] theorem Core.snapshot_posts (c : Core) : (c.snapshot).posts = c.posts := rfl
@[simp] theorem Core.snapshot_lastChan (c : Core) : (c.snapshot).lastChan = c.lastChan := rfl
@[simp] theorem Core.snapshot_rings (c : Core) : (c.snapshot).rings = c.rings := rfl
@[simp] theorem Core.snapshot_loc (c : Core) : (c.snapshot).loc = c.loc := rfl
@[simp] theorem Core.snapshot_reqs (c : Core) : (c.snapshot).reqs = c.reqs := rfl
@[simp] theorem Core.snapshot_cmds (c : Core) : (c.snapshot).cmds = c.cmds := rfl
@[simp] theorem Core.snapshot_holds (c : Core) : (c.snapshot).holds = c.holds := rfl
@[simp] theorem Core.snapshot_outbox (c : Core) : (c.snapshot).outbox = c.outbox := rfl
@[simp] theorem Core.snapshot_readFrom (c : Core) : (c.snapshot).readFrom = c.readFrom := rfl
@[simp] theorem Core.snapshot_mxq (c : Core) : (c.snapshot).mxq = c.mxq := rfl
@[simp] theorem Core.snapshot_mxRetired (c : Core) : (c.snapshot).mxRetired = c.mxRetired := rfl
@[simp] theorem Core.snapshot_weight (c : Core) : (c.snapshot).weight = c.weight := rfl
@[simp] theorem Core.snapshot_fault (c : Core) : (c.snapshot).fault = c.fault := rfl
@[simp] theorem Core.snapshot_dbg (c : Core) : (c.snapshot).dbg = c.dbg := rfl
@[simp] theorem Core.snapshot_late (c : Core) : (c.snapshot).late = c.late := rfl
@[simp] theorem Core.snapshot_stalled (c : Core) : (c.snapshot).stalled = c.stalled := rfl
@[simp] theorem Core.snapshot_collUses (c : Core) : (c.snapshot).collUses = c.collUses := rfl
@[simp] theorem Core.snapshot_tlb (c : Core) : (c.snapshot).tlb = c.tlb := rfl
@[simp] theorem Core.snapshot_gang (c : Core) : (c.snapshot).gang = c.gang := rfl
@[simp] theorem Core.snapshot_rank (c : Core) : (c.snapshot).rank = c.rank := rfl
@[simp] theorem Core.snapshot_life (c : Core) : (c.snapshot).life = c.life := rfl
@[simp] theorem Core.snapshot_throttled (c : Core) : (c.snapshot).throttled = c.throttled := rfl

@[simp] theorem Core.forget_regs (c : Core) : (c.forget).regs = c.regs := rfl
@[simp] theorem Core.forget_pc (c : Core) : (c.forget).pc = c.pc := rfl
@[simp] theorem Core.forget_target (c : Core) : (c.forget).target = c.target := rfl
@[simp] theorem Core.forget_endSeen (c : Core) : (c.forget).endSeen = c.endSeen := rfl
@[simp] theorem Core.forget_brkSeen (c : Core) : (c.forget).brkSeen = c.brkSeen := rfl
@[simp] theorem Core.forget_fstat (c : Core) : (c.forget).fstat = c.fstat := rfl
@[simp] theorem Core.forget_table (c : Core) : (c.forget).table = c.table := rfl
@[simp] theorem Core.forget_task (c : Core) : (c.forget).task = c.task := rfl
@[simp] theorem Core.forget_serials (c : Core) : (c.forget).serials = c.serials := rfl
@[simp] theorem Core.forget_positions (c : Core) : (c.forget).positions = c.positions := rfl
@[simp] theorem Core.forget_bundlePos (c : Core) : (c.forget).bundlePos = c.bundlePos := rfl
@[simp] theorem Core.forget_taskCount (c : Core) : (c.forget).taskCount = c.taskCount := rfl
@[simp] theorem Core.forget_spcred (c : Core) : (c.forget).spcred = c.spcred := rfl
@[simp] theorem Core.forget_ackcfg (c : Core) : (c.forget).ackcfg = c.ackcfg := rfl
@[simp] theorem Core.forget_bufacl (c : Core) : (c.forget).bufacl = c.bufacl := rfl
@[simp] theorem Core.forget_jobattr (c : Core) : (c.forget).jobattr = c.jobattr := rfl
@[simp] theorem Core.forget_jobBudget (c : Core) : (c.forget).jobBudget = c.jobBudget := rfl
@[simp] theorem Core.forget_mapgen (c : Core) : (c.forget).mapgen = c.mapgen := rfl
@[simp] theorem Core.forget_cycles (c : Core) : (c.forget).cycles = c.cycles := rfl
@[simp] theorem Core.forget_seqctr (c : Core) : (c.forget).seqctr = c.seqctr := rfl
@[simp] theorem Core.forget_seqBlocks (c : Core) : (c.forget).seqBlocks = c.seqBlocks := rfl
@[simp] theorem Core.forget_chans (c : Core) : (c.forget).chans = c.chans := rfl
@[simp] theorem Core.forget_written (c : Core) : (c.forget).written = c.written := rfl
@[simp] theorem Core.forget_posts (c : Core) : (c.forget).posts = c.posts := rfl
@[simp] theorem Core.forget_lastChan (c : Core) : (c.forget).lastChan = c.lastChan := rfl
@[simp] theorem Core.forget_rings (c : Core) : (c.forget).rings = c.rings := rfl
@[simp] theorem Core.forget_loc (c : Core) : (c.forget).loc = c.loc := rfl
@[simp] theorem Core.forget_reqs (c : Core) : (c.forget).reqs = c.reqs := rfl
@[simp] theorem Core.forget_cmds (c : Core) : (c.forget).cmds = c.cmds := rfl
@[simp] theorem Core.forget_holds (c : Core) : (c.forget).holds = c.holds := rfl
@[simp] theorem Core.forget_outbox (c : Core) : (c.forget).outbox = c.outbox := rfl
@[simp] theorem Core.forget_readFrom (c : Core) : (c.forget).readFrom = c.readFrom := rfl
@[simp] theorem Core.forget_mxq (c : Core) : (c.forget).mxq = c.mxq := rfl
@[simp] theorem Core.forget_mxRetired (c : Core) : (c.forget).mxRetired = c.mxRetired := rfl
@[simp] theorem Core.forget_weight (c : Core) : (c.forget).weight = c.weight := rfl
@[simp] theorem Core.forget_fault (c : Core) : (c.forget).fault = c.fault := rfl
@[simp] theorem Core.forget_dbg (c : Core) : (c.forget).dbg = c.dbg := rfl
@[simp] theorem Core.forget_late (c : Core) : (c.forget).late = c.late := rfl
@[simp] theorem Core.forget_stalled (c : Core) : (c.forget).stalled = c.stalled := rfl
@[simp] theorem Core.forget_collUses (c : Core) : (c.forget).collUses = c.collUses := rfl
@[simp] theorem Core.forget_tlb (c : Core) : (c.forget).tlb = c.tlb := rfl
@[simp] theorem Core.forget_gang (c : Core) : (c.forget).gang = c.gang := rfl
@[simp] theorem Core.forget_rank (c : Core) : (c.forget).rank = c.rank := rfl
@[simp] theorem Core.forget_life (c : Core) : (c.forget).life = c.life := rfl
@[simp] theorem Core.forget_throttled (c : Core) : (c.forget).throttled = c.throttled := rfl

/-! ### Sparse maps -/

/-- Reading the key just put gives what was put. -/
@[simp] theorem Assoc.find_put_self {α : Type} (l : Assoc α) (n : Nat) (a : α) : (l.put n a).find n = some a := by
  induction l with
  | nil => simp [Assoc.put, Assoc.find]
  | cons p rest ih =>
    obtain ⟨k, b⟩ := p
    simp only [Assoc.put]
    split
    · simp [Assoc.find]
    · split
      · simp [Assoc.find]
      · rename_i h1 h2
        have hk : k ≠ n := fun h => h2 (by simp [h])
        simp [Assoc.find, hk, ih]

/-- Putting one key leaves every other. -/
theorem Assoc.find_put_ne {α : Type} (l : Assoc α) (n m : Nat) (a : α) (h : m ≠ n) :
    (l.put n a).find m = l.find m := by
  induction l with
  | nil => simp [Assoc.put, Assoc.find, Ne.symm h]
  | cons p rest ih =>
    obtain ⟨k, b⟩ := p
    simp only [Assoc.put]
    split
    · simp [Assoc.find, Ne.symm h]
    · split
      · rename_i h1 h2
        have hk : n = k := by simpa using h2
        subst hk
        simp [Assoc.find, Ne.symm h]
      · simp only [Assoc.find, ih]

/-- The core just replaced. -/
@[simp] theorem State.core_setCore_self (s : State) (n : Nat) (c : Core) : (s.setCore n c).core n = c := by
  simp [State.core, State.setCore]
/-- Replacing one core leaves every other. -/
theorem State.core_setCore_ne (s : State) (n m : Nat) (c : Core) (h : m ≠ n) : (s.setCore n c).core m = s.core m := by
  simp [State.core, State.setCore, Assoc.find_put_ne _ _ _ _ h]
/-- The core just changed. -/
@[simp] theorem State.core_modCore_self (s : State) (n : Nat) (f : Core → Core) : (s.modCore n f).core n = f (s.core n) := by
  simp [State.modCore]
/-- Changing one core leaves every other. -/
theorem State.core_modCore_ne (s : State) (n m : Nat) (f : Core → Core) (h : m ≠ n) :
    (s.modCore n f).core m = s.core m := State.core_setCore_ne _ _ _ _ h
/-- The die just replaced. -/
@[simp] theorem State.die_setDie_self (s : State) (n : Nat) (d : Die) : (s.setDie n d).die n = d := by
  simp [State.die, State.setDie]
/-- The die just changed. -/
@[simp] theorem State.die_modDie_self (s : State) (n : Nat) (f : Die → Die) : (s.modDie n f).die n = f (s.die n) := by
  simp [State.modDie]
/-- Replacing one die leaves every other. -/
theorem State.die_setDie_ne (s : State) (n m : Nat) (d : Die) (h : m ≠ n) : (s.setDie n d).die m = s.die m := by
  simp [State.die, State.setDie, Assoc.find_put_ne _ _ _ _ h]

/-- A core read through a change of `last`. -/
@[simp] theorem State.core_last (s : State) (e : Ending) (n : Nat) : ({ s with last := e } : State).core n = s.core n := rfl
/-- The current core of the state an instruction leaves. -/
@[simp] theorem State.me_doneAs (s : State) (c : Core) : (s.doneAs c).me = c := by
  show (s.setCore s.cur c).core s.cur = c
  simp
/-- Another core of the state an instruction leaves. -/
theorem State.core_doneAs_ne (s : State) (c : Core) (n : Nat) (h : n ≠ s.cur) : (s.doneAs c).core n = s.core n :=
  State.core_setCore_ne s s.cur n c h
/-- The current core of a state in which nothing happened. -/
@[simp] theorem State.me_doneSame (s : State) : s.doneSame.me = s.me := rfl

end Sys2Proof.Machine
end

