-- ==== Sys2Proof/Laws/Memory.lean ====
section
/-! SUPPORT. The laws of memory: read after write, what a write leaves alone, and that every memory operation keeps the
canonical form. -/

namespace Sys2Proof.Machine

/-! ### The canonical form -/

/-- A canonical memory is canonical from any lower bound. -/
theorem Memory.wfFrom_mono {m : Memory} {lo hi : Nat} (h : Memory.wfFrom hi m = true) (hl : lo ≤ hi) :
    Memory.wfFrom lo m = true := by
  cases m with
  | nil => rfl
  | cons p rest =>
    obtain ⟨k, b⟩ := p
    simp only [Memory.wfFrom, Bool.and_eq_true, decide_eq_true_eq] at h ⊢
    exact ⟨⟨by omega, h.1.2⟩, h.2⟩

/-- A write keeps the canonical form. -/
theorem Memory.write_wfFrom {m : Memory} {lo a : Nat} (b : Byte) (h : Memory.wfFrom lo m = true) (ha : lo ≤ a) :
    Memory.wfFrom lo (m.write a b) = true := by
  induction m generalizing lo with
  | nil =>
    unfold Memory.write
    split
    · rfl
    · simp_all [Memory.wfFrom]
  | cons p rest ih =>
    obtain ⟨k, c⟩ := p
    simp only [Memory.wfFrom, Bool.and_eq_true, decide_eq_true_eq] at h
    unfold Memory.write
    split
    · split
      · simp only [Memory.wfFrom, Bool.and_eq_true, decide_eq_true_eq]; exact h
      · simp_all [Memory.wfFrom] <;> omega
    · split
      · split
        · exact Memory.wfFrom_mono h.2 (by omega)
        · simp_all [Memory.wfFrom]
      · rename_i h1 h2
        simp only [Memory.wfFrom, Bool.and_eq_true, decide_eq_true_eq]
        refine ⟨h.1, ih h.2 ?_⟩
        simp only [beq_iff_eq] at h2
        omega

/-- A write keeps the canonical form. -/
theorem Memory.write_wf {m : Memory} (a : Nat) (b : Byte) (h : m.wf = true) : (m.write a b).wf = true :=
  Memory.write_wfFrom b h (Nat.zero_le a)

/-- Writing a list of bytes keeps the canonical form. -/
theorem Memory.writeList_wf {m : Memory} (a : Nat) (bs : List Byte) (h : m.wf = true) : (m.writeList a bs).wf = true := by
  induction bs generalizing m a with
  | nil => exact h
  | cons b bs ih => exact ih (a + 1) (Memory.write_wf a b h)

/-- Writing a value keeps the canonical form. -/
theorem Memory.writeNat_wf {m : Memory} (a n v : Nat) (h : m.wf = true) : (m.writeNat a n v).wf = true :=
  Memory.writeList_wf a _ h

/-- Dropping entries keeps the canonical form. -/
theorem Memory.filter_wfFrom {m : Memory} {lo : Nat} (p : Host.Cell → Bool) (h : Memory.wfFrom lo m = true) :
    Memory.wfFrom lo (m.filter p) = true := by
  induction m generalizing lo with
  | nil => exact h
  | cons q rest ih =>
    obtain ⟨k, b⟩ := q
    simp only [Memory.wfFrom, Bool.and_eq_true, decide_eq_true_eq] at h
    rw [List.filter_cons]
    split
    · simp only [Memory.wfFrom, Bool.and_eq_true, decide_eq_true_eq]
      exact ⟨h.1, ih h.2⟩
    · exact Memory.wfFrom_mono (ih h.2) (by omega)

/-- Dropping entries keeps the canonical form. -/
theorem Memory.filter_wf {m : Memory} (p : Host.Cell → Bool) (h : m.wf = true) : Memory.wf (m.filter p) = true :=
  Memory.filter_wfFrom p h

/-- Zeroing a range keeps the canonical form. -/
theorem Memory.zero_wf {m : Memory} (a n : Nat) (h : m.wf = true) : (m.zero a n).wf = true := Memory.filter_wf _ h

/-- A memory with nothing listed is canonical. -/
@[simp] theorem Memory.nil_wf : Memory.wf [] = true := rfl

/-! ### Reading -/

/-- An address below every entry of a canonical memory reads 0. -/
theorem Memory.read_below {m : Memory} {lo a : Nat} (h : Memory.wfFrom lo m = true) (ha : a < lo) : m.read a = 0 := by
  cases m with
  | nil => rfl
  | cons p rest =>
    obtain ⟨k, b⟩ := p
    simp only [Memory.wfFrom, Bool.and_eq_true, decide_eq_true_eq] at h
    have h1 : k ≠ a := by omega
    have h2 : a < k := by omega
    simp [Memory.read, h1, h2]

/-- A read after a write to the same place gives the value written. -/
theorem Memory.read_write_same {m : Memory} {lo : Nat} (a : Nat) (b : Byte) (h : Memory.wfFrom lo m = true) :
    (m.write a b).read a = b := by
  induction m generalizing lo with
  | nil =>
    unfold Memory.write
    split
    · simp_all [Memory.read]
    · simp [Memory.read]
  | cons p rest ih =>
    obtain ⟨k, c⟩ := p
    simp only [Memory.wfFrom, Bool.and_eq_true, decide_eq_true_eq] at h
    unfold Memory.write
    split
    · rename_i hak
      split
      · rename_i hb
        have h1 : k ≠ a := by omega
        simp only [beq_iff_eq] at hb
        simp [Memory.read, h1, hak, hb]
      · simp [Memory.read]
    · split
      · rename_i h1 h2
        simp only [beq_iff_eq] at h2
        subst h2
        split
        · rename_i hb
          simp only [beq_iff_eq] at hb
          rw [hb]
          exact Memory.read_below h.2 (Nat.lt_succ_self a)
        · simp [Memory.read]
      · rename_i h1 h2
        simp only [beq_iff_eq] at h2
        have h3 : k ≠ a := fun h => h2 h.symm
        simp [Memory.read, h3, h1, ih h.2]

/-- A write leaves every other place alone. -/
theorem Memory.read_write_other {m : Memory} {lo : Nat} {a q : Nat} (b : Byte) (h : Memory.wfFrom lo m = true)
    (hq : q ≠ a) : (m.write a b).read q = m.read q := by
  induction m generalizing lo with
  | nil =>
    unfold Memory.write
    split
    · rfl
    · simp [Memory.read, Ne.symm hq]
  | cons p rest ih =>
    obtain ⟨k, c⟩ := p
    simp only [Memory.wfFrom, Bool.and_eq_true, decide_eq_true_eq] at h
    unfold Memory.write
    split
    · rename_i hak
      split
      · rfl
      · have h1 : ¬a = q := fun h => hq h.symm
        by_cases hqa : q < a
        · have h2 : k ≠ q := by omega
          have h3 : q < k := by omega
          simp [Memory.read, h1, hqa, h2, h3]
        · simp [Memory.read, h1, hqa]
    · split
      · rename_i h1 h2
        simp only [beq_iff_eq] at h2
        subst h2
        have h3 : ¬a = q := fun h => hq h.symm
        split
        · by_cases hqa : q < a
          · simp [Memory.read, h3, hqa, Memory.read_below h.2 (Nat.lt_succ_of_lt hqa)]
          · simp [Memory.read, h3, hqa]
        · simp [Memory.read, h3]
      · by_cases hk : k = q
        · simp [Memory.read, hk]
        · simp [Memory.read, hk, ih h.2]

/-- Writing a list of bytes leaves every address outside them alone. -/
theorem Memory.read_writeList_other {m : Memory} {a q : Nat} (bs : List Byte) (h : m.wf = true)
    (hq : q < a ∨ a + bs.length ≤ q) : (m.writeList a bs).read q = m.read q := by
  induction bs generalizing m a with
  | nil => rfl
  | cons b bs ih =>
    simp only [List.length_cons] at hq
    exact (ih (Memory.write_wf a b h) (by omega)).trans (Memory.read_write_other b h (by omega))

/-- A byte of a list written reads as the list gives it. -/
theorem Memory.read_writeList {m : Memory} {a i : Nat} (bs : List Byte) (h : m.wf = true) (hi : i < bs.length) :
    (m.writeList a bs).read (a + i) = bs[i] := by
  induction bs generalizing m a i with
  | nil => exact absurd hi (Nat.not_lt_zero i)
  | cons b bs ih =>
    cases i with
    | zero =>
      refine (Memory.read_writeList_other bs (Memory.write_wf a b h) (.inl (Nat.lt_succ_self a))).trans ?_
      exact Memory.read_write_same a b h
    | succ i =>
      have h1 := ih (a := a + 1) (i := i) (Memory.write_wf a b h) (by simpa using hi)
      have h2 : a + (i + 1) = a + 1 + i := by omega
      rw [h2]
      simpa [Memory.writeList] using h1

/-- A list of bytes reads back as it was written. -/
theorem Memory.readList_writeList {m : Memory} (a : Nat) (bs : List Byte) (h : m.wf = true) :
    (m.writeList a bs).readList a bs.length = bs := by
  refine List.ext_getElem (by simp [Memory.readList]) fun i h1 h2 => ?_
  simpa [Memory.readList] using Memory.read_writeList bs h h2

/-! ### Bytes and values -/

@[simp] theorem natToBytes_length (n v : Nat) : (natToBytes n v).length = n := by
  induction n generalizing v with
  | zero => rfl
  | succ n ih => simp [natToBytes, ih]

@[simp] theorem Memory.readList_length (m : Memory) (a n : Nat) : (m.readList a n).length = n := by
  simp [Memory.readList]

/-- The bytes of a value give it back modulo its width. -/
theorem bytesToNat_natToBytes (n v : Nat) : bytesToNat (natToBytes n v) = v % 256 ^ n := by
  induction n generalizing v with
  | zero => simp [natToBytes, bytesToNat, Nat.mod_one]
  | succ n ih =>
    simp only [natToBytes, bytesToNat, ih, BitVec.toNat_ofNat]
    have h := Nat.mod_mul (x := v) (a := 256) (b := 256 ^ n)
    rw [Nat.pow_succ' (m := 256), h]

/-- A value written reads back modulo its width. -/
theorem Memory.readNat_writeNat {m : Memory} (a n v : Nat) (h : m.wf = true) :
    (m.writeNat a n v).readNat a n = v % 256 ^ n := by
  have h1 := Memory.readList_writeList a (natToBytes n v) h
  rw [natToBytes_length] at h1
  unfold Memory.readNat Memory.writeNat
  rw [h1, bytesToNat_natToBytes]

/-- A value written leaves every address outside its bytes alone. -/
theorem Memory.read_writeNat_other {m : Memory} {a n v q : Nat} (h : m.wf = true) (hq : q < a ∨ a + n ≤ q) :
    (m.writeNat a n v).read q = m.read q :=
  Memory.read_writeList_other _ h (by simpa using hq)

end Sys2Proof.Machine
end

