-- ==== Sys2Proof/Laws/Run.lean ====
section
/-! SUPPORT. How an encoded instruction ends, said once: `runOn` and the lifts of an effect on the core. -/

namespace Sys2Proof.Machine

/-- An instruction that runs and whose effect succeeds completes with it. -/
theorem runOn_ok {i : Instr} {f : State → Run State} {s t : State} (h : s.Runs i) (hf : f s = .ok t) :
    runOn i f s = .next { t with last := .done } := by
  have h1 : (s.core s.cur).guardHolds i.guard = true := h.guard
  have h2 : (i.sources ++ i.dests).any (fun r => (s.core s.cur).pendingRegs.contains r) = false := by
    rw [Bool.eq_false_iff]
    intro hc
    obtain ⟨r, hr, hp⟩ := List.any_eq_true.mp hc
    exact h.ready r hr (by simpa [State.me] using hp)
  simp only [runOn, h1, h2, hf, State.finish, Bool.not_true, Bool.false_eq_true, if_false]

/-- An instruction that runs and whose effect ends otherwise ends so. -/
theorem runOn_error {i : Instr} {f : State → Run State} {s : State} {e : Exit} (h : s.Runs i) (hf : f s = .error e) :
    runOn i f s = s.finish (.error e) := by
  have h1 : (s.core s.cur).guardHolds i.guard = true := h.guard
  have h2 : (i.sources ++ i.dests).any (fun r => (s.core s.cur).pendingRegs.contains r) = false := by
    rw [Bool.eq_false_iff]
    intro hc
    obtain ⟨r, hr, hp⟩ := List.any_eq_true.mp hc
    exact h.ready r hr (by simpa [State.me] using hp)
  simp only [runOn, h1, h2, hf, Bool.not_true, Bool.false_eq_true, if_false]

/-- An effect on the core that succeeds. -/
theorem runOn_core {i : Instr} {f : Core → Run Core} {s : State} {c : Core} (h : s.Runs i) (hf : f s.me = .ok c) :
    runOn i (onCore f) s = .next (s.doneAs c) := by
  refine (runOn_ok h (t := s.setCore s.cur c) ?_).trans rfl
  have hf' : f (s.core s.cur) = .ok c := hf
  simp only [onCore, hf']

/-- An effect on the core that ends otherwise. -/
theorem runOn_core_error {i : Instr} {f : Core → Run Core} {s : State} {e : Exit} (h : s.Runs i) (hf : f s.me = .error e) :
    runOn i (onCore f) s = s.finish (.error e) := by
  refine runOn_error h ?_
  have hf' : f (s.core s.cur) = .error e := hf
  simp only [onCore, hf']

/-- An effect on the core that always succeeds. -/
theorem runOn_pure {i : Instr} {f : Core → Core} {s : State} (h : s.Runs i) :
    runOn i (onCorePure f) s = .next (s.doneAs (f s.me)) :=
  runOn_ok h rfl

/-- An instruction whose guard is false has no effect (R164). -/
theorem runOn_guarded_off {i : Instr} {f : State → Run State} {s : State} (h : s.me.guardHolds i.guard = false) :
    runOn i f s = .next s.doneSame := by
  have h1 : (s.core s.cur).guardHolds i.guard = false := h
  simp only [runOn, h1, Bool.not_false, if_true, State.doneSame]

/-- Every encoded instruction answers a next state: it never faults or refuses. -/
theorem runOn_next (i : Instr) (f : State → Run State) (s : State) : ∃ t, runOn i f s = .next t := by
  have hf : ∀ r, ∃ t, s.finish r = .next t := fun r => by
    rcases r with (_ | _) | _ <;> exact ⟨_, rfl⟩
  unfold runOn
  dsimp only
  split
  · exact ⟨_, rfl⟩
  · split
    · exact hf _
    · exact hf _

/-- How an instruction that completed can have ended: guarded off, or with its effect. -/
theorem runOn_done {i : Instr} {f : State → Run State} {s t : State} (h : runOn i f s = .next t) (hd : t.last = .done) :
    (s.me.guardHolds i.guard = false ∧ t = s.doneSame) ∨ ∃ u, f s = .ok u ∧ t = { u with last := .done } := by
  unfold runOn at h
  dsimp only at h
  split at h
  · rename_i hg
    refine .inl ⟨by simpa [State.me] using hg, ?_⟩
    injection h with h
    exact h.symm
  · split at h
    · injection h with h
      subst h
      exact absurd hd (by simp)
    · refine .inr ?_
      cases hr : f s with
      | ok u =>
        simp only [hr, State.finish] at h
        injection h with h
        exact ⟨u, rfl, h.symm⟩
      | error e =>
        cases e <;> simp only [hr, State.finish] at h <;> injection h with h <;> subst h <;> exact absurd hd (by simp)

end Sys2Proof.Machine
end

