-- ==== Sys2Proof/Laws/Ops.lean ====
section
/-! SUPPORT. What each shared operation over registers, local memory and requests can do, said once. -/

namespace Sys2Proof.Machine

/-! ### Local accesses (R220 to R226) -/

/-- The buffer and offset fields of a local address (R123). -/
theorem bits_laBuf (la : Nat) : bitsN la 31 30 = laBuf la := Eq.trans rfl rfl
theorem bits_laOff (la : Nat) : bitsN la 17 0 = laOff la := by
  show la / 2 ^ 0 % 2 ^ 18 = la % 2 ^ 18
  rw [Nat.pow_zero, Nat.div_one]
theorem bits_laZero (la : Nat) : bitsN la 29 18 = la / 2 ^ 18 % 2 ^ 12 := Eq.trans rfl rfl

/-- A local access that passes its checks names a buffer and offset inside it, is aligned, and as a write has CORE_W,
lies above the constant window and outside preserved ranges (R220). -/
theorem checkLocal_inv {c : Core} {write : Bool} {la n : Nat} {p : Nat × Nat} (h : checkLocal c write la n = .ok p) :
    p = (laBuf la, laOff la) ∧ la / 2 ^ 18 % 2 ^ 12 = 0 ∧ la % n = 0 ∧
      laOff la + n ≤ (if laBuf la == 3 then 0x100 else bufSize (laBuf la)) ∧
      (write = true → laBuf la ≠ 3 ∧ aclBit c.acl (laBuf la) 6 = true ∧ (laBuf la = 0 → 0x800 ≤ laOff la) ∧
        c.preservedBytes (laBuf la) (laOff la) n = false) ∧
      (write = false → laBuf la = 3 → n = 8) := by
  unfold checkLocal at h
  simp only [bits_laBuf, bits_laOff, bits_laZero] at h
  by_cases h1 : (la / 2 ^ 18 % 2 ^ 12 != 0 ||
      decide ((if laBuf la == 3 then 0x100 else bufSize (laBuf la)) < laOff la + n)) = true
  · rw [if_pos h1] at h
    cases h
  rw [if_neg h1] at h
  by_cases h2 : (la % n != 0) = true
  · rw [if_pos h2] at h
    cases h
  rw [if_neg h2] at h
  simp only [Bool.or_eq_true, bne_iff_ne, ne_eq, decide_eq_true_eq, not_or, Decidable.not_not, Nat.not_lt] at h1 h2
  cases write with
  | true =>
    rw [if_pos rfl] at h
    by_cases h3 : (laBuf la == 3 || !aclBit c.acl (laBuf la) 6 || laBuf la == 0 && decide (laOff la < 0x800) ||
        c.preservedBytes (laBuf la) (laOff la) n) = true
    · rw [if_pos h3] at h
      cases h
    rw [if_neg h3] at h
    simp only [Bool.or_eq_true, beq_iff_eq, Bool.not_eq_true', Bool.and_eq_true, decide_eq_true_eq, not_or, not_and,
      Nat.not_lt, Bool.not_eq_false, Bool.not_eq_true] at h3
    injection h with h
    exact ⟨h.symm, h1.1, h2, h1.2, fun _ => ⟨h3.1.1.1, h3.1.1.2, h3.1.2, h3.2⟩, fun hc => absurd hc (by decide)⟩
  | false =>
    rw [if_neg Bool.false_ne_true] at h
    by_cases h3 : (laBuf la == 3 && n != 8) = true
    · rw [if_pos h3] at h
      cases h
    rw [if_neg h3] at h
    simp only [Bool.and_eq_true, beq_iff_eq, bne_iff_ne, ne_eq, not_and, Decidable.not_not] at h3
    injection h with h
    exact ⟨h.symm, h1.1, h2, h1.2, fun hc => absurd hc (by decide), fun _ => h3⟩

/-- The checks of a load from a buffer pass (R220). -/
theorem checkLocal_read {c : Core} {la n : Nat} (h : LocalSpan la n) :
    checkLocal c false la n = .ok (laBuf la, laOff la) := by
  have h1 : laOff la + n ≤ bufSize (laBuf la) := by
    have := h.fits
    unfold bufSize
    simpa using this
  unfold checkLocal
  simp only [bits_laBuf, bits_laOff, bits_laZero]
  simp only [h.zero, h.aligned, bne_self_eq_false, Bool.false_or]
  simp [h.buffer, h1]

/-- The checks of a store to a buffer pass (R220). -/
theorem checkLocal_write {c : Core} {la n : Nat} (h : c.CanWrite la n) :
    checkLocal c true la n = .ok (laBuf la, laOff la) := by
  have h1 : laOff la + n ≤ bufSize (laBuf la) := by
    have := h.span.fits
    unfold bufSize
    simpa using this
  have h2 : (laBuf la == 0 && decide (laOff la < 0x800)) = false := by
    have := h.window
    simp only [Bool.and_eq_false_imp, beq_iff_eq, decide_eq_false_iff_not, Nat.not_lt]
    exact this
  unfold checkLocal
  simp only [bits_laBuf, bits_laOff, bits_laZero]
  simp only [h.span.zero, h.span.aligned, h.right, h.kept, h2, bne_self_eq_false, Bool.false_or, Bool.not_true,
    Bool.or_false, beq_eq_false_iff_ne.mpr h.span.buffer, Bool.false_eq_true, if_false, if_true]
  simp [Nat.not_lt.mpr h1]

/-- The effective address of an access that lies in the local space (R220). -/
theorem localAddr_ok {base off : Word} (h : eaOf base off < 2 ^ 32) :
    localAddr base.toNat off.toNat = .ok (eaOf base off) := by
  unfold localAddr
  exact if_neg (Nat.not_le.mpr h)

/-- No acquire load is out (R226). -/
theorem acquireHold_ok {c : Core} (h : c.acquiring = false) : acquireHold c = .ok () := by
  unfold acquireHold
  rw [h]
  rfl

/-- A load that may run answers the bytes at its address. -/
theorem readLocal_ok {c : Core} {base off : Word} {n : Nat} (h : c.CanRead (eaOf base off) n) :
    readLocal c base.toNat off.toNat n = .ok (c.localValue (eaOf base off) n) := by
  unfold readLocal
  rw [acquireHold_ok h.free, localAddr_ok h.span.small]
  show (do let (b, o) ← checkLocal c false (eaOf base off) n; return c.loadLocal b o n) = _
  rw [checkLocal_read h.span]
  show Except.ok (c.loadLocal (laBuf (eaOf base off)) (laOff (eaOf base off)) n) = _
  unfold Core.loadLocal
  rw [if_neg (by simpa using h.span.buffer)]
  rfl

/-- A store that may run leaves its core with the value at its address. -/
theorem writeLocal_ok {c : Core} {base off : Word} {n v : Nat} (h : c.CanWrite (eaOf base off) n) :
    writeLocal c base.toNat off.toNat n v = .ok (c.withLocal (eaOf base off) n v) := by
  unfold writeLocal
  rw [acquireHold_ok h.free, localAddr_ok h.span.small]
  show (do
    let (b, o) ← checkLocal c true (eaOf base off) n
    heldStall c b o n
    return c.storeLocal b o n v) = _
  rw [checkLocal_write h]
  show (do heldStall c (laBuf (eaOf base off)) (laOff (eaOf base off)) n; return _) = _
  unfold heldStall
  rw [h.held]
  rfl

/-- What a local store that answers has done: bytes of one buffer of its core, and nothing else. -/
theorem writeLocal_inv {c c' : Core} {base off n v : Nat} (h : writeLocal c base off n v = .ok c') :
    c' = { c with loc := c.loc.writeNat (laPlace ((base + off) % 2 ^ 64)) n v } := by
  unfold writeLocal at h
  simp only [bind, Except.bind, pure, Except.pure] at h
  split at h
  · cases h
  · split at h
    · cases h
    · rename_i la hl
      have hla : la = (base + off) % 2 ^ 64 := by
        unfold localAddr at hl
        simp only at hl
        split at hl
        · cases hl
        · injection hl with hl
          exact hl.symm
      split at h
      · cases h
      · rename_i p hp
        have := (checkLocal_inv hp).1
        subst this
        split at h
        · cases h
        · injection h with h
          rw [← h, ← hla]
          rfl

/-! ### Sequence numbers and requests (R156, R225, R267) -/

/-- Taking a sequence number changes the counter and the blocks alone. -/
theorem takeSeq_inv {c c' : Core} {n : Nat} (h : takeSeq c = .ok (n, c')) :
    c.seqReady = true ∧ n = c.seqctr ∧ c' = c.nextSeq.2 := by
  unfold takeSeq at h
  split at h
  · rename_i hr
    injection h with h
    exact ⟨hr, congrArg Prod.fst h.symm, congrArg Prod.snd h.symm⟩
  · cases h

@[simp] theorem Core.nextSeq_loc (c : Core) : c.nextSeq.2.loc = c.loc := rfl
@[simp] theorem Core.nextSeq_regs (c : Core) : c.nextSeq.2.regs = c.regs := rfl
@[simp] theorem Core.nextSeq_task (c : Core) : c.nextSeq.2.task = c.task := rfl
@[simp] theorem Core.nextSeq_reqs (c : Core) : c.nextSeq.2.reqs = c.reqs := rfl

@[simp] theorem Core.countEvent_loc (c : Core) (e n : Nat) : (c.countEvent e n).loc = c.loc := by
  unfold Core.countEvent
  split <;> rfl
@[simp] theorem Core.countEvent_regs (c : Core) (e n : Nat) : (c.countEvent e n).regs = c.regs := by
  unfold Core.countEvent
  split <;> rfl
@[simp] theorem Core.countEvent_reqs (c : Core) (e n : Nat) : (c.countEvent e n).reqs = c.reqs := by
  unfold Core.countEvent
  split <;> rfl
@[simp] theorem Core.countEvent_fstat (c : Core) (e n : Nat) : (c.countEvent e n).fstat = c.fstat := by
  unfold Core.countEvent
  split <;> rfl
@[simp] theorem Core.countEvent_seqctr (c : Core) (e n : Nat) : (c.countEvent e n).seqctr = c.seqctr := by
  unfold Core.countEvent
  split <;> rfl
@[simp] theorem Core.countEvent_task (c : Core) (e n : Nat) : (c.countEvent e n).task = c.task := by
  unfold Core.countEvent
  split <;> rfl

/-- Issuing a request adds one request at the end, takes one number, and leaves registers, flags, local buffers and the
task alone. -/
theorem issueReq_inv {c c' : Core} {ptr : Word} {op : ReqOp} {dest : Option RegName} {acq rel : Bool} {scope n : Nat}
    (h : issueReq c ptr op dest acq scope rel = .ok (n, c')) :
    c.outstanding < 256 ∧ c.seqReady = true ∧ n = c.seqctr ∧ c'.seqctr = (c.seqctr + 1) % 2 ^ 24 ∧
      c'.regs = c.regs ∧ c'.fstat = c.fstat ∧ c'.loc = c.loc ∧ c'.task = c.task ∧
      ∃ r : Req, c'.reqs = c.reqs ++ [r] ∧ r.ptr = ptr ∧ r.op = op ∧ r.dest = dest ∧ r.acquire = acq ∧
        r.release = rel ∧ r.scope = scope ∧ r.phase = .issued ∧ r.seq = c.seqctr ∧ r.serial = c.serial := by
  unfold issueReq at h
  split at h
  · cases h
  · rename_i hr
    simp only [bind, Except.bind, pure, Except.pure] at h
    split at h
    · cases h
    · rename_i p hp
      obtain ⟨q, c1⟩ := p
      obtain ⟨h1, h2, h3⟩ := takeSeq_inv hp
      subst h2 h3
      injection h with h
      obtain ⟨h4, h5⟩ := Prod.mk.injEq .. ▸ h
      subst h4 h5
      refine ⟨Nat.not_le.mp hr, h1, rfl, ?_, ?_, ?_, ?_, ?_, _, Core.countEvent_reqs .., rfl, rfl, rfl, rfl, rfl, rfl, rfl,
        rfl, rfl⟩
      · exact Core.countEvent_seqctr ..
      · exact Core.countEvent_regs ..
      · exact Core.countEvent_fstat ..
      · exact Core.countEvent_loc ..
      · exact Core.countEvent_task ..

/-- A core that can issue does so. -/
theorem issueReq_ok {c : Core} (ptr : Word) (op : ReqOp) (dest : Option RegName) (acq : Bool) (scope : Nat) (rel : Bool)
    (h : c.CanIssue) : ∃ p, issueReq c ptr op dest acq scope rel = .ok p := by
  unfold issueReq takeSeq
  rw [if_neg (Nat.not_le.mpr h.room), h.number]
  exact ⟨_, rfl⟩

/-! ### Windows (R133) -/

@[simp] theorem Core.pushSlots_loc (c : Core) (r : Fin 16) (k : Nat) : (c.pushSlots r k).loc = c.loc := rfl
@[simp] theorem Core.pushSlots_regs (c : Core) (r : Fin 16) (k : Nat) : (c.pushSlots r k).regs = c.regs := rfl
@[simp] theorem Core.pushSlots_fstat (c : Core) (r : Fin 16) (k : Nat) : (c.pushSlots r k).fstat = c.fstat := rfl
@[simp] theorem Core.popSlots_loc (c : Core) (r : Fin 16) (k : Nat) : (c.popSlots r k).loc = c.loc := rfl
@[simp] theorem Core.popSlots_regs (c : Core) (r : Fin 16) (k : Nat) : (c.popSlots r k).regs = c.regs := rfl
@[simp] theorem Core.popSlots_fstat (c : Core) (r : Fin 16) (k : Nat) : (c.popSlots r k).fstat = c.fstat := rfl
@[simp] theorem Core.setBinding_loc (c : Core) (v : Fin 32) (b : Binding) : (c.setBinding v b).loc = c.loc := rfl
@[simp] theorem Core.setBinding_regs (c : Core) (v : Fin 32) (b : Binding) : (c.setBinding v b).regs = c.regs := rfl
@[simp] theorem Core.setBinding_fstat (c : Core) (v : Fin 32) (b : Binding) : (c.setBinding v b).fstat = c.fstat := rfl

/-- Reading a window leaves the local buffers and the registers alone. -/
theorem popWindow_inv {c c' : Core} {v : Fin 32} {b : Binding} {w : Vec} (h : popWindow c v b = .ok (w, c')) :
    c'.loc = c.loc ∧ c'.regs = c.regs ∧ c'.fstat = c.fstat := by
  unfold popWindow at h
  simp only [bind, Except.bind] at h
  split at h
  · cases h
  · split at h
    · cases h
    · split at h <;> injection h with h <;> obtain ⟨-, h⟩ := Prod.mk.injEq .. ▸ h <;> subst h <;> exact ⟨rfl, rfl, rfl⟩

/-- Reading one more register or window. -/
theorem readVs_cons {v : Fin 32} {vs : List (Fin 32)} {seen : List (Fin 32 × Vec)} {c : Core} {p : List Vec × Core}
    (h : readVs (v :: vs) seen c = .ok p) :
    (∃ q, readVs vs seen c = .ok q ∧ q.2 = p.2) ∨
      ∃ b w c1 q, popWindow c v b = .ok (w, c1) ∧ readVs vs ((v, w) :: seen) c1 = .ok q ∧ q.2 = p.2 := by
  rw [readVs] at h
  simp only [bind, Except.bind, pure, Except.pure] at h
  cases hb : c.readBinding v with
  | none =>
    simp only [hb] at h
    cases hr : readVs vs seen c with
    | error e => simp only [hr] at h; exact nomatch h
    | ok q => simp only [hr] at h; have h := Except.ok.inj h; exact .inl ⟨q, rfl, by rw [← h]⟩
  | some b =>
    simp only [hb] at h
    cases hs : seen.find? fun p => p.1 == v with
    | some q =>
      simp only [hs] at h
      cases hr : readVs vs seen c with
      | error e => simp only [hr] at h; exact nomatch h
      | ok q => simp only [hr] at h; have h := Except.ok.inj h; exact .inl ⟨q, rfl, by rw [← h]⟩
    | none =>
      simp only [hs] at h
      cases hq : popWindow c v b with
      | error e => simp only [hq] at h; exact nomatch h
      | ok q =>
        simp only [hq] at h
        cases hr : readVs vs ((v, q.1) :: seen) q.2 with
        | error e => simp only [hr] at h; exact nomatch h
        | ok z =>
          simp only [hr] at h
          have h := Except.ok.inj h
          exact .inr ⟨b, q.1, q.2, z, hq, hr, by rw [← h]⟩

/-- Reading registers and windows leaves the local buffers, the registers and the flags alone. -/
theorem readVs_inv {vs : List (Fin 32)} {seen : List (Fin 32 × Vec)} {c : Core} {p : List Vec × Core}
    (h : readVs vs seen c = .ok p) : p.2.loc = c.loc ∧ p.2.regs = c.regs ∧ p.2.fstat = c.fstat := by
  induction vs generalizing seen c p with
  | nil =>
    have h1 : ([], c) = p := Except.ok.inj h
    rw [← h1]
    exact ⟨rfl, rfl, rfl⟩
  | cons v vs ih =>
    rcases readVs_cons h with ⟨q, hq, h1⟩ | ⟨b, w, c1, q, hw, hq, h1⟩
    · exact h1 ▸ ih hq
    · obtain ⟨h2, h3, h4⟩ := h1 ▸ ih hq
      obtain ⟨h5, h6, h7⟩ := popWindow_inv hw
      exact ⟨h2.trans h5, h3.trans h6, h4.trans h7⟩

/-- Writing a window changes one range of the local buffers and no register. -/
theorem pushWindow_inv {c c' : Core} {v : Fin 32} {b : Binding} {w : Vec} (h : pushWindow c v b w = .ok c') :
    (∃ a, c'.loc = c.loc.writeNat a 16 w.toNat) ∧ c'.regs = c.regs ∧ c'.fstat = c.fstat := by
  unfold pushWindow at h
  simp only [bind, Except.bind] at h
  split at h
  · cases h
  · split at h
    · cases h
    · split at h
      · cases h
      · split at h
        · cases h
        · split at h
          · cases h
          · split at h <;> injection h with h <;> rw [← h]
            · exact ⟨⟨locKey (c.rings[(Fin.ofNat 16 b.ring : Fin 16)]).buf
              ((c.rings[(Fin.ofNat 16 b.ring : Fin 16)]).slotAt (c.tailOf (Fin.ofNat 16 b.ring)) + b.wcur),
              by simp only [Core.pushSlots_loc, Core.setBinding_loc]⟩, rfl, rfl⟩
            · exact ⟨⟨locKey (c.rings[(Fin.ofNat 16 b.ring : Fin 16)]).buf
              ((c.rings[(Fin.ofNat 16 b.ring : Fin 16)]).slotAt (c.tailOf (Fin.ofNat 16 b.ring)) + b.wcur),
              by simp only [Core.setBinding_loc]⟩, rfl, rfl⟩

/-- Writing a vector register keeps the local buffers canonical and the flags as they were. -/
theorem writeV_inv {c c' : Core} {v : Fin 32} {w : Vec} (h : writeV v w c = .ok c') :
    (c.loc.wf = true → c'.loc.wf = true) ∧ c'.fstat = c.fstat := by
  unfold writeV at h
  split at h
  · injection h with h
    subst h
    exact ⟨id, rfl⟩
  · obtain ⟨⟨a, ha⟩, -, hf⟩ := pushWindow_inv h
    exact ⟨fun hc => ha ▸ Memory.writeNat_wf a 16 _ hc, hf⟩

end Sys2Proof.Machine
end

