-- ==== Sys2Proof/Laws/Canonical.lean ====
section
/-! SUPPORT. The canonical form of every memory: what keeps it among the named operations, up to taking a trap and running
an encoded instruction. -/

namespace Sys2Proof.Machine

theorem Assoc.mem_put {α : Type} {l : Assoc α} {n : Nat} {a : α} {p : Nat × α} (h : p ∈ l.put n a) :
    p = (n, a) ∨ p ∈ l := by
  induction l with
  | nil => exact .inl (List.mem_singleton.mp h)
  | cons q rest ih =>
    obtain ⟨k, b⟩ := q
    unfold Assoc.put at h
    split at h
    · rcases List.mem_cons.mp h with h | h
      · exact .inl h
      · exact .inr h
    · split at h
      · rcases List.mem_cons.mp h with h | h
        · exact .inl h
        · exact .inr (List.mem_cons_of_mem _ h)
      · rcases List.mem_cons.mp h with h | h
        · exact .inr (h ▸ List.mem_cons_self ..)
        · rcases ih h with h | h
          · exact .inl h
          · exact .inr (List.mem_cons_of_mem _ h)

theorem Assoc.mem_of_find {α : Type} {l : Assoc α} {n : Nat} {a : α} (h : l.find n = some a) : ∃ k, (k, a) ∈ l := by
  induction l with
  | nil => exact nomatch h
  | cons q rest ih =>
    obtain ⟨k, b⟩ := q
    unfold Assoc.find at h
    split at h
    · injection h with h
      exact ⟨k, h ▸ List.mem_cons_self ..⟩
    · obtain ⟨j, hj⟩ := ih h
      exact ⟨j, List.mem_cons_of_mem _ hj⟩

/-- States that agree on the memories, cores, gangs and erasure group are canonical together. -/
theorem State.Canonical.same {s t : State} (h : s.Canonical) (hm : t.mem = s.mem) (hc : t.cores = s.cores)
    (hg : t.gangs = s.gangs) (he : t.erasure = s.erasure) : t.Canonical :=
  ⟨hm ▸ h.global, hc ▸ h.cores, hg ▸ h.saved, he ▸ h.symbols⟩

/-- Every core's local memory is canonical. -/
theorem State.Canonical.core {s : State} (h : s.Canonical) (n : Nat) : (s.core n).loc.wf = true := by
  unfold State.core
  cases hf : s.cores.find n with
  | none => rfl
  | some c =>
    obtain ⟨k, hk⟩ := Assoc.mem_of_find hf
    exact h.cores _ hk

/-- Replacing a core by one whose local memory is canonical. -/
theorem State.Canonical.setCore {s : State} (h : s.Canonical) (n : Nat) {c : Core} (hc : c.loc.wf = true) :
    (s.setCore n c).Canonical := by
  refine ⟨h.global, fun p hp => ?_, h.saved, h.symbols⟩
  rcases Assoc.mem_put hp with hp | hp
  · rw [hp]
    exact hc
  · exact h.cores p hp

/-- Changing a core in a way that keeps its local memory canonical. -/
theorem State.Canonical.modCore {s : State} (h : s.Canonical) (n : Nat) {f : Core → Core}
    (hf : ∀ c : Core, c.loc.wf = true → (f c).loc.wf = true) : (s.modCore n f).Canonical :=
  h.setCore n (hf _ (h.core n))

/-- Changing a gang in a way that keeps what it has saved canonical. -/
theorem State.Canonical.modGang {s : State} (h : s.Canonical) (j g : Nat) {f : Gang → Gang}
    (hf : ∀ x ∈ s.gangs, (∀ c ∈ x.saved, c.loc.wf = true) → ∀ c ∈ (f x).saved, c.loc.wf = true) :
    (s.modGang j g f).Canonical := by
  refine ⟨h.global, h.cores, fun x hx => ?_, h.symbols⟩
  obtain ⟨y, hy, he⟩ := List.mem_map.mp hx
  subst he
  split
  · exact hf y hy (h.saved y hy)
  · exact h.saved y hy

theorem State.Canonical.modJob {s : State} (h : s.Canonical) (j : Nat) (f : Job → Job) : (s.modJob j f).Canonical := by
  unfold State.modJob
  split
  · exact h.same rfl rfl rfl rfl
  · exact h

theorem State.Canonical.send {s : State} (h : s.Canonical) (m : Msg) : (s.send m).Canonical := h.same rfl rfl rfl rfl

/-- A message of a core's own that enters its queue in a way that keeps every memory canonical. -/
theorem State.Canonical.emit {s : State} (h : s.Canonical) {place : Msg → State → State} (core : Nat) (enter : Bool) (m : Msg)
    (hp : ∀ (k : Msg) {t : State}, t.Canonical → (place k t).Canonical) : (s.emit place core enter m).Canonical := by
  unfold State.emit
  dsimp only
  split
  · have h1 : (s.setCore core (s.core core).nextSeq.2).Canonical := h.setCore core (h.core core)
    split
    · exact hp _ h1
    · exact h1.send _
  · exact h.setCore core (h.core core)

theorem State.Canonical.postFar {s : State} (h : s.Canonical) (core kind chan : Nat) (payload : List Byte) (job : Nat) :
    (s.postFar core kind chan payload job).Canonical := h.emit _ _ _ fun _ _ ht => ht

theorem State.Canonical.status {s : State} (h : s.Canonical) (core st quoted detail : Nat) :
    (s.status core st quoted detail).Canonical := h.postFar ..

theorem State.Canonical.markStop {s : State} (h : s.Canonical) (j : Nat) (st : StopStatus) :
    (s.markStop j st).Canonical := h.modJob ..

theorem State.Canonical.reportFault {s : State} (h : s.Canonical) (core : Nat) (t : Trap) (late exact : Bool)
    (chan msgId : Nat) (fpc fstop : Word) (seq job : Nat) :
    (s.reportFault core t late exact chan msgId fpc fstop seq job).Canonical := by
  have h1 : (s.modCore core fun c => { c with fault := c.fault.record t late exact msgId fpc fstop seq }).Canonical :=
    h.modCore core fun c hc => hc
  unfold State.reportFault
  dsimp only
  split
  · exact h1.markStop ..
  · exact h1.status ..

theorem State.Canonical.withdraw {s : State} (h : s.Canonical) (core : Nat) : (s.withdraw core).Canonical := by
  unfold State.withdraw
  dsimp only
  split
  · exact h.modGang _ _ fun _ _ hx => hx
  · exact h

@[simp] theorem Core.trace_loc (c : Core) (type : Nat) (a v : Word) : (c.trace type a v).loc = c.loc := by
  unfold Core.trace
  dsimp only
  repeat' split
  all_goals rfl

@[simp] theorem Core.settleWrites_loc (c : Core) : c.settleWrites.loc = c.loc := by
  have h : ∀ (l : Assoc Word) (k : Core),
      (l.foldl (fun c p => c.modChan (Fin.ofNat 16 p.1) fun ch => ch.setReg ((p.1 - 0x100) / 16) p.2) k).loc = k.loc := by
    intro l
    induction l with
    | nil => exact fun _ => rfl
    | cons p l ih => exact fun k => ih _
  exact h c.written c

@[simp] theorem Core.abort_loc (c : Core) (e : Bool) : (c.abort e).loc = c.loc := by
  unfold Core.abort
  split
  · rfl
  · exact Core.settleWrites_loc _

theorem State.Canonical.abortTask {s : State} (h : s.Canonical) (core : Nat) (e : Bool) (stop : Word) (code : Nat) :
    (s.abortTask core e stop code).Canonical := by
  have h1 : ((s.withdraw core).dropFetch core).Canonical := (h.withdraw core).same rfl rfl rfl rfl
  unfold State.abortTask
  refine h1.modCore core fun c hc => ?_
  rw [Core.abort_loc, Core.trace_loc, Core.countEvent_loc]
  exact hc

theorem State.Canonical.chargeJob {s : State} (h : s.Canonical) (j : Nat) : (s.chargeJob j).Canonical := by
  unfold State.chargeJob
  split
  · exact h
  · split
    · exact h
    · split
      · exact h.markStop ..
      · exact h.modJob ..

theorem State.Canonical.chargeGang {s : State} (h : s.Canonical) (j g : Nat) : (s.chargeGang j g).Canonical := by
  unfold State.chargeGang
  split
  · exact h
  · split
    · exact h
    · split
      · exact h.chargeJob j
      · exact h.modGang _ _ fun _ _ hx => hx

theorem State.Canonical.chargeInst {s : State} (h : s.Canonical) (j g d i k : Nat) :
    (s.chargeInst j g d i k).Canonical := by
  induction k generalizing d i with
  | zero => exact h.chargeGang j g
  | succ k ih =>
    unfold State.chargeInst
    split
    · exact h
    · split
      · exact h.chargeGang j g
      · split
        · exact h
        · split
          · exact h.chargeGang j g
          · split
            · exact h.chargeJob j
            · split
              · split
                · exact ih ..
                · exact h.chargeGang j g
              · exact h.modGang _ _ fun _ _ hx => hx

theorem State.Canonical.countRoot {s : State} (h : s.Canonical) (core : Nat) (m : Msg) (n : Nat) :
    (s.countRoot core m n).Canonical := by
  unfold State.countRoot
  split
  · exact h.modGang _ _ fun _ _ hx => hx
  · exact h

theorem State.Canonical.countTask {s : State} (h : s.Canonical) (core : Nat) : (s.countTask core).Canonical := by
  unfold State.countTask
  dsimp only
  split
  · exact h
  · split
    · refine State.Canonical.countRoot ?_ ..
      exact h.modCore core fun c hc => hc
    · split
      · exact h.chargeInst ..
      · exact h.chargeGang ..
      · exact h

theorem State.Canonical.chargeTask {s : State} (h : s.Canonical) (core : Nat) : (s.chargeTask core).Canonical := by
  unfold State.chargeTask
  dsimp only
  split
  · exact h
  · refine State.Canonical.abortTask ?_ ..
    exact (h.countTask core).modCore core fun c hc => hc

@[simp] theorem Core.dropUnsent_loc (c : Core) (pos : Nat) : (c.dropUnsent pos).loc = c.loc := rfl

theorem State.Canonical.absorbErrors {s : State} (h : s.Canonical) (core : Nat) : (s.absorbErrors core).Canonical := by
  unfold State.absorbErrors
  dsimp only
  split
  · exact h
  · have drop (l : List Nat) : ∀ u : State, u.Canonical →
        (l.foldl (fun s p => s.modCore core fun c => c.dropUnsent p) u).Canonical := by
      induction l with
      | nil => exact fun u hu => hu
      | cons p l ih => exact fun u hu => ih _ (hu.modCore core fun c hc => by rw [Core.dropUnsent_loc]; exact hc)
    refine drop _ _ (State.Canonical.countTask ?_ core)
    exact h.modCore core fun c hc => hc

/-- Taking a trap keeps every memory canonical. -/
theorem State.Canonical.takeTrap {s : State} (h : s.Canonical) (core : Nat) (t : Trap) : (s.takeTrap core t).Canonical := by
  have h1 : (s.modCore core fun c => { c with dbg := { c.dbg with skipBp := false } }).Canonical := h.modCore core fun c hc => hc
  unfold State.takeTrap
  dsimp only
  split
  · exact h1.chargeTask core
  · exact ((h1.absorbErrors core).abortTask ..).reportFault ..

/-- An instruction whose effect keeps every memory canonical does so however it ends. -/
theorem State.Canonical.finish {s t : State} {r : Run State} (h : s.Canonical) (hr : ∀ u, r = .ok u → u.Canonical)
    (ht : s.finish r = .next t) : t.Canonical := by
  unfold State.finish at ht
  split at ht
  · rename_i u
    injection ht with ht
    exact ht ▸ (hr u rfl).same rfl rfl rfl rfl
  · injection ht with ht
    refine ht ▸ ?_
    exact (h.modCore s.cur (f := fun c => { c with stalled := some _ }) fun c hc => hc).same rfl rfl rfl rfl
  · injection ht with ht
    exact ht ▸ (h.takeTrap ..).same rfl rfl rfl rfl

/-- An encoded instruction whose effect keeps every memory canonical does so however it ends. -/
theorem State.Canonical.runOn {i : Instr} {f : State → Run State} {s t : State} (h : s.Canonical)
    (hf : ∀ u, f s = .ok u → u.Canonical) (ht : Machine.runOn i f s = .next t) : t.Canonical := by
  unfold Machine.runOn at ht
  dsimp only at ht
  split at ht
  · injection ht with ht
    exact ht ▸ h.same rfl rfl rfl rfl
  · split at ht
    · exact h.finish (fun u hu => by cases hu) ht
    · exact h.finish hf ht

/-- An effect on the core alone that keeps its local memory canonical. -/
theorem State.Canonical.onCore {f : Core → Run Core} {s u : State} (h : s.Canonical)
    (hf : ∀ c, f (s.core s.cur) = .ok c → c.loc.wf = true) (hu : Machine.onCore f s = .ok u) : u.Canonical := by
  unfold Machine.onCore at hu
  split at hu
  · rename_i c hc
    injection hu with hu
    exact hu ▸ h.setCore s.cur (hf c hc)
  · exact nomatch hu

end Sys2Proof.Machine
end

