-- ==== Sys2Proof/Laws/PerInstr.lean ====
section
/-! SUPPORT. Encoding and decoding agree, instruction by instruction: one lemma for each shape of word, one for each
opcode map, and one for each constructor. -/

namespace Sys2Proof.Laws.RoundTrip

/-- An encoded instruction that is well formed has a word of 30 bits, from which its slot's decoder reads it. -/
def Statement (i : Instr) : Prop :=
  ∀ sl : Slot, i.slot = some sl → i.wf = true → ∃ w, i.encode = some w ∧ w < 2 ^ 30 ∧ decodeSlot sl w = .ok i

/-- A word read with its res0 fields clear decodes to what it reads as, where that is well formed. -/
theorem decode_of_read {sl : Slot} {w : Nat} {i : Instr} (h : readSlot sl w = some ⟨i, true⟩) (hwf : i.wf = true) :
    decodeSlot sl w = .ok i := by
  simp only [Instr.wf, Bool.and_eq_true] at hwf
  simp only [decodeSlot, readAssigned, h, hwf.1, hwf.2, if_true, Bool.and_self]

/-- A field reads the value whose number stands there. -/
theorem field_eq {w lo n : Nat} [NeZero n] {v : Fin n} (h : w / 2 ^ lo % n = v.val) : field w lo n = v := Fin.ext h

/-- A flag reads the Bool whose number stands there. -/
theorem flag_eq {w lo : Nat} {b : Bool} (h : w / 2 ^ lo % 2 = b.toNat) : flag w lo = b := by
  unfold flag
  rw [h]
  cases b <;> rfl

/-- A res0 field that holds zero is clear. -/
theorem zeros_eq {w lo width : Nat} (h : w / 2 ^ lo % 2 ^ width = 0) : zeros w lo width = true := beq_iff_eq.mpr h

/-- The guard field reads the guard that stands there. -/
theorem guard_eq {w : Nat} {g : Guard} (h1 : w / 2 ^ 23 % 2 = g.gn.toNat) (h2 : w / 2 ^ 20 % 8 = g.gp.val) :
    guardOf w = g := by
  obtain ⟨gn, gp⟩ := g
  simp only [guardOf, flag_eq h1, field_eq h2]

/-- The low bits of a word. -/
theorem low_mod {w n v : Nat} (h : w / 2 ^ 0 % n = v) : w % n = v := by
  rwa [Nat.pow_zero, Nat.div_one] at h

/-- A 20-bit offset is the low bits of its word. -/
theorem low_eq {w : Nat} {v : BitVec 20} (h : w / 2 ^ 0 % 2 ^ 20 = v.toNat) : BitVec.ofNat 20 w = v :=
  BitVec.eq_of_toNat_eq ((BitVec.toNat_ofNat w 20).trans (low_mod h))

/-- Two checks that hold. -/
theorem and_eq {a b : Bool} (ha : a = true) (hb : b = true) : (a && b) = true := by
  rw [ha, hb]
  rfl

/-- A word laid out as fields of given widths and values, from bit 0 upwards. -/
def mix : List (Nat × Nat) → Nat
  | [] => 0
  | (k, v) :: rest => v + 2 ^ k * mix rest

/-- Every value fits its field. -/
def Mixed : List (Nat × Nat) → Prop
  | [] => True
  | (k, v) :: rest => v < 2 ^ k ∧ Mixed rest

/-- The bits of a list of fields. -/
def width : List (Nat × Nat) → Nat
  | [] => 0
  | (k, _) :: rest => k + width rest

theorem mix_bound : ∀ {l : List (Nat × Nat)}, Mixed l → mix l < 2 ^ width l
  | [], _ => by decide
  | (k, v) :: rest, h => by
    have h1 : v < 2 ^ k := h.1
    have h2 : mix rest + 1 ≤ 2 ^ width rest := mix_bound h.2
    have h3 := Nat.mul_le_mul_left (2 ^ k) h2
    simp only [mix, width, Nat.pow_add]
    rw [Nat.mul_add] at h3
    omega

/-- The field that stands at index `i` reads its value. -/
theorem mix_field : ∀ {l : List (Nat × Nat)} {lo k v : Nat}, Mixed l → ∀ i : Nat, l[i]? = some (k, v) →
    width (l.take i) = lo → mix l / 2 ^ lo % 2 ^ k = v
  | [], _, _, _, _, _, hi, _ => nomatch hi
  | (k, v) :: rest, _, _, _, h, 0, hi, hw => by
    cases hi
    cases hw
    show (v + 2 ^ k * mix rest) / 2 ^ 0 % 2 ^ k = v
    rw [Nat.pow_zero, Nat.div_one, Nat.add_mul_mod_self_left, Nat.mod_eq_of_lt h.1]
  | (k, v) :: rest, _, k', v', h, i + 1, hi, hw => by
    cases hw
    show (v + 2 ^ k * mix rest) / 2 ^ (k + width (rest.take i)) % 2 ^ k' = v'
    rw [Nat.pow_add, ← Nat.div_div_eq_div_mul, Nat.add_mul_div_left _ _ (Nat.two_pow_pos k),
      Nat.div_eq_of_lt h.1, Nat.zero_add]
    exact mix_field h.2 i hi rfl

/-- A word is below two to its width. -/
theorem mix_lt {w : Nat} {l : List (Nat × Nat)} (he : w = mix l) (h : Mixed l) : w < 2 ^ width l := he ▸ mix_bound h

/-- The field that stands at index `i` of a word reads its value. -/
theorem mix_at {w : Nat} {l : List (Nat × Nat)} {lo k v : Nat} (he : w = mix l) (h : Mixed l) (i : Nat)
    (hi : l[i]? = some (k, v)) (hw : width (l.take i) = lo) : w / 2 ^ lo % 2 ^ k = v := he ▸ mix_field h i hi hw

/-! ### The opcode maps -/

theorem readC00_of {w : Nat} (h : opOf w = 0x00) : readSlot .c w = readC00 w := by
  show readC w = _
  unfold readC
  rw [h]
  rfl
theorem readC01_of {w : Nat} (h : opOf w = 0x01) : readSlot .c w = readC01 w := by
  show readC w = _
  unfold readC
  rw [h]
  rfl
theorem readC02_of {w : Nat} (h : opOf w = 0x02) : readSlot .c w = readC02 w := by
  show readC w = _
  unfold readC
  rw [h]
  rfl
theorem readC03_of {w : Nat} (h : opOf w = 0x03) : readSlot .c w = readC03 w := by
  show readC w = _
  unfold readC
  rw [h]
  rfl
theorem readC04_of {w : Nat} (h : opOf w = 0x04) : readSlot .c w = readC04 w := by
  show readC w = _
  unfold readC
  rw [h]
  rfl
theorem readC05_of {w : Nat} (h : opOf w = 0x05) : readSlot .c w = readC05 w := by
  show readC w = _
  unfold readC
  rw [h]
  rfl
theorem readC06_of {w : Nat} (h : opOf w = 0x06) : readSlot .c w = readC06 w := by
  show readC w = _
  unfold readC
  rw [h]
  rfl
theorem readC07_of {w : Nat} (h : opOf w = 0x07) : readSlot .c w = readC07 w := by
  show readC w = _
  unfold readC
  rw [h]
  rfl
theorem readC08_of {w : Nat} (h : opOf w = 0x08) : readSlot .c w = readC08 w := by
  show readC w = _
  unfold readC
  rw [h]
  rfl
theorem readC09_of {w : Nat} (h : opOf w = 0x09) : readSlot .c w = readC09 w := by
  show readC w = _
  unfold readC
  rw [h]
  rfl
theorem readC0A_of {w : Nat} (h : opOf w = 0x0A) : readSlot .c w = readC0A w := by
  show readC w = _
  unfold readC
  rw [h]
  rfl
theorem readC10_of {w : Nat} (h : opOf w = 0x10) : readSlot .c w = readC10 w := by
  show readC w = _
  unfold readC
  rw [h]
  rfl
theorem readC11_of {w : Nat} (h : opOf w = 0x11) : readSlot .c w = readC11 w := by
  show readC w = _
  unfold readC
  rw [h]
  rfl
theorem readC12_of {w : Nat} (h : opOf w = 0x12) : readSlot .c w = readC12 w := by
  show readC w = _
  unfold readC
  rw [h]
  rfl
theorem readC13_of {w : Nat} (h : opOf w = 0x13) : readSlot .c w = readC13 w := by
  show readC w = _
  unfold readC
  rw [h]
  rfl
theorem readC14_of {w : Nat} (h : opOf w = 0x14) : readSlot .c w = readC14 w := by
  show readC w = _
  unfold readC
  rw [h]
  rfl
theorem readC15_of {w : Nat} (h : opOf w = 0x15) : readSlot .c w = readC15 w := by
  show readC w = _
  unfold readC
  rw [h]
  rfl
theorem readC16_of {w : Nat} (h : opOf w = 0x16) : readSlot .c w = readC16 w := by
  show readC w = _
  unfold readC
  rw [h]
  rfl
theorem readC17_of {w : Nat} (h : opOf w = 0x17) : readSlot .c w = readC17 w := by
  show readC w = _
  unfold readC
  rw [h]
  rfl
theorem readC18_of {w : Nat} (h : opOf w = 0x18) : readSlot .c w = readC18 w := by
  show readC w = _
  unfold readC
  rw [h]
  rfl
theorem readC19_of {w : Nat} (h : opOf w = 0x19) : readSlot .c w = readC19 w := by
  show readC w = _
  unfold readC
  rw [h]
  rfl
theorem readC1A_of {w : Nat} (h : opOf w = 0x1A) : readSlot .c w = readC1A w := by
  show readC w = _
  unfold readC
  rw [h]
  rfl
theorem readC1B_of {w : Nat} (h : opOf w = 0x1B) : readSlot .c w = readC1B w := by
  show readC w = _
  unfold readC
  rw [h]
  rfl
theorem readC1C_of {w : Nat} (h : opOf w = 0x1C) : readSlot .c w = readC1C w := by
  show readC w = _
  unfold readC
  rw [h]
  rfl
theorem readC1D_of {w : Nat} (h : opOf w = 0x1D) : readSlot .c w = readC1D w := by
  show readC w = _
  unfold readC
  rw [h]
  rfl
theorem readC1E_of {w : Nat} (h : opOf w = 0x1E) : readSlot .c w = readC1E w := by
  show readC w = _
  unfold readC
  rw [h]
  rfl
theorem readC1F_of {w : Nat} (h : opOf w = 0x1F) : readSlot .c w = readC1F w := by
  show readC w = _
  unfold readC
  rw [h]
  rfl
theorem readC20_of {w : Nat} (h : opOf w = 0x20) : readSlot .c w = readC20 w := by
  show readC w = _
  unfold readC
  rw [h]
  rfl
theorem readC21_of {w : Nat} (h : opOf w = 0x21) : readSlot .c w = readC21 w := by
  show readC w = _
  unfold readC
  rw [h]
  rfl
theorem readC22_of {w : Nat} (h : opOf w = 0x22) : readSlot .c w = readC22 w := by
  show readC w = _
  unfold readC
  rw [h]
  rfl
theorem readC23_of {w : Nat} (h : opOf w = 0x23) : readSlot .c w = readC23 w := by
  show readC w = _
  unfold readC
  rw [h]
  rfl
theorem readC24_of {w : Nat} (h : opOf w = 0x24) : readSlot .c w = readC24 w := by
  show readC w = _
  unfold readC
  rw [h]
  rfl
theorem readC25_of {w : Nat} (h : opOf w = 0x25) : readSlot .c w = readC25 w := by
  show readC w = _
  unfold readC
  rw [h]
  rfl
theorem readC26_of {w : Nat} (h : opOf w = 0x26) : readSlot .c w = readC26 w := by
  show readC w = _
  unfold readC
  rw [h]
  rfl
theorem readC27_of {w : Nat} (h : opOf w = 0x27) : readSlot .c w = readC27 w := by
  show readC w = _
  unfold readC
  rw [h]
  rfl
theorem readC28_of {w : Nat} (h : opOf w = 0x28) : readSlot .c w = readC28 w := by
  show readC w = _
  unfold readC
  rw [h]
  rfl
theorem readC29_of {w : Nat} (h : opOf w = 0x29) : readSlot .c w = readC29 w := by
  show readC w = _
  unfold readC
  rw [h]
  rfl
theorem readC2A_of {w : Nat} (h : opOf w = 0x2A) : readSlot .c w = readC2A w := by
  show readC w = _
  unfold readC
  rw [h]
  rfl
theorem readC2B_of {w : Nat} (h : opOf w = 0x2B) : readSlot .c w = readC2B w := by
  show readC w = _
  unfold readC
  rw [h]
  rfl
theorem readC2C_of {w : Nat} (h : opOf w = 0x2C) : readSlot .c w = readC2C w := by
  show readC w = _
  unfold readC
  rw [h]
  rfl
theorem readC2D_of {w : Nat} (h : opOf w = 0x2D) : readSlot .c w = readC2D w := by
  show readC w = _
  unfold readC
  rw [h]
  rfl
theorem readC2E_of {w : Nat} (h : opOf w = 0x2E) : readSlot .c w = readC2E w := by
  show readC w = _
  unfold readC
  rw [h]
  rfl
theorem readC30_of {w : Nat} (h : opOf w = 0x30) : readSlot .c w = readC30 w := by
  show readC w = _
  unfold readC
  rw [h]
  rfl
theorem readC31_of {w : Nat} (h : opOf w = 0x31) : readSlot .c w = readC31 w := by
  show readC w = _
  unfold readC
  rw [h]
  rfl
theorem readC32_of {w : Nat} (h : opOf w = 0x32) : readSlot .c w = readC32 w := by
  show readC w = _
  unfold readC
  rw [h]
  rfl
theorem readC33_of {w : Nat} (h : opOf w = 0x33) : readSlot .c w = readC33 w := by
  show readC w = _
  unfold readC
  rw [h]
  rfl
theorem readC34_of {w : Nat} (h : opOf w = 0x34) : readSlot .c w = readC34 w := by
  show readC w = _
  unfold readC
  rw [h]
  rfl
theorem readC38_of {w : Nat} (h : opOf w = 0x38) : readSlot .c w = readC38 w := by
  show readC w = _
  unfold readC
  rw [h]
  rfl
theorem readC39_of {w : Nat} (h : opOf w = 0x39) : readSlot .c w = readC39 w := by
  show readC w = _
  unfold readC
  rw [h]
  rfl
theorem readC3A_of {w : Nat} (h : opOf w = 0x3A) : readSlot .c w = readC3A w := by
  show readC w = _
  unfold readC
  rw [h]
  rfl
theorem readC3C_of {w : Nat} (h : opOf w = 0x3C) : readSlot .c w = readC3C w := by
  show readC w = _
  unfold readC
  rw [h]
  rfl
theorem readC3D_of {w : Nat} (h : opOf w = 0x3D) : readSlot .c w = readC3D w := by
  show readC w = _
  unfold readC
  rw [h]
  rfl
theorem readC3E_of {w : Nat} (h : opOf w = 0x3E) : readSlot .c w = readC3E w := by
  show readC w = _
  unfold readC
  rw [h]
  rfl
theorem readX00_of {w : Nat} (h : opOf w = 0x00) : readSlot .x w = readX00 w := by
  show readX w = _
  unfold readX
  rw [h]
  rfl
theorem readX01_of {w : Nat} (h : opOf w = 0x01) : readSlot .x w = readX01 w := by
  show readX w = _
  unfold readX
  rw [h]
  rfl
theorem readX02_of {w : Nat} (h : opOf w = 0x02) : readSlot .x w = readX02 w := by
  show readX w = _
  unfold readX
  rw [h]
  rfl
theorem readX03_of {w : Nat} (h : opOf w = 0x03) : readSlot .x w = readX03 w := by
  show readX w = _
  unfold readX
  rw [h]
  rfl
theorem readX04_of {w : Nat} (h : opOf w = 0x04) : readSlot .x w = readX04 w := by
  show readX w = _
  unfold readX
  rw [h]
  rfl
theorem readX05_of {w : Nat} (h : opOf w = 0x05) : readSlot .x w = readX05 w := by
  show readX w = _
  unfold readX
  rw [h]
  rfl
theorem readX06_of {w : Nat} (h : opOf w = 0x06) : readSlot .x w = readX06 w := by
  show readX w = _
  unfold readX
  rw [h]
  rfl
theorem readX07_of {w : Nat} (h : opOf w = 0x07) : readSlot .x w = readX07 w := by
  show readX w = _
  unfold readX
  rw [h]
  rfl
theorem readX08_of {w : Nat} (h : opOf w = 0x08) : readSlot .x w = readX08 w := by
  show readX w = _
  unfold readX
  rw [h]
  rfl
theorem readX09_of {w : Nat} (h : opOf w = 0x09) : readSlot .x w = readX09 w := by
  show readX w = _
  unfold readX
  rw [h]
  rfl
theorem readX0A_of {w : Nat} (h : opOf w = 0x0A) : readSlot .x w = readX0A w := by
  show readX w = _
  unfold readX
  rw [h]
  rfl
theorem readX0B_of {w : Nat} (h : opOf w = 0x0B) : readSlot .x w = readX0B w := by
  show readX w = _
  unfold readX
  rw [h]
  rfl
theorem readX0C_of {w : Nat} (h : opOf w = 0x0C) : readSlot .x w = readX0C w := by
  show readX w = _
  unfold readX
  rw [h]
  rfl
theorem readX0D_of {w : Nat} (h : opOf w = 0x0D) : readSlot .x w = readX0D w := by
  show readX w = _
  unfold readX
  rw [h]
  rfl
theorem readX0E_of {w : Nat} (h : opOf w = 0x0E) : readSlot .x w = readX0E w := by
  show readX w = _
  unfold readX
  rw [h]
  rfl
theorem readX10_of {w : Nat} (h : opOf w = 0x10) : readSlot .x w = readX10 w := by
  show readX w = _
  unfold readX
  rw [h]
  rfl
theorem readX11_of {w : Nat} (h : opOf w = 0x11) : readSlot .x w = readX11 w := by
  show readX w = _
  unfold readX
  rw [h]
  rfl
theorem readX12_of {w : Nat} (h : opOf w = 0x12) : readSlot .x w = readX12 w := by
  show readX w = _
  unfold readX
  rw [h]
  rfl
theorem readX13_of {w : Nat} (h : opOf w = 0x13) : readSlot .x w = readX13 w := by
  show readX w = _
  unfold readX
  rw [h]
  rfl
theorem readX14_of {w : Nat} (h : opOf w = 0x14) : readSlot .x w = readX14 w := by
  show readX w = _
  unfold readX
  rw [h]
  rfl
theorem readX15_of {w : Nat} (h : opOf w = 0x15) : readSlot .x w = readX15 w := by
  show readX w = _
  unfold readX
  rw [h]
  rfl
theorem readX16_of {w : Nat} (h : opOf w = 0x16) : readSlot .x w = readX16 w := by
  show readX w = _
  unfold readX
  rw [h]
  rfl
theorem readX17_of {w : Nat} (h : opOf w = 0x17) : readSlot .x w = readX17 w := by
  show readX w = _
  unfold readX
  rw [h]
  rfl
theorem readX18_of {w : Nat} (h : opOf w = 0x18) : readSlot .x w = readX18 w := by
  show readX w = _
  unfold readX
  rw [h]
  rfl
theorem readX19_of {w : Nat} (h : opOf w = 0x19) : readSlot .x w = readX19 w := by
  show readX w = _
  unfold readX
  rw [h]
  rfl
theorem readX1A_of {w : Nat} (h : opOf w = 0x1A) : readSlot .x w = readX1A w := by
  show readX w = _
  unfold readX
  rw [h]
  rfl
theorem readX1B_of {w : Nat} (h : opOf w = 0x1B) : readSlot .x w = readX1B w := by
  show readX w = _
  unfold readX
  rw [h]
  rfl
theorem readX1C_of {w : Nat} (h : opOf w = 0x1C) : readSlot .x w = readX1C w := by
  show readX w = _
  unfold readX
  rw [h]
  rfl
theorem readX1D_of {w : Nat} (h : opOf w = 0x1D) : readSlot .x w = readX1D w := by
  show readX w = _
  unfold readX
  rw [h]
  rfl
theorem readX1E_of {w : Nat} (h : opOf w = 0x1E) : readSlot .x w = readX1E w := by
  show readX w = _
  unfold readX
  rw [h]
  rfl
theorem readX1F_of {w : Nat} (h : opOf w = 0x1F) : readSlot .x w = readX1F w := by
  show readX w = _
  unfold readX
  rw [h]
  rfl
theorem readX20_of {w : Nat} (h : opOf w = 0x20) : readSlot .x w = readX20 w := by
  show readX w = _
  unfold readX
  rw [h]
  rfl
theorem readX22_of {w : Nat} (h : opOf w = 0x22) : readSlot .x w = readX22 w := by
  show readX w = _
  unfold readX
  rw [h]
  rfl
theorem readX23_of {w : Nat} (h : opOf w = 0x23) : readSlot .x w = readX23 w := by
  show readX w = _
  unfold readX
  rw [h]
  rfl
theorem readX24_of {w : Nat} (h : opOf w = 0x24) : readSlot .x w = readX24 w := by
  show readX w = _
  unfold readX
  rw [h]
  rfl
theorem readX28_of {w : Nat} (h : opOf w = 0x28) : readSlot .x w = readX28 w := by
  show readX w = _
  unfold readX
  rw [h]
  rfl
theorem readX29_of {w : Nat} (h : opOf w = 0x29) : readSlot .x w = readX29 w := by
  show readX w = _
  unfold readX
  rw [h]
  rfl
theorem readX2A_of {w : Nat} (h : opOf w = 0x2A) : readSlot .x w = readX2A w := by
  show readX w = _
  unfold readX
  rw [h]
  rfl
theorem readX2B_of {w : Nat} (h : opOf w = 0x2B) : readSlot .x w = readX2B w := by
  show readX w = _
  unfold readX
  rw [h]
  rfl
theorem readX2C_of {w : Nat} (h : opOf w = 0x2C) : readSlot .x w = readX2C w := by
  show readX w = _
  unfold readX
  rw [h]
  rfl
theorem readX2D_of {w : Nat} (h : opOf w = 0x2D) : readSlot .x w = readX2D w := by
  show readX w = _
  unfold readX
  rw [h]
  rfl
theorem readX30_of {w : Nat} (h : opOf w = 0x30) : readSlot .x w = readX30 w := by
  show readX w = _
  unfold readX
  rw [h]
  rfl
theorem readX38_of {w : Nat} (h : opOf w = 0x38) : readSlot .x w = readX38 w := by
  show readX w = _
  unfold readX
  rw [h]
  rfl
theorem readX39_of {w : Nat} (h : opOf w = 0x39) : readSlot .x w = readX39 w := by
  show readX w = _
  unfold readX
  rw [h]
  rfl
theorem readX3A_of {w : Nat} (h : opOf w = 0x3A) : readSlot .x w = readX3A w := by
  show readX w = _
  unfold readX
  rw [h]
  rfl
theorem readX3C_of {w : Nat} (h : opOf w = 0x3C) : readSlot .x w = readX3C w := by
  show readX w = _
  unfold readX
  rw [h]
  rfl
theorem readX3D_of {w : Nat} (h : opOf w = 0x3D) : readSlot .x w = readX3D w := by
  show readX w = _
  unfold readX
  rw [h]
  rfl

/-! ### The shapes of words -/

theorem shape1 (op k : Nat) (g : Guard) (v1 : Fin 32) (v2 : Fin 32) (v3 : Fin 32) {w : Nat} (hop : op < 64) (hk : k < 32)
    (hw : w = head op g + place v1.val 15 + place v2.val 10 + place v3.val 5 + k) :
    w < 2 ^ 30 ∧
    opOf w = op ∧
    guardOf w = g ∧
    field w 15 32 = v1 ∧
    field w 10 32 = v2 ∧
    field w 5 32 = v3 ∧
    w % 32 = k := by
  have hl : Mixed [(5, k), (5, v3.val), (5, v2.val), (5, v1.val), (3, g.gp.val), (1, g.gn.toNat), (6, op)] :=
    ⟨hk, v3.isLt, v2.isLt, v1.isLt, g.gp.isLt, g.gn.toNat_lt, hop, trivial⟩
  have he : w = mix [(5, k), (5, v3.val), (5, v2.val), (5, v1.val), (3, g.gp.val), (1, g.gn.toNat), (6, op)] := by
    clear hl
    simp only [head, place, placeB, Nat.reducePow] at hw
    simp only [mix, Nat.reducePow, Nat.mul_add, ← Nat.mul_assoc, Nat.reduceMul, Nat.mul_zero, Nat.add_zero]
    rw [hw]
    omega
  exact ⟨mix_lt he hl,
    (mix_at he hl 6 rfl rfl : _ / 2 ^ 24 % 2 ^ 6 = op),
    guard_eq (mix_at he hl 5 rfl rfl) (mix_at he hl 4 rfl rfl),
    field_eq (mix_at he hl 3 rfl rfl),
    field_eq (mix_at he hl 2 rfl rfl),
    field_eq (mix_at he hl 1 rfl rfl),
    low_mod (mix_at he hl 0 rfl rfl)⟩

theorem shape2 (op k : Nat) (g : Guard) (v1 : Fin 32) (v2 : Fin 32) (v3 : Fin 256) {w : Nat} (hop : op < 64) (hk : k < 4)
    (hw : w = head op g + place v1.val 15 + place v2.val 10 + place v3.val 2 + k) :
    w < 2 ^ 30 ∧
    opOf w = op ∧
    guardOf w = g ∧
    field w 15 32 = v1 ∧
    field w 10 32 = v2 ∧
    field w 2 256 = v3 ∧
    w % 4 = k := by
  have hl : Mixed [(2, k), (8, v3.val), (5, v2.val), (5, v1.val), (3, g.gp.val), (1, g.gn.toNat), (6, op)] :=
    ⟨hk, v3.isLt, v2.isLt, v1.isLt, g.gp.isLt, g.gn.toNat_lt, hop, trivial⟩
  have he : w = mix [(2, k), (8, v3.val), (5, v2.val), (5, v1.val), (3, g.gp.val), (1, g.gn.toNat), (6, op)] := by
    clear hl
    simp only [head, place, placeB, Nat.reducePow] at hw
    simp only [mix, Nat.reducePow, Nat.mul_add, ← Nat.mul_assoc, Nat.reduceMul, Nat.mul_zero, Nat.add_zero]
    rw [hw]
    omega
  exact ⟨mix_lt he hl,
    (mix_at he hl 6 rfl rfl : _ / 2 ^ 24 % 2 ^ 6 = op),
    guard_eq (mix_at he hl 5 rfl rfl) (mix_at he hl 4 rfl rfl),
    field_eq (mix_at he hl 3 rfl rfl),
    field_eq (mix_at he hl 2 rfl rfl),
    field_eq (mix_at he hl 1 rfl rfl),
    low_mod (mix_at he hl 0 rfl rfl)⟩

theorem shape3 (op k : Nat) (g : Guard) (v1 : Fin 8) (v2 : Fin 32) (v3 : Fin 32) {w : Nat} (hop : op < 64) (hk : k < 32)
    (hw : w = head op g + place v1.val 15 + place v2.val 10 + place v3.val 5 + k) :
    w < 2 ^ 30 ∧
    opOf w = op ∧
    guardOf w = g ∧
    field w 15 8 = v1 ∧
    field w 10 32 = v2 ∧
    field w 5 32 = v3 ∧
    w % 32 = k ∧
    (zeros w 18 2) = true := by
  have hl : Mixed [(5, k), (5, v3.val), (5, v2.val), (3, v1.val), (2, 0), (3, g.gp.val), (1, g.gn.toNat), (6, op)] :=
    ⟨hk, v3.isLt, v2.isLt, v1.isLt, by decide, g.gp.isLt, g.gn.toNat_lt, hop, trivial⟩
  have he : w = mix [(5, k), (5, v3.val), (5, v2.val), (3, v1.val), (2, 0), (3, g.gp.val), (1, g.gn.toNat), (6, op)] := by
    clear hl
    simp only [head, place, placeB, Nat.reducePow] at hw
    simp only [mix, Nat.reducePow, Nat.mul_add, ← Nat.mul_assoc, Nat.reduceMul, Nat.mul_zero, Nat.add_zero]
    rw [hw]
    omega
  exact ⟨mix_lt he hl,
    (mix_at he hl 7 rfl rfl : _ / 2 ^ 24 % 2 ^ 6 = op),
    guard_eq (mix_at he hl 6 rfl rfl) (mix_at he hl 5 rfl rfl),
    field_eq (mix_at he hl 3 rfl rfl),
    field_eq (mix_at he hl 2 rfl rfl),
    field_eq (mix_at he hl 1 rfl rfl),
    low_mod (mix_at he hl 0 rfl rfl),
    (zeros_eq (mix_at he hl 4 rfl rfl))⟩

theorem shape4 (op k : Nat) (g : Guard) (v1 : Fin 8) (v2 : Fin 32) (v3 : Fin 256) {w : Nat} (hop : op < 64) (hk : k < 4)
    (hw : w = head op g + place v1.val 15 + place v2.val 10 + place v3.val 2 + k) :
    w < 2 ^ 30 ∧
    opOf w = op ∧
    guardOf w = g ∧
    field w 15 8 = v1 ∧
    field w 10 32 = v2 ∧
    field w 2 256 = v3 ∧
    w % 4 = k ∧
    (zeros w 18 2) = true := by
  have hl : Mixed [(2, k), (8, v3.val), (5, v2.val), (3, v1.val), (2, 0), (3, g.gp.val), (1, g.gn.toNat), (6, op)] :=
    ⟨hk, v3.isLt, v2.isLt, v1.isLt, by decide, g.gp.isLt, g.gn.toNat_lt, hop, trivial⟩
  have he : w = mix [(2, k), (8, v3.val), (5, v2.val), (3, v1.val), (2, 0), (3, g.gp.val), (1, g.gn.toNat), (6, op)] := by
    clear hl
    simp only [head, place, placeB, Nat.reducePow] at hw
    simp only [mix, Nat.reducePow, Nat.mul_add, ← Nat.mul_assoc, Nat.reduceMul, Nat.mul_zero, Nat.add_zero]
    rw [hw]
    omega
  exact ⟨mix_lt he hl,
    (mix_at he hl 7 rfl rfl : _ / 2 ^ 24 % 2 ^ 6 = op),
    guard_eq (mix_at he hl 6 rfl rfl) (mix_at he hl 5 rfl rfl),
    field_eq (mix_at he hl 3 rfl rfl),
    field_eq (mix_at he hl 2 rfl rfl),
    field_eq (mix_at he hl 1 rfl rfl),
    low_mod (mix_at he hl 0 rfl rfl),
    (zeros_eq (mix_at he hl 4 rfl rfl))⟩

theorem shape5 (op k : Nat) (g : Guard) (v1 : Fin 8) (v2 : Fin 8) (v3 : Fin 8) {w : Nat} (hop : op < 64) (hk : k < 32)
    (hw : w = head op g + place v1.val 15 + place v2.val 10 + place v3.val 5 + k) :
    w < 2 ^ 30 ∧
    opOf w = op ∧
    guardOf w = g ∧
    field w 15 8 = v1 ∧
    field w 10 8 = v2 ∧
    field w 5 8 = v3 ∧
    w % 32 = k ∧
    (zeros w 8 2 && zeros w 13 2 && zeros w 18 2) = true := by
  have hl : Mixed [(5, k), (3, v3.val), (2, 0), (3, v2.val), (2, 0), (3, v1.val), (2, 0), (3, g.gp.val), (1, g.gn.toNat), (6, op)] :=
    ⟨hk, v3.isLt, by decide, v2.isLt, by decide, v1.isLt, by decide, g.gp.isLt, g.gn.toNat_lt, hop, trivial⟩
  have he : w = mix [(5, k), (3, v3.val), (2, 0), (3, v2.val), (2, 0), (3, v1.val), (2, 0), (3, g.gp.val), (1, g.gn.toNat), (6, op)] := by
    clear hl
    simp only [head, place, placeB, Nat.reducePow] at hw
    simp only [mix, Nat.reducePow, Nat.mul_add, ← Nat.mul_assoc, Nat.reduceMul, Nat.mul_zero, Nat.add_zero]
    rw [hw]
    omega
  exact ⟨mix_lt he hl,
    (mix_at he hl 9 rfl rfl : _ / 2 ^ 24 % 2 ^ 6 = op),
    guard_eq (mix_at he hl 8 rfl rfl) (mix_at he hl 7 rfl rfl),
    field_eq (mix_at he hl 5 rfl rfl),
    field_eq (mix_at he hl 3 rfl rfl),
    field_eq (mix_at he hl 1 rfl rfl),
    low_mod (mix_at he hl 0 rfl rfl),
    (and_eq (and_eq (zeros_eq (mix_at he hl 2 rfl rfl)) (zeros_eq (mix_at he hl 4 rfl rfl))) (zeros_eq (mix_at he hl 6 rfl rfl)))⟩

theorem shape6 (op k : Nat) (g : Guard) (v1 : Fin 32) (v2 : Fin 8) {w : Nat} (hop : op < 64) (hk : k < 32)
    (hw : w = head op g + place v1.val 15 + place v2.val 10 + k) :
    w < 2 ^ 30 ∧
    opOf w = op ∧
    guardOf w = g ∧
    field w 15 32 = v1 ∧
    field w 10 8 = v2 ∧
    w % 32 = k ∧
    (zeros w 5 5 && zeros w 13 2) = true := by
  have hl : Mixed [(5, k), (5, 0), (3, v2.val), (2, 0), (5, v1.val), (3, g.gp.val), (1, g.gn.toNat), (6, op)] :=
    ⟨hk, by decide, v2.isLt, by decide, v1.isLt, g.gp.isLt, g.gn.toNat_lt, hop, trivial⟩
  have he : w = mix [(5, k), (5, 0), (3, v2.val), (2, 0), (5, v1.val), (3, g.gp.val), (1, g.gn.toNat), (6, op)] := by
    clear hl
    simp only [head, place, placeB, Nat.reducePow] at hw
    simp only [mix, Nat.reducePow, Nat.mul_add, ← Nat.mul_assoc, Nat.reduceMul, Nat.mul_zero, Nat.add_zero]
    rw [hw]
    omega
  exact ⟨mix_lt he hl,
    (mix_at he hl 7 rfl rfl : _ / 2 ^ 24 % 2 ^ 6 = op),
    guard_eq (mix_at he hl 6 rfl rfl) (mix_at he hl 5 rfl rfl),
    field_eq (mix_at he hl 4 rfl rfl),
    field_eq (mix_at he hl 2 rfl rfl),
    low_mod (mix_at he hl 0 rfl rfl),
    (and_eq (zeros_eq (mix_at he hl 1 rfl rfl)) (zeros_eq (mix_at he hl 3 rfl rfl)))⟩

theorem shape7 (op k : Nat) (g : Guard) (v1 : Fin 32) (v2 : Fin 32) {w : Nat} (hop : op < 64) (hk : k < 32)
    (hw : w = head op g + place v1.val 15 + place v2.val 10 + k) :
    w < 2 ^ 30 ∧
    opOf w = op ∧
    guardOf w = g ∧
    field w 15 32 = v1 ∧
    field w 10 32 = v2 ∧
    w % 32 = k ∧
    (zeros w 5 5) = true := by
  have hl : Mixed [(5, k), (5, 0), (5, v2.val), (5, v1.val), (3, g.gp.val), (1, g.gn.toNat), (6, op)] :=
    ⟨hk, by decide, v2.isLt, v1.isLt, g.gp.isLt, g.gn.toNat_lt, hop, trivial⟩
  have he : w = mix [(5, k), (5, 0), (5, v2.val), (5, v1.val), (3, g.gp.val), (1, g.gn.toNat), (6, op)] := by
    clear hl
    simp only [head, place, placeB, Nat.reducePow] at hw
    simp only [mix, Nat.reducePow, Nat.mul_add, ← Nat.mul_assoc, Nat.reduceMul, Nat.mul_zero, Nat.add_zero]
    rw [hw]
    omega
  exact ⟨mix_lt he hl,
    (mix_at he hl 6 rfl rfl : _ / 2 ^ 24 % 2 ^ 6 = op),
    guard_eq (mix_at he hl 5 rfl rfl) (mix_at he hl 4 rfl rfl),
    field_eq (mix_at he hl 3 rfl rfl),
    field_eq (mix_at he hl 2 rfl rfl),
    low_mod (mix_at he hl 0 rfl rfl),
    (zeros_eq (mix_at he hl 1 rfl rfl))⟩

theorem shape8 (op k : Nat) (g : Guard) (v1 : Fin 32) (v2 : Fin 256) {w : Nat} (hop : op < 64) (hk : k < 4)
    (hw : w = head op g + place v1.val 15 + place v2.val 2 + k) :
    w < 2 ^ 30 ∧
    opOf w = op ∧
    guardOf w = g ∧
    field w 15 32 = v1 ∧
    field w 2 256 = v2 ∧
    w % 4 = k ∧
    (zeros w 10 5) = true := by
  have hl : Mixed [(2, k), (8, v2.val), (5, 0), (5, v1.val), (3, g.gp.val), (1, g.gn.toNat), (6, op)] :=
    ⟨hk, v2.isLt, by decide, v1.isLt, g.gp.isLt, g.gn.toNat_lt, hop, trivial⟩
  have he : w = mix [(2, k), (8, v2.val), (5, 0), (5, v1.val), (3, g.gp.val), (1, g.gn.toNat), (6, op)] := by
    clear hl
    simp only [head, place, placeB, Nat.reducePow] at hw
    simp only [mix, Nat.reducePow, Nat.mul_add, ← Nat.mul_assoc, Nat.reduceMul, Nat.mul_zero, Nat.add_zero]
    rw [hw]
    omega
  exact ⟨mix_lt he hl,
    (mix_at he hl 6 rfl rfl : _ / 2 ^ 24 % 2 ^ 6 = op),
    guard_eq (mix_at he hl 5 rfl rfl) (mix_at he hl 4 rfl rfl),
    field_eq (mix_at he hl 3 rfl rfl),
    field_eq (mix_at he hl 1 rfl rfl),
    low_mod (mix_at he hl 0 rfl rfl),
    (zeros_eq (mix_at he hl 2 rfl rfl))⟩

theorem shape9 (op : Nat) (g : Guard) (v1 : BitVec 20) {w : Nat} (hop : op < 64)
    (hw : w = head op g + place v1.toNat 0) :
    w < 2 ^ 30 ∧
    opOf w = op ∧
    guardOf w = g ∧
    BitVec.ofNat 20 w = v1 := by
  have hl : Mixed [(20, v1.toNat), (3, g.gp.val), (1, g.gn.toNat), (6, op)] :=
    ⟨v1.isLt, g.gp.isLt, g.gn.toNat_lt, hop, trivial⟩
  have he : w = mix [(20, v1.toNat), (3, g.gp.val), (1, g.gn.toNat), (6, op)] := by
    clear hl
    simp only [head, place, placeB, Nat.reducePow] at hw
    simp only [mix, Nat.reducePow, Nat.mul_add, ← Nat.mul_assoc, Nat.reduceMul, Nat.mul_zero, Nat.add_zero]
    rw [hw]
    omega
  exact ⟨mix_lt he hl,
    (mix_at he hl 3 rfl rfl : _ / 2 ^ 24 % 2 ^ 6 = op),
    guard_eq (mix_at he hl 2 rfl rfl) (mix_at he hl 1 rfl rfl),
    low_eq (mix_at he hl 0 rfl rfl)⟩

theorem shape10 (op k : Nat) (g : Guard) (v1 : Fin 32) {w : Nat} (hop : op < 64) (hk : k < 32)
    (hw : w = head op g + place v1.val 10 + k) :
    w < 2 ^ 30 ∧
    opOf w = op ∧
    guardOf w = g ∧
    field w 10 32 = v1 ∧
    w % 32 = k ∧
    (zeros w 5 5 && zeros w 15 5) = true := by
  have hl : Mixed [(5, k), (5, 0), (5, v1.val), (5, 0), (3, g.gp.val), (1, g.gn.toNat), (6, op)] :=
    ⟨hk, by decide, v1.isLt, by decide, g.gp.isLt, g.gn.toNat_lt, hop, trivial⟩
  have he : w = mix [(5, k), (5, 0), (5, v1.val), (5, 0), (3, g.gp.val), (1, g.gn.toNat), (6, op)] := by
    clear hl
    simp only [head, place, placeB, Nat.reducePow] at hw
    simp only [mix, Nat.reducePow, Nat.mul_add, ← Nat.mul_assoc, Nat.reduceMul, Nat.mul_zero, Nat.add_zero]
    rw [hw]
    omega
  exact ⟨mix_lt he hl,
    (mix_at he hl 6 rfl rfl : _ / 2 ^ 24 % 2 ^ 6 = op),
    guard_eq (mix_at he hl 5 rfl rfl) (mix_at he hl 4 rfl rfl),
    field_eq (mix_at he hl 2 rfl rfl),
    low_mod (mix_at he hl 0 rfl rfl),
    (and_eq (zeros_eq (mix_at he hl 1 rfl rfl)) (zeros_eq (mix_at he hl 3 rfl rfl)))⟩

theorem shape11 (op k : Nat) (g : Guard) {w : Nat} (hop : op < 64) (hk : k < 32)
    (hw : w = head op g + k) :
    w < 2 ^ 30 ∧
    opOf w = op ∧
    guardOf w = g ∧
    w % 32 = k ∧
    (zeros w 5 15) = true := by
  have hl : Mixed [(5, k), (15, 0), (3, g.gp.val), (1, g.gn.toNat), (6, op)] :=
    ⟨hk, by decide, g.gp.isLt, g.gn.toNat_lt, hop, trivial⟩
  have he : w = mix [(5, k), (15, 0), (3, g.gp.val), (1, g.gn.toNat), (6, op)] := by
    clear hl
    simp only [head, place, placeB, Nat.reducePow] at hw
    simp only [mix, Nat.reducePow, Nat.mul_add, ← Nat.mul_assoc, Nat.reduceMul, Nat.mul_zero, Nat.add_zero]
    rw [hw]
    omega
  exact ⟨mix_lt he hl,
    (mix_at he hl 4 rfl rfl : _ / 2 ^ 24 % 2 ^ 6 = op),
    guard_eq (mix_at he hl 3 rfl rfl) (mix_at he hl 2 rfl rfl),
    low_mod (mix_at he hl 0 rfl rfl),
    (zeros_eq (mix_at he hl 1 rfl rfl))⟩

theorem shape12 (op : Nat) (g : Guard) (v1 : Fin 2) (v2 : Fin 32) (v3 : Fin 16384) {w : Nat} (hop : op < 64)
    (hw : w = head op g + place v1.val 19 + place v2.val 14 + place v3.val 0) :
    w < 2 ^ 30 ∧
    opOf w = op ∧
    guardOf w = g ∧
    field w 19 2 = v1 ∧
    field w 14 32 = v2 ∧
    field w 0 16384 = v3 := by
  have hl : Mixed [(14, v3.val), (5, v2.val), (1, v1.val), (3, g.gp.val), (1, g.gn.toNat), (6, op)] :=
    ⟨v3.isLt, v2.isLt, v1.isLt, g.gp.isLt, g.gn.toNat_lt, hop, trivial⟩
  have he : w = mix [(14, v3.val), (5, v2.val), (1, v1.val), (3, g.gp.val), (1, g.gn.toNat), (6, op)] := by
    clear hl
    simp only [head, place, placeB, Nat.reducePow] at hw
    simp only [mix, Nat.reducePow, Nat.mul_add, ← Nat.mul_assoc, Nat.reduceMul, Nat.mul_zero, Nat.add_zero]
    rw [hw]
    omega
  exact ⟨mix_lt he hl,
    (mix_at he hl 5 rfl rfl : _ / 2 ^ 24 % 2 ^ 6 = op),
    guard_eq (mix_at he hl 4 rfl rfl) (mix_at he hl 3 rfl rfl),
    field_eq (mix_at he hl 2 rfl rfl),
    field_eq (mix_at he hl 1 rfl rfl),
    field_eq (mix_at he hl 0 rfl rfl)⟩

theorem shape13 (op k : Nat) (g : Guard) (v1 : Fin 2) {w : Nat} (hop : op < 64) (hk : k < 32)
    (hw : w = head op g + place v1.val 10 + k) :
    w < 2 ^ 30 ∧
    opOf w = op ∧
    guardOf w = g ∧
    field w 10 2 = v1 ∧
    w % 32 = k ∧
    (zeros w 5 5 && zeros w 11 9) = true := by
  have hl : Mixed [(5, k), (5, 0), (1, v1.val), (9, 0), (3, g.gp.val), (1, g.gn.toNat), (6, op)] :=
    ⟨hk, by decide, v1.isLt, by decide, g.gp.isLt, g.gn.toNat_lt, hop, trivial⟩
  have he : w = mix [(5, k), (5, 0), (1, v1.val), (9, 0), (3, g.gp.val), (1, g.gn.toNat), (6, op)] := by
    clear hl
    simp only [head, place, placeB, Nat.reducePow] at hw
    simp only [mix, Nat.reducePow, Nat.mul_add, ← Nat.mul_assoc, Nat.reduceMul, Nat.mul_zero, Nat.add_zero]
    rw [hw]
    omega
  exact ⟨mix_lt he hl,
    (mix_at he hl 6 rfl rfl : _ / 2 ^ 24 % 2 ^ 6 = op),
    guard_eq (mix_at he hl 5 rfl rfl) (mix_at he hl 4 rfl rfl),
    field_eq (mix_at he hl 2 rfl rfl),
    low_mod (mix_at he hl 0 rfl rfl),
    (and_eq (zeros_eq (mix_at he hl 1 rfl rfl)) (zeros_eq (mix_at he hl 3 rfl rfl)))⟩

theorem shape14 (op k : Nat) (g : Guard) (v1 : Fin 32) (v2 : Fin 32) (v3 : Fin 32) (v4 : Fin 4) {w : Nat} (hop : op < 64) (hk : k < 2)
    (hw : w = head op g + place v1.val 15 + place v2.val 10 + place v3.val 5 + place v4.val 3 + k * 2 ^ 2) :
    w < 2 ^ 30 ∧
    opOf w = op ∧
    guardOf w = g ∧
    field w 15 32 = v1 ∧
    field w 10 32 = v2 ∧
    field w 5 32 = v3 ∧
    field w 3 4 = v4 ∧
    w / 2 ^ 2 % 2 = k ∧
    (zeros w 0 2) = true := by
  have hl : Mixed [(2, 0), (1, k), (2, v4.val), (5, v3.val), (5, v2.val), (5, v1.val), (3, g.gp.val), (1, g.gn.toNat), (6, op)] :=
    ⟨by decide, hk, v4.isLt, v3.isLt, v2.isLt, v1.isLt, g.gp.isLt, g.gn.toNat_lt, hop, trivial⟩
  have he : w = mix [(2, 0), (1, k), (2, v4.val), (5, v3.val), (5, v2.val), (5, v1.val), (3, g.gp.val), (1, g.gn.toNat), (6, op)] := by
    clear hl
    simp only [head, place, placeB, Nat.reducePow] at hw
    simp only [mix, Nat.reducePow, Nat.mul_add, ← Nat.mul_assoc, Nat.reduceMul, Nat.mul_zero, Nat.add_zero]
    rw [hw]
    omega
  exact ⟨mix_lt he hl,
    (mix_at he hl 8 rfl rfl : _ / 2 ^ 24 % 2 ^ 6 = op),
    guard_eq (mix_at he hl 7 rfl rfl) (mix_at he hl 6 rfl rfl),
    field_eq (mix_at he hl 5 rfl rfl),
    field_eq (mix_at he hl 4 rfl rfl),
    field_eq (mix_at he hl 3 rfl rfl),
    field_eq (mix_at he hl 2 rfl rfl),
    mix_at he hl 1 rfl rfl,
    (zeros_eq (mix_at he hl 0 rfl rfl))⟩

theorem shape15 (op : Nat) (g : Guard) (v1 : Fin 32) (v2 : Fin 32) (v3 : Fin 256) (v4 : Fin 4) {w : Nat} (hop : op < 64)
    (hw : w = head op g + place v1.val 15 + place v2.val 10 + place v3.val 2 + place v4.val 0) :
    w < 2 ^ 30 ∧
    opOf w = op ∧
    guardOf w = g ∧
    field w 15 32 = v1 ∧
    field w 10 32 = v2 ∧
    field w 2 256 = v3 ∧
    field w 0 4 = v4 := by
  have hl : Mixed [(2, v4.val), (8, v3.val), (5, v2.val), (5, v1.val), (3, g.gp.val), (1, g.gn.toNat), (6, op)] :=
    ⟨v4.isLt, v3.isLt, v2.isLt, v1.isLt, g.gp.isLt, g.gn.toNat_lt, hop, trivial⟩
  have he : w = mix [(2, v4.val), (8, v3.val), (5, v2.val), (5, v1.val), (3, g.gp.val), (1, g.gn.toNat), (6, op)] := by
    clear hl
    simp only [head, place, placeB, Nat.reducePow] at hw
    simp only [mix, Nat.reducePow, Nat.mul_add, ← Nat.mul_assoc, Nat.reduceMul, Nat.mul_zero, Nat.add_zero]
    rw [hw]
    omega
  exact ⟨mix_lt he hl,
    (mix_at he hl 6 rfl rfl : _ / 2 ^ 24 % 2 ^ 6 = op),
    guard_eq (mix_at he hl 5 rfl rfl) (mix_at he hl 4 rfl rfl),
    field_eq (mix_at he hl 3 rfl rfl),
    field_eq (mix_at he hl 2 rfl rfl),
    field_eq (mix_at he hl 1 rfl rfl),
    field_eq (mix_at he hl 0 rfl rfl)⟩

theorem shape16 (op : Nat) (g : Guard) (v1 : Fin 32) (v2 : Fin 32) (v3 : Fin 32) (v4 : Fin 4) {w : Nat} (hop : op < 64)
    (hw : w = head op g + place v1.val 15 + place v2.val 10 + place v3.val 5 + place v4.val 3) :
    w < 2 ^ 30 ∧
    opOf w = op ∧
    guardOf w = g ∧
    field w 15 32 = v1 ∧
    field w 10 32 = v2 ∧
    field w 5 32 = v3 ∧
    field w 3 4 = v4 ∧
    (zeros w 0 3) = true := by
  have hl : Mixed [(3, 0), (2, v4.val), (5, v3.val), (5, v2.val), (5, v1.val), (3, g.gp.val), (1, g.gn.toNat), (6, op)] :=
    ⟨by decide, v4.isLt, v3.isLt, v2.isLt, v1.isLt, g.gp.isLt, g.gn.toNat_lt, hop, trivial⟩
  have he : w = mix [(3, 0), (2, v4.val), (5, v3.val), (5, v2.val), (5, v1.val), (3, g.gp.val), (1, g.gn.toNat), (6, op)] := by
    clear hl
    simp only [head, place, placeB, Nat.reducePow] at hw
    simp only [mix, Nat.reducePow, Nat.mul_add, ← Nat.mul_assoc, Nat.reduceMul, Nat.mul_zero, Nat.add_zero]
    rw [hw]
    omega
  exact ⟨mix_lt he hl,
    (mix_at he hl 7 rfl rfl : _ / 2 ^ 24 % 2 ^ 6 = op),
    guard_eq (mix_at he hl 6 rfl rfl) (mix_at he hl 5 rfl rfl),
    field_eq (mix_at he hl 4 rfl rfl),
    field_eq (mix_at he hl 3 rfl rfl),
    field_eq (mix_at he hl 2 rfl rfl),
    field_eq (mix_at he hl 1 rfl rfl),
    (zeros_eq (mix_at he hl 0 rfl rfl))⟩

theorem shape17 (op : Nat) (g : Guard) (v1 : Fin 32) (v2 : Fin 32) (v3 : Fin 32) {w : Nat} (hop : op < 64)
    (hw : w = head op g + place v1.val 15 + place v2.val 10 + place v3.val 5) :
    w < 2 ^ 30 ∧
    opOf w = op ∧
    guardOf w = g ∧
    field w 15 32 = v1 ∧
    field w 10 32 = v2 ∧
    field w 5 32 = v3 ∧
    (zeros w 0 5) = true := by
  have hl : Mixed [(5, 0), (5, v3.val), (5, v2.val), (5, v1.val), (3, g.gp.val), (1, g.gn.toNat), (6, op)] :=
    ⟨by decide, v3.isLt, v2.isLt, v1.isLt, g.gp.isLt, g.gn.toNat_lt, hop, trivial⟩
  have he : w = mix [(5, 0), (5, v3.val), (5, v2.val), (5, v1.val), (3, g.gp.val), (1, g.gn.toNat), (6, op)] := by
    clear hl
    simp only [head, place, placeB, Nat.reducePow] at hw
    simp only [mix, Nat.reducePow, Nat.mul_add, ← Nat.mul_assoc, Nat.reduceMul, Nat.mul_zero, Nat.add_zero]
    rw [hw]
    omega
  exact ⟨mix_lt he hl,
    (mix_at he hl 6 rfl rfl : _ / 2 ^ 24 % 2 ^ 6 = op),
    guard_eq (mix_at he hl 5 rfl rfl) (mix_at he hl 4 rfl rfl),
    field_eq (mix_at he hl 3 rfl rfl),
    field_eq (mix_at he hl 2 rfl rfl),
    field_eq (mix_at he hl 1 rfl rfl),
    (zeros_eq (mix_at he hl 0 rfl rfl))⟩

theorem shape18 (op : Nat) (g : Guard) (v1 : Fin 32) (v2 : Fin 32) (v3 : Fin 8) (v4 : Fin 4) (v5 : Bool) {w : Nat} (hop : op < 64)
    (hw : w = head op g + place v1.val 15 + place v2.val 10 + place v3.val 7 + place v4.val 3 + placeB v5 0) :
    w < 2 ^ 30 ∧
    opOf w = op ∧
    guardOf w = g ∧
    field w 15 32 = v1 ∧
    field w 10 32 = v2 ∧
    field w 7 8 = v3 ∧
    field w 3 4 = v4 ∧
    flag w 0 = v5 ∧
    (w / 2 % 2 == 0) = true ∧
    (zeros w 2 1 && zeros w 5 2) = true := by
  have hl : Mixed [(1, v5.toNat), (1, 0), (1, 0), (2, v4.val), (2, 0), (3, v3.val), (5, v2.val), (5, v1.val), (3, g.gp.val), (1, g.gn.toNat), (6, op)] :=
    ⟨v5.toNat_lt, by decide, by decide, v4.isLt, by decide, v3.isLt, v2.isLt, v1.isLt, g.gp.isLt, g.gn.toNat_lt, hop, trivial⟩
  have he : w = mix [(1, v5.toNat), (1, 0), (1, 0), (2, v4.val), (2, 0), (3, v3.val), (5, v2.val), (5, v1.val), (3, g.gp.val), (1, g.gn.toNat), (6, op)] := by
    clear hl
    simp only [head, place, placeB, Nat.reducePow] at hw
    simp only [mix, Nat.reducePow, Nat.mul_add, ← Nat.mul_assoc, Nat.reduceMul, Nat.mul_zero, Nat.add_zero]
    rw [hw]
    omega
  exact ⟨mix_lt he hl,
    (mix_at he hl 10 rfl rfl : _ / 2 ^ 24 % 2 ^ 6 = op),
    guard_eq (mix_at he hl 9 rfl rfl) (mix_at he hl 8 rfl rfl),
    field_eq (mix_at he hl 7 rfl rfl),
    field_eq (mix_at he hl 6 rfl rfl),
    field_eq (mix_at he hl 5 rfl rfl),
    field_eq (mix_at he hl 3 rfl rfl),
    flag_eq (mix_at he hl 0 rfl rfl),
    beq_iff_eq.mpr (mix_at he hl 1 rfl rfl),
    (and_eq (zeros_eq (mix_at he hl 2 rfl rfl)) (zeros_eq (mix_at he hl 4 rfl rfl)))⟩

theorem shape19 (op : Nat) (g : Guard) (v1 : Fin 32) (v2 : Fin 32) (v3 : Fin 8) (v4 : Fin 4) (v5 : Bool) (v6 : Bool) {w : Nat} (hop : op < 64)
    (hw : w = head op g + place v1.val 15 + place v2.val 10 + place v3.val 7 + place v4.val 3 + placeB v5 2 + placeB v6 0) :
    w < 2 ^ 30 ∧
    opOf w = op ∧
    guardOf w = g ∧
    field w 15 32 = v1 ∧
    field w 10 32 = v2 ∧
    field w 7 8 = v3 ∧
    field w 3 4 = v4 ∧
    flag w 2 = v5 ∧
    flag w 0 = v6 ∧
    (w / 2 % 2 == 0) = true ∧
    (zeros w 5 2) = true := by
  have hl : Mixed [(1, v6.toNat), (1, 0), (1, v5.toNat), (2, v4.val), (2, 0), (3, v3.val), (5, v2.val), (5, v1.val), (3, g.gp.val), (1, g.gn.toNat), (6, op)] :=
    ⟨v6.toNat_lt, by decide, v5.toNat_lt, v4.isLt, by decide, v3.isLt, v2.isLt, v1.isLt, g.gp.isLt, g.gn.toNat_lt, hop, trivial⟩
  have he : w = mix [(1, v6.toNat), (1, 0), (1, v5.toNat), (2, v4.val), (2, 0), (3, v3.val), (5, v2.val), (5, v1.val), (3, g.gp.val), (1, g.gn.toNat), (6, op)] := by
    clear hl
    simp only [head, place, placeB, Nat.reducePow] at hw
    simp only [mix, Nat.reducePow, Nat.mul_add, ← Nat.mul_assoc, Nat.reduceMul, Nat.mul_zero, Nat.add_zero]
    rw [hw]
    omega
  exact ⟨mix_lt he hl,
    (mix_at he hl 10 rfl rfl : _ / 2 ^ 24 % 2 ^ 6 = op),
    guard_eq (mix_at he hl 9 rfl rfl) (mix_at he hl 8 rfl rfl),
    field_eq (mix_at he hl 7 rfl rfl),
    field_eq (mix_at he hl 6 rfl rfl),
    field_eq (mix_at he hl 5 rfl rfl),
    field_eq (mix_at he hl 3 rfl rfl),
    flag_eq (mix_at he hl 2 rfl rfl),
    flag_eq (mix_at he hl 0 rfl rfl),
    beq_iff_eq.mpr (mix_at he hl 1 rfl rfl),
    (zeros_eq (mix_at he hl 4 rfl rfl))⟩

theorem shape20 (op : Nat) (g : Guard) (v1 : Fin 32) (v2 : Fin 32) (v3 : Fin 8) (v4 : Bool) {w : Nat} (hop : op < 64)
    (hw : w = head op g + place v1.val 15 + place v2.val 10 + place v3.val 7 + placeB v4 0) :
    w < 2 ^ 30 ∧
    opOf w = op ∧
    guardOf w = g ∧
    field w 15 32 = v1 ∧
    field w 10 32 = v2 ∧
    field w 7 8 = v3 ∧
    flag w 0 = v4 ∧
    (w / 2 % 2 == 0) = true ∧
    (zeros w 2 5) = true := by
  have hl : Mixed [(1, v4.toNat), (1, 0), (5, 0), (3, v3.val), (5, v2.val), (5, v1.val), (3, g.gp.val), (1, g.gn.toNat), (6, op)] :=
    ⟨v4.toNat_lt, by decide, by decide, v3.isLt, v2.isLt, v1.isLt, g.gp.isLt, g.gn.toNat_lt, hop, trivial⟩
  have he : w = mix [(1, v4.toNat), (1, 0), (5, 0), (3, v3.val), (5, v2.val), (5, v1.val), (3, g.gp.val), (1, g.gn.toNat), (6, op)] := by
    clear hl
    simp only [head, place, placeB, Nat.reducePow] at hw
    simp only [mix, Nat.reducePow, Nat.mul_add, ← Nat.mul_assoc, Nat.reduceMul, Nat.mul_zero, Nat.add_zero]
    rw [hw]
    omega
  exact ⟨mix_lt he hl,
    (mix_at he hl 8 rfl rfl : _ / 2 ^ 24 % 2 ^ 6 = op),
    guard_eq (mix_at he hl 7 rfl rfl) (mix_at he hl 6 rfl rfl),
    field_eq (mix_at he hl 5 rfl rfl),
    field_eq (mix_at he hl 4 rfl rfl),
    field_eq (mix_at he hl 3 rfl rfl),
    flag_eq (mix_at he hl 0 rfl rfl),
    beq_iff_eq.mpr (mix_at he hl 1 rfl rfl),
    (zeros_eq (mix_at he hl 2 rfl rfl))⟩

theorem shape21 (op : Nat) (g : Guard) (v1 : Fin 32) (v2 : Fin 32) (v3 : Fin 8) (v4 : Bool) (v5 : Bool) {w : Nat} (hop : op < 64)
    (hw : w = head op g + place v1.val 15 + place v2.val 10 + place v3.val 7 + placeB v4 2 + placeB v5 0) :
    w < 2 ^ 30 ∧
    opOf w = op ∧
    guardOf w = g ∧
    field w 15 32 = v1 ∧
    field w 10 32 = v2 ∧
    field w 7 8 = v3 ∧
    flag w 2 = v4 ∧
    flag w 0 = v5 ∧
    (w / 2 % 2 == 0) = true ∧
    (zeros w 3 4) = true := by
  have hl : Mixed [(1, v5.toNat), (1, 0), (1, v4.toNat), (4, 0), (3, v3.val), (5, v2.val), (5, v1.val), (3, g.gp.val), (1, g.gn.toNat), (6, op)] :=
    ⟨v5.toNat_lt, by decide, v4.toNat_lt, by decide, v3.isLt, v2.isLt, v1.isLt, g.gp.isLt, g.gn.toNat_lt, hop, trivial⟩
  have he : w = mix [(1, v5.toNat), (1, 0), (1, v4.toNat), (4, 0), (3, v3.val), (5, v2.val), (5, v1.val), (3, g.gp.val), (1, g.gn.toNat), (6, op)] := by
    clear hl
    simp only [head, place, placeB, Nat.reducePow] at hw
    simp only [mix, Nat.reducePow, Nat.mul_add, ← Nat.mul_assoc, Nat.reduceMul, Nat.mul_zero, Nat.add_zero]
    rw [hw]
    omega
  exact ⟨mix_lt he hl,
    (mix_at he hl 9 rfl rfl : _ / 2 ^ 24 % 2 ^ 6 = op),
    guard_eq (mix_at he hl 8 rfl rfl) (mix_at he hl 7 rfl rfl),
    field_eq (mix_at he hl 6 rfl rfl),
    field_eq (mix_at he hl 5 rfl rfl),
    field_eq (mix_at he hl 4 rfl rfl),
    flag_eq (mix_at he hl 2 rfl rfl),
    flag_eq (mix_at he hl 0 rfl rfl),
    beq_iff_eq.mpr (mix_at he hl 1 rfl rfl),
    (zeros_eq (mix_at he hl 3 rfl rfl))⟩

theorem shape22 (op k : Nat) (g : Guard) (v1 : Fin 32) (v2 : Fin 32) {w : Nat} (hop : op < 64) (hk : k < 4)
    (hw : w = head op g + place v1.val 10 + place v2.val 5 + k) :
    w < 2 ^ 30 ∧
    opOf w = op ∧
    guardOf w = g ∧
    field w 10 32 = v1 ∧
    field w 5 32 = v2 ∧
    w % 4 = k ∧
    (zeros w 2 3 && zeros w 15 5) = true := by
  have hl : Mixed [(2, k), (3, 0), (5, v2.val), (5, v1.val), (5, 0), (3, g.gp.val), (1, g.gn.toNat), (6, op)] :=
    ⟨hk, by decide, v2.isLt, v1.isLt, by decide, g.gp.isLt, g.gn.toNat_lt, hop, trivial⟩
  have he : w = mix [(2, k), (3, 0), (5, v2.val), (5, v1.val), (5, 0), (3, g.gp.val), (1, g.gn.toNat), (6, op)] := by
    clear hl
    simp only [head, place, placeB, Nat.reducePow] at hw
    simp only [mix, Nat.reducePow, Nat.mul_add, ← Nat.mul_assoc, Nat.reduceMul, Nat.mul_zero, Nat.add_zero]
    rw [hw]
    omega
  exact ⟨mix_lt he hl,
    (mix_at he hl 7 rfl rfl : _ / 2 ^ 24 % 2 ^ 6 = op),
    guard_eq (mix_at he hl 6 rfl rfl) (mix_at he hl 5 rfl rfl),
    field_eq (mix_at he hl 3 rfl rfl),
    field_eq (mix_at he hl 2 rfl rfl),
    low_mod (mix_at he hl 0 rfl rfl),
    (and_eq (zeros_eq (mix_at he hl 1 rfl rfl)) (zeros_eq (mix_at he hl 4 rfl rfl)))⟩

theorem shape23 (op : Nat) (g : Guard) (v1 : Fin 32) (v2 : Fin 32) (v3 : Fin 32) (v4 : Bool) (v5 : Bool) {w : Nat} (hop : op < 64)
    (hw : w = head op g + place v1.val 15 + place v2.val 10 + place v3.val 5 + placeB v4 4 + placeB v5 2) :
    w < 2 ^ 30 ∧
    opOf w = op ∧
    guardOf w = g ∧
    field w 15 32 = v1 ∧
    field w 10 32 = v2 ∧
    field w 5 32 = v3 ∧
    flag w 4 = v4 ∧
    flag w 2 = v5 ∧
    (zeros w 0 2 && zeros w 3 1) = true := by
  have hl : Mixed [(2, 0), (1, v5.toNat), (1, 0), (1, v4.toNat), (5, v3.val), (5, v2.val), (5, v1.val), (3, g.gp.val), (1, g.gn.toNat), (6, op)] :=
    ⟨by decide, v5.toNat_lt, by decide, v4.toNat_lt, v3.isLt, v2.isLt, v1.isLt, g.gp.isLt, g.gn.toNat_lt, hop, trivial⟩
  have he : w = mix [(2, 0), (1, v5.toNat), (1, 0), (1, v4.toNat), (5, v3.val), (5, v2.val), (5, v1.val), (3, g.gp.val), (1, g.gn.toNat), (6, op)] := by
    clear hl
    simp only [head, place, placeB, Nat.reducePow] at hw
    simp only [mix, Nat.reducePow, Nat.mul_add, ← Nat.mul_assoc, Nat.reduceMul, Nat.mul_zero, Nat.add_zero]
    rw [hw]
    omega
  exact ⟨mix_lt he hl,
    (mix_at he hl 9 rfl rfl : _ / 2 ^ 24 % 2 ^ 6 = op),
    guard_eq (mix_at he hl 8 rfl rfl) (mix_at he hl 7 rfl rfl),
    field_eq (mix_at he hl 6 rfl rfl),
    field_eq (mix_at he hl 5 rfl rfl),
    field_eq (mix_at he hl 4 rfl rfl),
    flag_eq (mix_at he hl 3 rfl rfl),
    flag_eq (mix_at he hl 1 rfl rfl),
    (and_eq (zeros_eq (mix_at he hl 0 rfl rfl)) (zeros_eq (mix_at he hl 2 rfl rfl)))⟩

theorem shape24 (op : Nat) (g : Guard) (v1 : Fin 32) (v2 : Fin 32) (v3 : Fin 32) (v4 : Bool) (v5 : Bool) (v6 : Bool) {w : Nat} (hop : op < 64)
    (hw : w = head op g + place v1.val 15 + place v2.val 10 + place v3.val 5 + placeB v4 4 + placeB v5 3 + placeB v6 2) :
    w < 2 ^ 30 ∧
    opOf w = op ∧
    guardOf w = g ∧
    field w 15 32 = v1 ∧
    field w 10 32 = v2 ∧
    field w 5 32 = v3 ∧
    flag w 4 = v4 ∧
    flag w 3 = v5 ∧
    flag w 2 = v6 ∧
    (zeros w 0 2) = true := by
  have hl : Mixed [(2, 0), (1, v6.toNat), (1, v5.toNat), (1, v4.toNat), (5, v3.val), (5, v2.val), (5, v1.val), (3, g.gp.val), (1, g.gn.toNat), (6, op)] :=
    ⟨by decide, v6.toNat_lt, v5.toNat_lt, v4.toNat_lt, v3.isLt, v2.isLt, v1.isLt, g.gp.isLt, g.gn.toNat_lt, hop, trivial⟩
  have he : w = mix [(2, 0), (1, v6.toNat), (1, v5.toNat), (1, v4.toNat), (5, v3.val), (5, v2.val), (5, v1.val), (3, g.gp.val), (1, g.gn.toNat), (6, op)] := by
    clear hl
    simp only [head, place, placeB, Nat.reducePow] at hw
    simp only [mix, Nat.reducePow, Nat.mul_add, ← Nat.mul_assoc, Nat.reduceMul, Nat.mul_zero, Nat.add_zero]
    rw [hw]
    omega
  exact ⟨mix_lt he hl,
    (mix_at he hl 9 rfl rfl : _ / 2 ^ 24 % 2 ^ 6 = op),
    guard_eq (mix_at he hl 8 rfl rfl) (mix_at he hl 7 rfl rfl),
    field_eq (mix_at he hl 6 rfl rfl),
    field_eq (mix_at he hl 5 rfl rfl),
    field_eq (mix_at he hl 4 rfl rfl),
    flag_eq (mix_at he hl 3 rfl rfl),
    flag_eq (mix_at he hl 2 rfl rfl),
    flag_eq (mix_at he hl 1 rfl rfl),
    (zeros_eq (mix_at he hl 0 rfl rfl))⟩

theorem shape25 (op : Nat) (g : Guard) (v1 : Fin 32) (v2 : Fin 32) (v3 : Fin 32) (v4 : Bool) {w : Nat} (hop : op < 64)
    (hw : w = head op g + place v1.val 15 + place v2.val 10 + place v3.val 5 + placeB v4 4) :
    w < 2 ^ 30 ∧
    opOf w = op ∧
    guardOf w = g ∧
    field w 15 32 = v1 ∧
    field w 10 32 = v2 ∧
    field w 5 32 = v3 ∧
    flag w 4 = v4 ∧
    (zeros w 0 4) = true := by
  have hl : Mixed [(4, 0), (1, v4.toNat), (5, v3.val), (5, v2.val), (5, v1.val), (3, g.gp.val), (1, g.gn.toNat), (6, op)] :=
    ⟨by decide, v4.toNat_lt, v3.isLt, v2.isLt, v1.isLt, g.gp.isLt, g.gn.toNat_lt, hop, trivial⟩
  have he : w = mix [(4, 0), (1, v4.toNat), (5, v3.val), (5, v2.val), (5, v1.val), (3, g.gp.val), (1, g.gn.toNat), (6, op)] := by
    clear hl
    simp only [head, place, placeB, Nat.reducePow] at hw
    simp only [mix, Nat.reducePow, Nat.mul_add, ← Nat.mul_assoc, Nat.reduceMul, Nat.mul_zero, Nat.add_zero]
    rw [hw]
    omega
  exact ⟨mix_lt he hl,
    (mix_at he hl 7 rfl rfl : _ / 2 ^ 24 % 2 ^ 6 = op),
    guard_eq (mix_at he hl 6 rfl rfl) (mix_at he hl 5 rfl rfl),
    field_eq (mix_at he hl 4 rfl rfl),
    field_eq (mix_at he hl 3 rfl rfl),
    field_eq (mix_at he hl 2 rfl rfl),
    flag_eq (mix_at he hl 1 rfl rfl),
    (zeros_eq (mix_at he hl 0 rfl rfl))⟩

theorem shape26 (op k : Nat) (g : Guard) (v1 : Fin 8) {w : Nat} (hop : op < 64) (hk : k < 4)
    (hw : w = head op g + place v1.val 2 + k) :
    w < 2 ^ 30 ∧
    opOf w = op ∧
    guardOf w = g ∧
    field w 2 8 = v1 ∧
    w % 4 = k ∧
    (zeros w 5 15) = true := by
  have hl : Mixed [(2, k), (3, v1.val), (15, 0), (3, g.gp.val), (1, g.gn.toNat), (6, op)] :=
    ⟨hk, v1.isLt, by decide, g.gp.isLt, g.gn.toNat_lt, hop, trivial⟩
  have he : w = mix [(2, k), (3, v1.val), (15, 0), (3, g.gp.val), (1, g.gn.toNat), (6, op)] := by
    clear hl
    simp only [head, place, placeB, Nat.reducePow] at hw
    simp only [mix, Nat.reducePow, Nat.mul_add, ← Nat.mul_assoc, Nat.reduceMul, Nat.mul_zero, Nat.add_zero]
    rw [hw]
    omega
  exact ⟨mix_lt he hl,
    (mix_at he hl 5 rfl rfl : _ / 2 ^ 24 % 2 ^ 6 = op),
    guard_eq (mix_at he hl 4 rfl rfl) (mix_at he hl 3 rfl rfl),
    field_eq (mix_at he hl 1 rfl rfl),
    low_mod (mix_at he hl 0 rfl rfl),
    (zeros_eq (mix_at he hl 2 rfl rfl))⟩

theorem shape27 (op k : Nat) (g : Guard) (v1 : Fin 32) (v2 : Fin 32) {w : Nat} (hop : op < 64) (hk : k < 32)
    (hw : w = head op g + place v1.val 10 + place v2.val 5 + k) :
    w < 2 ^ 30 ∧
    opOf w = op ∧
    guardOf w = g ∧
    field w 10 32 = v1 ∧
    field w 5 32 = v2 ∧
    w % 32 = k ∧
    (zeros w 15 5) = true := by
  have hl : Mixed [(5, k), (5, v2.val), (5, v1.val), (5, 0), (3, g.gp.val), (1, g.gn.toNat), (6, op)] :=
    ⟨hk, v2.isLt, v1.isLt, by decide, g.gp.isLt, g.gn.toNat_lt, hop, trivial⟩
  have he : w = mix [(5, k), (5, v2.val), (5, v1.val), (5, 0), (3, g.gp.val), (1, g.gn.toNat), (6, op)] := by
    clear hl
    simp only [head, place, placeB, Nat.reducePow] at hw
    simp only [mix, Nat.reducePow, Nat.mul_add, ← Nat.mul_assoc, Nat.reduceMul, Nat.mul_zero, Nat.add_zero]
    rw [hw]
    omega
  exact ⟨mix_lt he hl,
    (mix_at he hl 6 rfl rfl : _ / 2 ^ 24 % 2 ^ 6 = op),
    guard_eq (mix_at he hl 5 rfl rfl) (mix_at he hl 4 rfl rfl),
    field_eq (mix_at he hl 2 rfl rfl),
    field_eq (mix_at he hl 1 rfl rfl),
    low_mod (mix_at he hl 0 rfl rfl),
    (zeros_eq (mix_at he hl 3 rfl rfl))⟩

theorem shape28 (op k : Nat) (g : Guard) (v1 : Fin 8) {w : Nat} (hop : op < 64) (hk : k < 32)
    (hw : w = head op g + place v1.val 10 + k) :
    w < 2 ^ 30 ∧
    opOf w = op ∧
    guardOf w = g ∧
    field w 10 8 = v1 ∧
    w % 32 = k ∧
    (zeros w 5 5 && zeros w 13 7) = true := by
  have hl : Mixed [(5, k), (5, 0), (3, v1.val), (7, 0), (3, g.gp.val), (1, g.gn.toNat), (6, op)] :=
    ⟨hk, by decide, v1.isLt, by decide, g.gp.isLt, g.gn.toNat_lt, hop, trivial⟩
  have he : w = mix [(5, k), (5, 0), (3, v1.val), (7, 0), (3, g.gp.val), (1, g.gn.toNat), (6, op)] := by
    clear hl
    simp only [head, place, placeB, Nat.reducePow] at hw
    simp only [mix, Nat.reducePow, Nat.mul_add, ← Nat.mul_assoc, Nat.reduceMul, Nat.mul_zero, Nat.add_zero]
    rw [hw]
    omega
  exact ⟨mix_lt he hl,
    (mix_at he hl 6 rfl rfl : _ / 2 ^ 24 % 2 ^ 6 = op),
    guard_eq (mix_at he hl 5 rfl rfl) (mix_at he hl 4 rfl rfl),
    field_eq (mix_at he hl 2 rfl rfl),
    low_mod (mix_at he hl 0 rfl rfl),
    (and_eq (zeros_eq (mix_at he hl 1 rfl rfl)) (zeros_eq (mix_at he hl 3 rfl rfl)))⟩

theorem shape29 (op k : Nat) (g : Guard) (v1 : Fin 16) (v2 : Fin 32) {w : Nat} (hop : op < 64) (hk : k < 32)
    (hw : w = head op g + place v1.val 15 + place v2.val 10 + k) :
    w < 2 ^ 30 ∧
    opOf w = op ∧
    guardOf w = g ∧
    field w 15 16 = v1 ∧
    field w 10 32 = v2 ∧
    w % 32 = k ∧
    (zeros w 5 5 && zeros w 19 1) = true := by
  have hl : Mixed [(5, k), (5, 0), (5, v2.val), (4, v1.val), (1, 0), (3, g.gp.val), (1, g.gn.toNat), (6, op)] :=
    ⟨hk, by decide, v2.isLt, v1.isLt, by decide, g.gp.isLt, g.gn.toNat_lt, hop, trivial⟩
  have he : w = mix [(5, k), (5, 0), (5, v2.val), (4, v1.val), (1, 0), (3, g.gp.val), (1, g.gn.toNat), (6, op)] := by
    clear hl
    simp only [head, place, placeB, Nat.reducePow] at hw
    simp only [mix, Nat.reducePow, Nat.mul_add, ← Nat.mul_assoc, Nat.reduceMul, Nat.mul_zero, Nat.add_zero]
    rw [hw]
    omega
  exact ⟨mix_lt he hl,
    (mix_at he hl 7 rfl rfl : _ / 2 ^ 24 % 2 ^ 6 = op),
    guard_eq (mix_at he hl 6 rfl rfl) (mix_at he hl 5 rfl rfl),
    field_eq (mix_at he hl 3 rfl rfl),
    field_eq (mix_at he hl 2 rfl rfl),
    low_mod (mix_at he hl 0 rfl rfl),
    (and_eq (zeros_eq (mix_at he hl 1 rfl rfl)) (zeros_eq (mix_at he hl 4 rfl rfl)))⟩

theorem shape30 (op k : Nat) (g : Guard) (v1 : Fin 32) (v2 : Fin 16) {w : Nat} (hop : op < 64) (hk : k < 32)
    (hw : w = head op g + place v1.val 15 + place v2.val 10 + k) :
    w < 2 ^ 30 ∧
    opOf w = op ∧
    guardOf w = g ∧
    field w 15 32 = v1 ∧
    field w 10 16 = v2 ∧
    w % 32 = k ∧
    (zeros w 5 5 && zeros w 14 1) = true := by
  have hl : Mixed [(5, k), (5, 0), (4, v2.val), (1, 0), (5, v1.val), (3, g.gp.val), (1, g.gn.toNat), (6, op)] :=
    ⟨hk, by decide, v2.isLt, by decide, v1.isLt, g.gp.isLt, g.gn.toNat_lt, hop, trivial⟩
  have he : w = mix [(5, k), (5, 0), (4, v2.val), (1, 0), (5, v1.val), (3, g.gp.val), (1, g.gn.toNat), (6, op)] := by
    clear hl
    simp only [head, place, placeB, Nat.reducePow] at hw
    simp only [mix, Nat.reducePow, Nat.mul_add, ← Nat.mul_assoc, Nat.reduceMul, Nat.mul_zero, Nat.add_zero]
    rw [hw]
    omega
  exact ⟨mix_lt he hl,
    (mix_at he hl 7 rfl rfl : _ / 2 ^ 24 % 2 ^ 6 = op),
    guard_eq (mix_at he hl 6 rfl rfl) (mix_at he hl 5 rfl rfl),
    field_eq (mix_at he hl 4 rfl rfl),
    field_eq (mix_at he hl 2 rfl rfl),
    low_mod (mix_at he hl 0 rfl rfl),
    (and_eq (zeros_eq (mix_at he hl 1 rfl rfl)) (zeros_eq (mix_at he hl 3 rfl rfl)))⟩

theorem shape31 (op : Nat) (g : Guard) (v1 : Fin 4) (v2 : Fin 16) {w : Nat} (hop : op < 64)
    (hw : w = head op g + place v1.val 15 + place v2.val 10 + 0xE0004) :
    w < 2 ^ 30 ∧
    opOf w = op ∧
    guardOf w = g ∧
    field w 15 4 = v1 ∧
    field w 10 16 = v2 ∧
    w % 32 = 4 ∧
    (w / 2 ^ 17 % 8 == 7) = true ∧
    (zeros w 5 5 && zeros w 14 1) = true := by
  have hl : Mixed [(5, 4), (5, 0), (4, v2.val), (1, 0), (2, v1.val), (3, 7), (3, g.gp.val), (1, g.gn.toNat), (6, op)] :=
    ⟨by decide, by decide, v2.isLt, by decide, v1.isLt, by decide, g.gp.isLt, g.gn.toNat_lt, hop, trivial⟩
  have he : w = mix [(5, 4), (5, 0), (4, v2.val), (1, 0), (2, v1.val), (3, 7), (3, g.gp.val), (1, g.gn.toNat), (6, op)] := by
    clear hl
    simp only [head, place, placeB, Nat.reducePow] at hw
    simp only [mix, Nat.reducePow, Nat.mul_add, ← Nat.mul_assoc, Nat.reduceMul, Nat.mul_zero, Nat.add_zero]
    rw [hw]
    omega
  exact ⟨mix_lt he hl,
    (mix_at he hl 8 rfl rfl : _ / 2 ^ 24 % 2 ^ 6 = op),
    guard_eq (mix_at he hl 7 rfl rfl) (mix_at he hl 6 rfl rfl),
    field_eq (mix_at he hl 4 rfl rfl),
    field_eq (mix_at he hl 2 rfl rfl),
    low_mod (mix_at he hl 0 rfl rfl),
    beq_iff_eq.mpr (mix_at he hl 5 rfl rfl),
    (and_eq (zeros_eq (mix_at he hl 1 rfl rfl)) (zeros_eq (mix_at he hl 3 rfl rfl)))⟩

theorem shape32 (op : Nat) (g : Guard) (v1 : Fin 4) {w : Nat} (hop : op < 64)
    (hw : w = head op g + place v1.val 15 + 0xE0005) :
    w < 2 ^ 30 ∧
    opOf w = op ∧
    guardOf w = g ∧
    field w 15 4 = v1 ∧
    w % 32 = 5 ∧
    (w / 2 ^ 17 % 8 == 7) = true ∧
    (zeros w 5 10) = true := by
  have hl : Mixed [(5, 5), (10, 0), (2, v1.val), (3, 7), (3, g.gp.val), (1, g.gn.toNat), (6, op)] :=
    ⟨by decide, by decide, v1.isLt, by decide, g.gp.isLt, g.gn.toNat_lt, hop, trivial⟩
  have he : w = mix [(5, 5), (10, 0), (2, v1.val), (3, 7), (3, g.gp.val), (1, g.gn.toNat), (6, op)] := by
    clear hl
    simp only [head, place, placeB, Nat.reducePow] at hw
    simp only [mix, Nat.reducePow, Nat.mul_add, ← Nat.mul_assoc, Nat.reduceMul, Nat.mul_zero, Nat.add_zero]
    rw [hw]
    omega
  exact ⟨mix_lt he hl,
    (mix_at he hl 6 rfl rfl : _ / 2 ^ 24 % 2 ^ 6 = op),
    guard_eq (mix_at he hl 5 rfl rfl) (mix_at he hl 4 rfl rfl),
    field_eq (mix_at he hl 2 rfl rfl),
    low_mod (mix_at he hl 0 rfl rfl),
    beq_iff_eq.mpr (mix_at he hl 3 rfl rfl),
    (zeros_eq (mix_at he hl 1 rfl rfl))⟩

theorem shape33 (op k : Nat) (g : Guard) (v1 : Fin 32) (v2 : Fin 32) {w : Nat} (hop : op < 64) (hk : k < 32)
    (hw : w = head op g + place v1.val 15 + place v2.val 5 + k) :
    w < 2 ^ 30 ∧
    opOf w = op ∧
    guardOf w = g ∧
    field w 15 32 = v1 ∧
    field w 5 32 = v2 ∧
    w % 32 = k ∧
    (zeros w 10 5) = true := by
  have hl : Mixed [(5, k), (5, v2.val), (5, 0), (5, v1.val), (3, g.gp.val), (1, g.gn.toNat), (6, op)] :=
    ⟨hk, v2.isLt, by decide, v1.isLt, g.gp.isLt, g.gn.toNat_lt, hop, trivial⟩
  have he : w = mix [(5, k), (5, v2.val), (5, 0), (5, v1.val), (3, g.gp.val), (1, g.gn.toNat), (6, op)] := by
    clear hl
    simp only [head, place, placeB, Nat.reducePow] at hw
    simp only [mix, Nat.reducePow, Nat.mul_add, ← Nat.mul_assoc, Nat.reduceMul, Nat.mul_zero, Nat.add_zero]
    rw [hw]
    omega
  exact ⟨mix_lt he hl,
    (mix_at he hl 6 rfl rfl : _ / 2 ^ 24 % 2 ^ 6 = op),
    guard_eq (mix_at he hl 5 rfl rfl) (mix_at he hl 4 rfl rfl),
    field_eq (mix_at he hl 3 rfl rfl),
    field_eq (mix_at he hl 1 rfl rfl),
    low_mod (mix_at he hl 0 rfl rfl),
    (zeros_eq (mix_at he hl 2 rfl rfl))⟩

theorem shape34 (op k : Nat) (g : Guard) (v1 : Fin 8) (v2 : Fin 32) (v3 : Fin 32) (v4 : Fin 16) {w : Nat} (hop : op < 64) (hk : k < 2)
    (hw : w = head op g + place v1.val 15 + place v2.val 10 + place v3.val 5 + place v4.val 1 + k) :
    w < 2 ^ 30 ∧
    opOf w = op ∧
    guardOf w = g ∧
    field w 15 8 = v1 ∧
    field w 10 32 = v2 ∧
    field w 5 32 = v3 ∧
    field w 1 16 = v4 ∧
    w % 2 = k ∧
    (zeros w 18 2) = true := by
  have hl : Mixed [(1, k), (4, v4.val), (5, v3.val), (5, v2.val), (3, v1.val), (2, 0), (3, g.gp.val), (1, g.gn.toNat), (6, op)] :=
    ⟨hk, v4.isLt, v3.isLt, v2.isLt, v1.isLt, by decide, g.gp.isLt, g.gn.toNat_lt, hop, trivial⟩
  have he : w = mix [(1, k), (4, v4.val), (5, v3.val), (5, v2.val), (3, v1.val), (2, 0), (3, g.gp.val), (1, g.gn.toNat), (6, op)] := by
    clear hl
    simp only [head, place, placeB, Nat.reducePow] at hw
    simp only [mix, Nat.reducePow, Nat.mul_add, ← Nat.mul_assoc, Nat.reduceMul, Nat.mul_zero, Nat.add_zero]
    rw [hw]
    omega
  exact ⟨mix_lt he hl,
    (mix_at he hl 8 rfl rfl : _ / 2 ^ 24 % 2 ^ 6 = op),
    guard_eq (mix_at he hl 7 rfl rfl) (mix_at he hl 6 rfl rfl),
    field_eq (mix_at he hl 4 rfl rfl),
    field_eq (mix_at he hl 3 rfl rfl),
    field_eq (mix_at he hl 2 rfl rfl),
    field_eq (mix_at he hl 1 rfl rfl),
    low_mod (mix_at he hl 0 rfl rfl),
    (zeros_eq (mix_at he hl 5 rfl rfl))⟩

theorem shape35 (op k : Nat) (g : Guard) (v1 : Fin 32) (v2 : Fin 1024) {w : Nat} (hop : op < 64) (hk : k < 32)
    (hw : w = head op g + place v1.val 15 + place v2.val 5 + k) :
    w < 2 ^ 30 ∧
    opOf w = op ∧
    guardOf w = g ∧
    field w 15 32 = v1 ∧
    field w 5 1024 = v2 ∧
    w % 32 = k := by
  have hl : Mixed [(5, k), (10, v2.val), (5, v1.val), (3, g.gp.val), (1, g.gn.toNat), (6, op)] :=
    ⟨hk, v2.isLt, v1.isLt, g.gp.isLt, g.gn.toNat_lt, hop, trivial⟩
  have he : w = mix [(5, k), (10, v2.val), (5, v1.val), (3, g.gp.val), (1, g.gn.toNat), (6, op)] := by
    clear hl
    simp only [head, place, placeB, Nat.reducePow] at hw
    simp only [mix, Nat.reducePow, Nat.mul_add, ← Nat.mul_assoc, Nat.reduceMul, Nat.mul_zero, Nat.add_zero]
    rw [hw]
    omega
  exact ⟨mix_lt he hl,
    (mix_at he hl 5 rfl rfl : _ / 2 ^ 24 % 2 ^ 6 = op),
    guard_eq (mix_at he hl 4 rfl rfl) (mix_at he hl 3 rfl rfl),
    field_eq (mix_at he hl 2 rfl rfl),
    field_eq (mix_at he hl 1 rfl rfl),
    low_mod (mix_at he hl 0 rfl rfl)⟩

theorem shape36 (op : Nat) (g : Guard) (v1 : Fin 32) (v2 : Fin 32) (v3 : Fin 32) (v4 : Bool) (v5 : Fin 16) {w : Nat} (hop : op < 64)
    (hw : w = head op g + place v1.val 15 + place v2.val 10 + place v3.val 5 + placeB v4 4 + place v5.val 0) :
    w < 2 ^ 30 ∧
    opOf w = op ∧
    guardOf w = g ∧
    field w 15 32 = v1 ∧
    field w 10 32 = v2 ∧
    field w 5 32 = v3 ∧
    flag w 4 = v4 ∧
    field w 0 16 = v5 := by
  have hl : Mixed [(4, v5.val), (1, v4.toNat), (5, v3.val), (5, v2.val), (5, v1.val), (3, g.gp.val), (1, g.gn.toNat), (6, op)] :=
    ⟨v5.isLt, v4.toNat_lt, v3.isLt, v2.isLt, v1.isLt, g.gp.isLt, g.gn.toNat_lt, hop, trivial⟩
  have he : w = mix [(4, v5.val), (1, v4.toNat), (5, v3.val), (5, v2.val), (5, v1.val), (3, g.gp.val), (1, g.gn.toNat), (6, op)] := by
    clear hl
    simp only [head, place, placeB, Nat.reducePow] at hw
    simp only [mix, Nat.reducePow, Nat.mul_add, ← Nat.mul_assoc, Nat.reduceMul, Nat.mul_zero, Nat.add_zero]
    rw [hw]
    omega
  exact ⟨mix_lt he hl,
    (mix_at he hl 7 rfl rfl : _ / 2 ^ 24 % 2 ^ 6 = op),
    guard_eq (mix_at he hl 6 rfl rfl) (mix_at he hl 5 rfl rfl),
    field_eq (mix_at he hl 4 rfl rfl),
    field_eq (mix_at he hl 3 rfl rfl),
    field_eq (mix_at he hl 2 rfl rfl),
    flag_eq (mix_at he hl 1 rfl rfl),
    field_eq (mix_at he hl 0 rfl rfl)⟩

theorem shape37 (op k : Nat) (g : Guard) (v1 : Fin 32) (v2 : Fin 32) (v3 : Fin 32) (v4 : Fin 16) {w : Nat} (hop : op < 64) (hk : k < 2)
    (hw : w = head op g + place v1.val 15 + place v2.val 10 + place v3.val 5 + place v4.val 0 + k * 2 ^ 4) :
    w < 2 ^ 30 ∧
    opOf w = op ∧
    guardOf w = g ∧
    field w 15 32 = v1 ∧
    field w 10 32 = v2 ∧
    field w 5 32 = v3 ∧
    field w 0 16 = v4 ∧
    w / 2 ^ 4 % 2 = k := by
  have hl : Mixed [(4, v4.val), (1, k), (5, v3.val), (5, v2.val), (5, v1.val), (3, g.gp.val), (1, g.gn.toNat), (6, op)] :=
    ⟨v4.isLt, hk, v3.isLt, v2.isLt, v1.isLt, g.gp.isLt, g.gn.toNat_lt, hop, trivial⟩
  have he : w = mix [(4, v4.val), (1, k), (5, v3.val), (5, v2.val), (5, v1.val), (3, g.gp.val), (1, g.gn.toNat), (6, op)] := by
    clear hl
    simp only [head, place, placeB, Nat.reducePow] at hw
    simp only [mix, Nat.reducePow, Nat.mul_add, ← Nat.mul_assoc, Nat.reduceMul, Nat.mul_zero, Nat.add_zero]
    rw [hw]
    omega
  exact ⟨mix_lt he hl,
    (mix_at he hl 7 rfl rfl : _ / 2 ^ 24 % 2 ^ 6 = op),
    guard_eq (mix_at he hl 6 rfl rfl) (mix_at he hl 5 rfl rfl),
    field_eq (mix_at he hl 4 rfl rfl),
    field_eq (mix_at he hl 3 rfl rfl),
    field_eq (mix_at he hl 2 rfl rfl),
    field_eq (mix_at he hl 0 rfl rfl),
    mix_at he hl 1 rfl rfl⟩

theorem shape38 (op k : Nat) (g : Guard) (v1 : Fin 32) (v2 : Fin 32) (v3 : Fin 16) {w : Nat} (hop : op < 64) (hk : k < 2)
    (hw : w = head op g + place v1.val 15 + place v2.val 10 + place v3.val 0 + k * 2 ^ 4) :
    w < 2 ^ 30 ∧
    opOf w = op ∧
    guardOf w = g ∧
    field w 15 32 = v1 ∧
    field w 10 32 = v2 ∧
    field w 0 16 = v3 ∧
    w / 2 ^ 4 % 2 = k ∧
    (zeros w 5 5) = true := by
  have hl : Mixed [(4, v3.val), (1, k), (5, 0), (5, v2.val), (5, v1.val), (3, g.gp.val), (1, g.gn.toNat), (6, op)] :=
    ⟨v3.isLt, hk, by decide, v2.isLt, v1.isLt, g.gp.isLt, g.gn.toNat_lt, hop, trivial⟩
  have he : w = mix [(4, v3.val), (1, k), (5, 0), (5, v2.val), (5, v1.val), (3, g.gp.val), (1, g.gn.toNat), (6, op)] := by
    clear hl
    simp only [head, place, placeB, Nat.reducePow] at hw
    simp only [mix, Nat.reducePow, Nat.mul_add, ← Nat.mul_assoc, Nat.reduceMul, Nat.mul_zero, Nat.add_zero]
    rw [hw]
    omega
  exact ⟨mix_lt he hl,
    (mix_at he hl 7 rfl rfl : _ / 2 ^ 24 % 2 ^ 6 = op),
    guard_eq (mix_at he hl 6 rfl rfl) (mix_at he hl 5 rfl rfl),
    field_eq (mix_at he hl 4 rfl rfl),
    field_eq (mix_at he hl 3 rfl rfl),
    field_eq (mix_at he hl 0 rfl rfl),
    mix_at he hl 1 rfl rfl,
    (zeros_eq (mix_at he hl 2 rfl rfl))⟩

theorem shape39 (op k : Nat) (g : Guard) (v1 : Fin 32) (v2 : Fin 32) (v3 : Fin 32) (v4 : Fin 4) {w : Nat} (hop : op < 64) (hk : k < 4)
    (hw : w = head op g + place v1.val 15 + place v2.val 10 + place v3.val 5 + place v4.val 2 + k) :
    w < 2 ^ 30 ∧
    opOf w = op ∧
    guardOf w = g ∧
    field w 15 32 = v1 ∧
    field w 10 32 = v2 ∧
    field w 5 32 = v3 ∧
    field w 2 4 = v4 ∧
    flag w 4 = false ∧
    w % 4 = k := by
  have hl : Mixed [(2, k), (2, v4.val), (1, 0), (5, v3.val), (5, v2.val), (5, v1.val), (3, g.gp.val), (1, g.gn.toNat), (6, op)] :=
    ⟨hk, v4.isLt, by decide, v3.isLt, v2.isLt, v1.isLt, g.gp.isLt, g.gn.toNat_lt, hop, trivial⟩
  have he : w = mix [(2, k), (2, v4.val), (1, 0), (5, v3.val), (5, v2.val), (5, v1.val), (3, g.gp.val), (1, g.gn.toNat), (6, op)] := by
    clear hl
    simp only [head, place, placeB, Nat.reducePow] at hw
    simp only [mix, Nat.reducePow, Nat.mul_add, ← Nat.mul_assoc, Nat.reduceMul, Nat.mul_zero, Nat.add_zero]
    rw [hw]
    omega
  exact ⟨mix_lt he hl,
    (mix_at he hl 8 rfl rfl : _ / 2 ^ 24 % 2 ^ 6 = op),
    guard_eq (mix_at he hl 7 rfl rfl) (mix_at he hl 6 rfl rfl),
    field_eq (mix_at he hl 5 rfl rfl),
    field_eq (mix_at he hl 4 rfl rfl),
    field_eq (mix_at he hl 3 rfl rfl),
    field_eq (mix_at he hl 1 rfl rfl),
    flag_eq (b := false) (mix_at he hl 2 rfl rfl),
    low_mod (mix_at he hl 0 rfl rfl)⟩

theorem shape40 (op : Nat) (g : Guard) (v1 : Fin 32) (v2 : Fin 32) (v3 : Fin 16) (v4 : Bool) (v5 : Fin 16) {w : Nat} (hop : op < 64)
    (hw : w = head op g + place v1.val 15 + place v2.val 10 + place v3.val 5 + placeB v4 4 + place v5.val 0) :
    w < 2 ^ 30 ∧
    opOf w = op ∧
    guardOf w = g ∧
    field w 15 32 = v1 ∧
    field w 10 32 = v2 ∧
    field w 5 16 = v3 ∧
    flag w 4 = v4 ∧
    field w 0 16 = v5 ∧
    (zeros w 9 1) = true := by
  have hl : Mixed [(4, v5.val), (1, v4.toNat), (4, v3.val), (1, 0), (5, v2.val), (5, v1.val), (3, g.gp.val), (1, g.gn.toNat), (6, op)] :=
    ⟨v5.isLt, v4.toNat_lt, v3.isLt, by decide, v2.isLt, v1.isLt, g.gp.isLt, g.gn.toNat_lt, hop, trivial⟩
  have he : w = mix [(4, v5.val), (1, v4.toNat), (4, v3.val), (1, 0), (5, v2.val), (5, v1.val), (3, g.gp.val), (1, g.gn.toNat), (6, op)] := by
    clear hl
    simp only [head, place, placeB, Nat.reducePow] at hw
    simp only [mix, Nat.reducePow, Nat.mul_add, ← Nat.mul_assoc, Nat.reduceMul, Nat.mul_zero, Nat.add_zero]
    rw [hw]
    omega
  exact ⟨mix_lt he hl,
    (mix_at he hl 8 rfl rfl : _ / 2 ^ 24 % 2 ^ 6 = op),
    guard_eq (mix_at he hl 7 rfl rfl) (mix_at he hl 6 rfl rfl),
    field_eq (mix_at he hl 5 rfl rfl),
    field_eq (mix_at he hl 4 rfl rfl),
    field_eq (mix_at he hl 2 rfl rfl),
    flag_eq (mix_at he hl 1 rfl rfl),
    field_eq (mix_at he hl 0 rfl rfl),
    (zeros_eq (mix_at he hl 3 rfl rfl))⟩

theorem shape41 (op : Nat) (g : Guard) (v1 : Fin 32) (v2 : Fin 32) (v3 : Fin 32) (v4 : Fin 32) {w : Nat} (hop : op < 64)
    (hw : w = head op g + place v1.val 15 + place v2.val 10 + place v3.val 5 + place v4.val 0) :
    w < 2 ^ 30 ∧
    opOf w = op ∧
    guardOf w = g ∧
    field w 15 32 = v1 ∧
    field w 10 32 = v2 ∧
    field w 5 32 = v3 ∧
    field w 0 32 = v4 := by
  have hl : Mixed [(5, v4.val), (5, v3.val), (5, v2.val), (5, v1.val), (3, g.gp.val), (1, g.gn.toNat), (6, op)] :=
    ⟨v4.isLt, v3.isLt, v2.isLt, v1.isLt, g.gp.isLt, g.gn.toNat_lt, hop, trivial⟩
  have he : w = mix [(5, v4.val), (5, v3.val), (5, v2.val), (5, v1.val), (3, g.gp.val), (1, g.gn.toNat), (6, op)] := by
    clear hl
    simp only [head, place, placeB, Nat.reducePow] at hw
    simp only [mix, Nat.reducePow, Nat.mul_add, ← Nat.mul_assoc, Nat.reduceMul, Nat.mul_zero, Nat.add_zero]
    rw [hw]
    omega
  exact ⟨mix_lt he hl,
    (mix_at he hl 6 rfl rfl : _ / 2 ^ 24 % 2 ^ 6 = op),
    guard_eq (mix_at he hl 5 rfl rfl) (mix_at he hl 4 rfl rfl),
    field_eq (mix_at he hl 3 rfl rfl),
    field_eq (mix_at he hl 2 rfl rfl),
    field_eq (mix_at he hl 1 rfl rfl),
    field_eq (mix_at he hl 0 rfl rfl)⟩

theorem shape42 (op k : Nat) (g : Guard) (v1 : Fin 32) (v2 : Fin 32) (v3 : Bool) {w : Nat} (hop : op < 64) (hk : k < 16)
    (hw : w = head op g + place v1.val 15 + place v2.val 10 + placeB v3 0 + k * 2 ^ 1) :
    w < 2 ^ 30 ∧
    opOf w = op ∧
    guardOf w = g ∧
    field w 15 32 = v1 ∧
    field w 10 32 = v2 ∧
    flag w 0 = v3 ∧
    w / 2 ^ 1 % 16 = k ∧
    (zeros w 5 5) = true := by
  have hl : Mixed [(1, v3.toNat), (4, k), (5, 0), (5, v2.val), (5, v1.val), (3, g.gp.val), (1, g.gn.toNat), (6, op)] :=
    ⟨v3.toNat_lt, hk, by decide, v2.isLt, v1.isLt, g.gp.isLt, g.gn.toNat_lt, hop, trivial⟩
  have he : w = mix [(1, v3.toNat), (4, k), (5, 0), (5, v2.val), (5, v1.val), (3, g.gp.val), (1, g.gn.toNat), (6, op)] := by
    clear hl
    simp only [head, place, placeB, Nat.reducePow] at hw
    simp only [mix, Nat.reducePow, Nat.mul_add, ← Nat.mul_assoc, Nat.reduceMul, Nat.mul_zero, Nat.add_zero]
    rw [hw]
    omega
  exact ⟨mix_lt he hl,
    (mix_at he hl 7 rfl rfl : _ / 2 ^ 24 % 2 ^ 6 = op),
    guard_eq (mix_at he hl 6 rfl rfl) (mix_at he hl 5 rfl rfl),
    field_eq (mix_at he hl 4 rfl rfl),
    field_eq (mix_at he hl 3 rfl rfl),
    flag_eq (mix_at he hl 0 rfl rfl),
    mix_at he hl 1 rfl rfl,
    (zeros_eq (mix_at he hl 2 rfl rfl))⟩

theorem shape43 (op k : Nat) (g : Guard) (v1 : Fin 32) (v2 : Fin 32) (v3 : Fin 32) (v4 : Bool) {w : Nat} (hop : op < 64) (hk : k < 2)
    (hw : w = head op g + place v1.val 15 + place v2.val 10 + place v3.val 5 + placeB v4 0 + k * 2 ^ 1) :
    w < 2 ^ 30 ∧
    opOf w = op ∧
    guardOf w = g ∧
    field w 15 32 = v1 ∧
    field w 10 32 = v2 ∧
    field w 5 32 = v3 ∧
    flag w 0 = v4 ∧
    w / 2 ^ 1 % 2 = k ∧
    (zeros w 2 3) = true := by
  have hl : Mixed [(1, v4.toNat), (1, k), (3, 0), (5, v3.val), (5, v2.val), (5, v1.val), (3, g.gp.val), (1, g.gn.toNat), (6, op)] :=
    ⟨v4.toNat_lt, hk, by decide, v3.isLt, v2.isLt, v1.isLt, g.gp.isLt, g.gn.toNat_lt, hop, trivial⟩
  have he : w = mix [(1, v4.toNat), (1, k), (3, 0), (5, v3.val), (5, v2.val), (5, v1.val), (3, g.gp.val), (1, g.gn.toNat), (6, op)] := by
    clear hl
    simp only [head, place, placeB, Nat.reducePow] at hw
    simp only [mix, Nat.reducePow, Nat.mul_add, ← Nat.mul_assoc, Nat.reduceMul, Nat.mul_zero, Nat.add_zero]
    rw [hw]
    omega
  exact ⟨mix_lt he hl,
    (mix_at he hl 8 rfl rfl : _ / 2 ^ 24 % 2 ^ 6 = op),
    guard_eq (mix_at he hl 7 rfl rfl) (mix_at he hl 6 rfl rfl),
    field_eq (mix_at he hl 5 rfl rfl),
    field_eq (mix_at he hl 4 rfl rfl),
    field_eq (mix_at he hl 3 rfl rfl),
    flag_eq (mix_at he hl 0 rfl rfl),
    mix_at he hl 1 rfl rfl,
    (zeros_eq (mix_at he hl 2 rfl rfl))⟩

theorem shape44 (op : Nat) (g : Guard) (v1 : Fin 16) (v2 : Fin 16) (v3 : Fin 64) (v4 : Bool) {w : Nat} (hop : op < 64)
    (hw : w = head op g + place v1.val 16 + place v2.val 12 + place v3.val 6 + placeB v4 0) :
    w < 2 ^ 30 ∧
    opOf w = op ∧
    guardOf w = g ∧
    field w 16 16 = v1 ∧
    field w 12 16 = v2 ∧
    field w 6 64 = v3 ∧
    flag w 0 = v4 ∧
    (zeros w 1 5) = true := by
  have hl : Mixed [(1, v4.toNat), (5, 0), (6, v3.val), (4, v2.val), (4, v1.val), (3, g.gp.val), (1, g.gn.toNat), (6, op)] :=
    ⟨v4.toNat_lt, by decide, v3.isLt, v2.isLt, v1.isLt, g.gp.isLt, g.gn.toNat_lt, hop, trivial⟩
  have he : w = mix [(1, v4.toNat), (5, 0), (6, v3.val), (4, v2.val), (4, v1.val), (3, g.gp.val), (1, g.gn.toNat), (6, op)] := by
    clear hl
    simp only [head, place, placeB, Nat.reducePow] at hw
    simp only [mix, Nat.reducePow, Nat.mul_add, ← Nat.mul_assoc, Nat.reduceMul, Nat.mul_zero, Nat.add_zero]
    rw [hw]
    omega
  exact ⟨mix_lt he hl,
    (mix_at he hl 7 rfl rfl : _ / 2 ^ 24 % 2 ^ 6 = op),
    guard_eq (mix_at he hl 6 rfl rfl) (mix_at he hl 5 rfl rfl),
    field_eq (mix_at he hl 4 rfl rfl),
    field_eq (mix_at he hl 3 rfl rfl),
    field_eq (mix_at he hl 2 rfl rfl),
    flag_eq (mix_at he hl 0 rfl rfl),
    (zeros_eq (mix_at he hl 1 rfl rfl))⟩

theorem shape45 (op k : Nat) (g : Guard) (v1 : Fin 64) {w : Nat} (hop : op < 64) (hk : k < 16)
    (hw : w = head op g + place v1.val 14 + k) :
    w < 2 ^ 30 ∧
    opOf w = op ∧
    guardOf w = g ∧
    field w 14 64 = v1 ∧
    w % 16 = k ∧
    (zeros w 4 10) = true := by
  have hl : Mixed [(4, k), (10, 0), (6, v1.val), (3, g.gp.val), (1, g.gn.toNat), (6, op)] :=
    ⟨hk, by decide, v1.isLt, g.gp.isLt, g.gn.toNat_lt, hop, trivial⟩
  have he : w = mix [(4, k), (10, 0), (6, v1.val), (3, g.gp.val), (1, g.gn.toNat), (6, op)] := by
    clear hl
    simp only [head, place, placeB, Nat.reducePow] at hw
    simp only [mix, Nat.reducePow, Nat.mul_add, ← Nat.mul_assoc, Nat.reduceMul, Nat.mul_zero, Nat.add_zero]
    rw [hw]
    omega
  exact ⟨mix_lt he hl,
    (mix_at he hl 5 rfl rfl : _ / 2 ^ 24 % 2 ^ 6 = op),
    guard_eq (mix_at he hl 4 rfl rfl) (mix_at he hl 3 rfl rfl),
    field_eq (mix_at he hl 2 rfl rfl),
    low_mod (mix_at he hl 0 rfl rfl),
    (zeros_eq (mix_at he hl 1 rfl rfl))⟩

theorem shape46 (op k : Nat) (g : Guard) (v1 : Fin 64) (v2 : Fin 32) {w : Nat} (hop : op < 64) (hk : k < 16)
    (hw : w = head op g + place v1.val 14 + place v2.val 8 + k) :
    w < 2 ^ 30 ∧
    opOf w = op ∧
    guardOf w = g ∧
    field w 14 64 = v1 ∧
    field w 8 32 = v2 ∧
    w % 16 = k ∧
    (zeros w 4 4 && zeros w 13 1) = true := by
  have hl : Mixed [(4, k), (4, 0), (5, v2.val), (1, 0), (6, v1.val), (3, g.gp.val), (1, g.gn.toNat), (6, op)] :=
    ⟨hk, by decide, v2.isLt, by decide, v1.isLt, g.gp.isLt, g.gn.toNat_lt, hop, trivial⟩
  have he : w = mix [(4, k), (4, 0), (5, v2.val), (1, 0), (6, v1.val), (3, g.gp.val), (1, g.gn.toNat), (6, op)] := by
    clear hl
    simp only [head, place, placeB, Nat.reducePow] at hw
    simp only [mix, Nat.reducePow, Nat.mul_add, ← Nat.mul_assoc, Nat.reduceMul, Nat.mul_zero, Nat.add_zero]
    rw [hw]
    omega
  exact ⟨mix_lt he hl,
    (mix_at he hl 7 rfl rfl : _ / 2 ^ 24 % 2 ^ 6 = op),
    guard_eq (mix_at he hl 6 rfl rfl) (mix_at he hl 5 rfl rfl),
    field_eq (mix_at he hl 4 rfl rfl),
    field_eq (mix_at he hl 2 rfl rfl),
    low_mod (mix_at he hl 0 rfl rfl),
    (and_eq (zeros_eq (mix_at he hl 1 rfl rfl)) (zeros_eq (mix_at he hl 3 rfl rfl)))⟩

theorem shape47 (op k : Nat) (g : Guard) (v1 : Fin 64) (v2 : Fin 16) {w : Nat} (hop : op < 64) (hk : k < 16)
    (hw : w = head op g + place v1.val 14 + place v2.val 4 + k) :
    w < 2 ^ 30 ∧
    opOf w = op ∧
    guardOf w = g ∧
    field w 14 64 = v1 ∧
    field w 4 16 = v2 ∧
    w % 16 = k ∧
    (zeros w 8 6) = true := by
  have hl : Mixed [(4, k), (4, v2.val), (6, 0), (6, v1.val), (3, g.gp.val), (1, g.gn.toNat), (6, op)] :=
    ⟨hk, v2.isLt, by decide, v1.isLt, g.gp.isLt, g.gn.toNat_lt, hop, trivial⟩
  have he : w = mix [(4, k), (4, v2.val), (6, 0), (6, v1.val), (3, g.gp.val), (1, g.gn.toNat), (6, op)] := by
    clear hl
    simp only [head, place, placeB, Nat.reducePow] at hw
    simp only [mix, Nat.reducePow, Nat.mul_add, ← Nat.mul_assoc, Nat.reduceMul, Nat.mul_zero, Nat.add_zero]
    rw [hw]
    omega
  exact ⟨mix_lt he hl,
    (mix_at he hl 6 rfl rfl : _ / 2 ^ 24 % 2 ^ 6 = op),
    guard_eq (mix_at he hl 5 rfl rfl) (mix_at he hl 4 rfl rfl),
    field_eq (mix_at he hl 3 rfl rfl),
    field_eq (mix_at he hl 1 rfl rfl),
    low_mod (mix_at he hl 0 rfl rfl),
    (zeros_eq (mix_at he hl 2 rfl rfl))⟩

theorem shape48 (op k : Nat) (g : Guard) (v1 : Fin 64) (v2 : Fin 64) {w : Nat} (hop : op < 64) (hk : k < 16)
    (hw : w = head op g + place v1.val 14 + place v2.val 8 + k) :
    w < 2 ^ 30 ∧
    opOf w = op ∧
    guardOf w = g ∧
    field w 14 64 = v1 ∧
    field w 8 64 = v2 ∧
    w % 16 = k ∧
    (zeros w 4 4) = true := by
  have hl : Mixed [(4, k), (4, 0), (6, v2.val), (6, v1.val), (3, g.gp.val), (1, g.gn.toNat), (6, op)] :=
    ⟨hk, by decide, v2.isLt, v1.isLt, g.gp.isLt, g.gn.toNat_lt, hop, trivial⟩
  have he : w = mix [(4, k), (4, 0), (6, v2.val), (6, v1.val), (3, g.gp.val), (1, g.gn.toNat), (6, op)] := by
    clear hl
    simp only [head, place, placeB, Nat.reducePow] at hw
    simp only [mix, Nat.reducePow, Nat.mul_add, ← Nat.mul_assoc, Nat.reduceMul, Nat.mul_zero, Nat.add_zero]
    rw [hw]
    omega
  exact ⟨mix_lt he hl,
    (mix_at he hl 6 rfl rfl : _ / 2 ^ 24 % 2 ^ 6 = op),
    guard_eq (mix_at he hl 5 rfl rfl) (mix_at he hl 4 rfl rfl),
    field_eq (mix_at he hl 3 rfl rfl),
    field_eq (mix_at he hl 2 rfl rfl),
    low_mod (mix_at he hl 0 rfl rfl),
    (zeros_eq (mix_at he hl 1 rfl rfl))⟩

theorem shape49 (op k : Nat) (g : Guard) (v1 : Fin 32) {w : Nat} (hop : op < 64) (hk : k < 32)
    (hw : w = head op g + place v1.val 15 + k) :
    w < 2 ^ 30 ∧
    opOf w = op ∧
    guardOf w = g ∧
    field w 15 32 = v1 ∧
    w % 32 = k ∧
    (zeros w 5 10) = true := by
  have hl : Mixed [(5, k), (10, 0), (5, v1.val), (3, g.gp.val), (1, g.gn.toNat), (6, op)] :=
    ⟨hk, by decide, v1.isLt, g.gp.isLt, g.gn.toNat_lt, hop, trivial⟩
  have he : w = mix [(5, k), (10, 0), (5, v1.val), (3, g.gp.val), (1, g.gn.toNat), (6, op)] := by
    clear hl
    simp only [head, place, placeB, Nat.reducePow] at hw
    simp only [mix, Nat.reducePow, Nat.mul_add, ← Nat.mul_assoc, Nat.reduceMul, Nat.mul_zero, Nat.add_zero]
    rw [hw]
    omega
  exact ⟨mix_lt he hl,
    (mix_at he hl 5 rfl rfl : _ / 2 ^ 24 % 2 ^ 6 = op),
    guard_eq (mix_at he hl 4 rfl rfl) (mix_at he hl 3 rfl rfl),
    field_eq (mix_at he hl 2 rfl rfl),
    low_mod (mix_at he hl 0 rfl rfl),
    (zeros_eq (mix_at he hl 1 rfl rfl))⟩

/-! ### The instructions -/

theorem add (g : Guard) (d : Fin 32) (a : Fin 32) (b : Fin 32) : Statement (.add g d a b) := by
  intro sl hs hwf
  cases hs
  obtain ⟨hw, hop, hg, h1, h2, h3, hs⟩ := shape1 0x00 0 g d a b (by decide) (by decide) (Nat.add_zero _).symm
  refine ⟨_, rfl, hw, decode_of_read ((readC00_of hop).trans ?_) hwf⟩
  unfold readC00
  rw [hs, hg, h1, h2, h3]
  rfl
theorem sub (g : Guard) (d : Fin 32) (a : Fin 32) (b : Fin 32) : Statement (.sub g d a b) := by
  intro sl hs hwf
  cases hs
  obtain ⟨hw, hop, hg, h1, h2, h3, hs⟩ := shape1 0x00 1 g d a b (by decide) (by decide) rfl
  refine ⟨_, rfl, hw, decode_of_read ((readC00_of hop).trans ?_) hwf⟩
  unfold readC00
  rw [hs, hg, h1, h2, h3]
  rfl
theorem mul (g : Guard) (d : Fin 32) (a : Fin 32) (b : Fin 32) : Statement (.mul g d a b) := by
  intro sl hs hwf
  cases hs
  obtain ⟨hw, hop, hg, h1, h2, h3, hs⟩ := shape1 0x00 2 g d a b (by decide) (by decide) rfl
  refine ⟨_, rfl, hw, decode_of_read ((readC00_of hop).trans ?_) hwf⟩
  unfold readC00
  rw [hs, hg, h1, h2, h3]
  rfl
theorem mulh (g : Guard) (d : Fin 32) (a : Fin 32) (b : Fin 32) : Statement (.mulh g d a b) := by
  intro sl hs hwf
  cases hs
  obtain ⟨hw, hop, hg, h1, h2, h3, hs⟩ := shape1 0x00 3 g d a b (by decide) (by decide) rfl
  refine ⟨_, rfl, hw, decode_of_read ((readC00_of hop).trans ?_) hwf⟩
  unfold readC00
  rw [hs, hg, h1, h2, h3]
  rfl
theorem mulhu (g : Guard) (d : Fin 32) (a : Fin 32) (b : Fin 32) : Statement (.mulhu g d a b) := by
  intro sl hs hwf
  cases hs
  obtain ⟨hw, hop, hg, h1, h2, h3, hs⟩ := shape1 0x00 4 g d a b (by decide) (by decide) rfl
  refine ⟨_, rfl, hw, decode_of_read ((readC00_of hop).trans ?_) hwf⟩
  unfold readC00
  rw [hs, hg, h1, h2, h3]
  rfl
theorem div (g : Guard) (d : Fin 32) (a : Fin 32) (b : Fin 32) : Statement (.div g d a b) := by
  intro sl hs hwf
  cases hs
  obtain ⟨hw, hop, hg, h1, h2, h3, hs⟩ := shape1 0x00 5 g d a b (by decide) (by decide) rfl
  refine ⟨_, rfl, hw, decode_of_read ((readC00_of hop).trans ?_) hwf⟩
  unfold readC00
  rw [hs, hg, h1, h2, h3]
  rfl
theorem divu (g : Guard) (d : Fin 32) (a : Fin 32) (b : Fin 32) : Statement (.divu g d a b) := by
  intro sl hs hwf
  cases hs
  obtain ⟨hw, hop, hg, h1, h2, h3, hs⟩ := shape1 0x00 6 g d a b (by decide) (by decide) rfl
  refine ⟨_, rfl, hw, decode_of_read ((readC00_of hop).trans ?_) hwf⟩
  unfold readC00
  rw [hs, hg, h1, h2, h3]
  rfl
theorem rem (g : Guard) (d : Fin 32) (a : Fin 32) (b : Fin 32) : Statement (.rem g d a b) := by
  intro sl hs hwf
  cases hs
  obtain ⟨hw, hop, hg, h1, h2, h3, hs⟩ := shape1 0x00 7 g d a b (by decide) (by decide) rfl
  refine ⟨_, rfl, hw, decode_of_read ((readC00_of hop).trans ?_) hwf⟩
  unfold readC00
  rw [hs, hg, h1, h2, h3]
  rfl
theorem remu (g : Guard) (d : Fin 32) (a : Fin 32) (b : Fin 32) : Statement (.remu g d a b) := by
  intro sl hs hwf
  cases hs
  obtain ⟨hw, hop, hg, h1, h2, h3, hs⟩ := shape1 0x00 8 g d a b (by decide) (by decide) rfl
  refine ⟨_, rfl, hw, decode_of_read ((readC00_of hop).trans ?_) hwf⟩
  unfold readC00
  rw [hs, hg, h1, h2, h3]
  rfl
theorem and (g : Guard) (d : Fin 32) (a : Fin 32) (b : Fin 32) : Statement (.and g d a b) := by
  intro sl hs hwf
  cases hs
  obtain ⟨hw, hop, hg, h1, h2, h3, hs⟩ := shape1 0x00 9 g d a b (by decide) (by decide) rfl
  refine ⟨_, rfl, hw, decode_of_read ((readC00_of hop).trans ?_) hwf⟩
  unfold readC00
  rw [hs, hg, h1, h2, h3]
  rfl
theorem or (g : Guard) (d : Fin 32) (a : Fin 32) (b : Fin 32) : Statement (.or g d a b) := by
  intro sl hs hwf
  cases hs
  obtain ⟨hw, hop, hg, h1, h2, h3, hs⟩ := shape1 0x00 10 g d a b (by decide) (by decide) rfl
  refine ⟨_, rfl, hw, decode_of_read ((readC00_of hop).trans ?_) hwf⟩
  unfold readC00
  rw [hs, hg, h1, h2, h3]
  rfl
theorem xor (g : Guard) (d : Fin 32) (a : Fin 32) (b : Fin 32) : Statement (.xor g d a b) := by
  intro sl hs hwf
  cases hs
  obtain ⟨hw, hop, hg, h1, h2, h3, hs⟩ := shape1 0x00 11 g d a b (by decide) (by decide) rfl
  refine ⟨_, rfl, hw, decode_of_read ((readC00_of hop).trans ?_) hwf⟩
  unfold readC00
  rw [hs, hg, h1, h2, h3]
  rfl
theorem andn (g : Guard) (d : Fin 32) (a : Fin 32) (b : Fin 32) : Statement (.andn g d a b) := by
  intro sl hs hwf
  cases hs
  obtain ⟨hw, hop, hg, h1, h2, h3, hs⟩ := shape1 0x00 12 g d a b (by decide) (by decide) rfl
  refine ⟨_, rfl, hw, decode_of_read ((readC00_of hop).trans ?_) hwf⟩
  unfold readC00
  rw [hs, hg, h1, h2, h3]
  rfl
theorem shl (g : Guard) (d : Fin 32) (a : Fin 32) (b : Fin 32) : Statement (.shl g d a b) := by
  intro sl hs hwf
  cases hs
  obtain ⟨hw, hop, hg, h1, h2, h3, hs⟩ := shape1 0x00 13 g d a b (by decide) (by decide) rfl
  refine ⟨_, rfl, hw, decode_of_read ((readC00_of hop).trans ?_) hwf⟩
  unfold readC00
  rw [hs, hg, h1, h2, h3]
  rfl
theorem shr (g : Guard) (d : Fin 32) (a : Fin 32) (b : Fin 32) : Statement (.shr g d a b) := by
  intro sl hs hwf
  cases hs
  obtain ⟨hw, hop, hg, h1, h2, h3, hs⟩ := shape1 0x00 14 g d a b (by decide) (by decide) rfl
  refine ⟨_, rfl, hw, decode_of_read ((readC00_of hop).trans ?_) hwf⟩
  unfold readC00
  rw [hs, hg, h1, h2, h3]
  rfl
theorem sra (g : Guard) (d : Fin 32) (a : Fin 32) (b : Fin 32) : Statement (.sra g d a b) := by
  intro sl hs hwf
  cases hs
  obtain ⟨hw, hop, hg, h1, h2, h3, hs⟩ := shape1 0x00 15 g d a b (by decide) (by decide) rfl
  refine ⟨_, rfl, hw, decode_of_read ((readC00_of hop).trans ?_) hwf⟩
  unfold readC00
  rw [hs, hg, h1, h2, h3]
  rfl
theorem ror (g : Guard) (d : Fin 32) (a : Fin 32) (b : Fin 32) : Statement (.ror g d a b) := by
  intro sl hs hwf
  cases hs
  obtain ⟨hw, hop, hg, h1, h2, h3, hs⟩ := shape1 0x00 16 g d a b (by decide) (by decide) rfl
  refine ⟨_, rfl, hw, decode_of_read ((readC00_of hop).trans ?_) hwf⟩
  unfold readC00
  rw [hs, hg, h1, h2, h3]
  rfl
theorem min (g : Guard) (d : Fin 32) (a : Fin 32) (b : Fin 32) : Statement (.min g d a b) := by
  intro sl hs hwf
  cases hs
  obtain ⟨hw, hop, hg, h1, h2, h3, hs⟩ := shape1 0x00 17 g d a b (by decide) (by decide) rfl
  refine ⟨_, rfl, hw, decode_of_read ((readC00_of hop).trans ?_) hwf⟩
  unfold readC00
  rw [hs, hg, h1, h2, h3]
  rfl
theorem max (g : Guard) (d : Fin 32) (a : Fin 32) (b : Fin 32) : Statement (.max g d a b) := by
  intro sl hs hwf
  cases hs
  obtain ⟨hw, hop, hg, h1, h2, h3, hs⟩ := shape1 0x00 18 g d a b (by decide) (by decide) rfl
  refine ⟨_, rfl, hw, decode_of_read ((readC00_of hop).trans ?_) hwf⟩
  unfold readC00
  rw [hs, hg, h1, h2, h3]
  rfl
theorem minu (g : Guard) (d : Fin 32) (a : Fin 32) (b : Fin 32) : Statement (.minu g d a b) := by
  intro sl hs hwf
  cases hs
  obtain ⟨hw, hop, hg, h1, h2, h3, hs⟩ := shape1 0x00 19 g d a b (by decide) (by decide) rfl
  refine ⟨_, rfl, hw, decode_of_read ((readC00_of hop).trans ?_) hwf⟩
  unfold readC00
  rw [hs, hg, h1, h2, h3]
  rfl
theorem maxu (g : Guard) (d : Fin 32) (a : Fin 32) (b : Fin 32) : Statement (.maxu g d a b) := by
  intro sl hs hwf
  cases hs
  obtain ⟨hw, hop, hg, h1, h2, h3, hs⟩ := shape1 0x00 20 g d a b (by decide) (by decide) rfl
  refine ⟨_, rfl, hw, decode_of_read ((readC00_of hop).trans ?_) hwf⟩
  unfold readC00
  rw [hs, hg, h1, h2, h3]
  rfl
theorem addCw (g : Guard) (d : Fin 32) (a : Fin 32) (cw : Fin 256) : Statement (.addCw g d a cw) := by
  intro sl hs hwf
  cases hs
  obtain ⟨hw, hop, hg, h1, h2, h3, hs⟩ := shape2 0x01 0 g d a cw (by decide) (by decide) (Nat.add_zero _).symm
  refine ⟨_, rfl, hw, decode_of_read ((readC01_of hop).trans ?_) hwf⟩
  unfold readC01
  rw [hs, hg, h1, h2, h3]
  rfl
theorem andCw (g : Guard) (d : Fin 32) (a : Fin 32) (cw : Fin 256) : Statement (.andCw g d a cw) := by
  intro sl hs hwf
  cases hs
  obtain ⟨hw, hop, hg, h1, h2, h3, hs⟩ := shape2 0x01 1 g d a cw (by decide) (by decide) rfl
  refine ⟨_, rfl, hw, decode_of_read ((readC01_of hop).trans ?_) hwf⟩
  unfold readC01
  rw [hs, hg, h1, h2, h3]
  rfl
theorem orCw (g : Guard) (d : Fin 32) (a : Fin 32) (cw : Fin 256) : Statement (.orCw g d a cw) := by
  intro sl hs hwf
  cases hs
  obtain ⟨hw, hop, hg, h1, h2, h3, hs⟩ := shape2 0x01 2 g d a cw (by decide) (by decide) rfl
  refine ⟨_, rfl, hw, decode_of_read ((readC01_of hop).trans ?_) hwf⟩
  unfold readC01
  rw [hs, hg, h1, h2, h3]
  rfl
theorem xorCw (g : Guard) (d : Fin 32) (a : Fin 32) (cw : Fin 256) : Statement (.xorCw g d a cw) := by
  intro sl hs hwf
  cases hs
  obtain ⟨hw, hop, hg, h1, h2, h3, hs⟩ := shape2 0x01 3 g d a cw (by decide) (by decide) rfl
  refine ⟨_, rfl, hw, decode_of_read ((readC01_of hop).trans ?_) hwf⟩
  unfold readC01
  rw [hs, hg, h1, h2, h3]
  rfl
theorem shlCw (g : Guard) (d : Fin 32) (a : Fin 32) (cw : Fin 256) : Statement (.shlCw g d a cw) := by
  intro sl hs hwf
  cases hs
  obtain ⟨hw, hop, hg, h1, h2, h3, hs⟩ := shape2 0x02 0 g d a cw (by decide) (by decide) (Nat.add_zero _).symm
  refine ⟨_, rfl, hw, decode_of_read ((readC02_of hop).trans ?_) hwf⟩
  unfold readC02
  rw [hs, hg, h1, h2, h3]
  rfl
theorem shrCw (g : Guard) (d : Fin 32) (a : Fin 32) (cw : Fin 256) : Statement (.shrCw g d a cw) := by
  intro sl hs hwf
  cases hs
  obtain ⟨hw, hop, hg, h1, h2, h3, hs⟩ := shape2 0x02 1 g d a cw (by decide) (by decide) rfl
  refine ⟨_, rfl, hw, decode_of_read ((readC02_of hop).trans ?_) hwf⟩
  unfold readC02
  rw [hs, hg, h1, h2, h3]
  rfl
theorem sraCw (g : Guard) (d : Fin 32) (a : Fin 32) (cw : Fin 256) : Statement (.sraCw g d a cw) := by
  intro sl hs hwf
  cases hs
  obtain ⟨hw, hop, hg, h1, h2, h3, hs⟩ := shape2 0x02 2 g d a cw (by decide) (by decide) rfl
  refine ⟨_, rfl, hw, decode_of_read ((readC02_of hop).trans ?_) hwf⟩
  unfold readC02
  rw [hs, hg, h1, h2, h3]
  rfl
theorem mulCw (g : Guard) (d : Fin 32) (a : Fin 32) (cw : Fin 256) : Statement (.mulCw g d a cw) := by
  intro sl hs hwf
  cases hs
  obtain ⟨hw, hop, hg, h1, h2, h3, hs⟩ := shape2 0x02 3 g d a cw (by decide) (by decide) rfl
  refine ⟨_, rfl, hw, decode_of_read ((readC02_of hop).trans ?_) hwf⟩
  unfold readC02
  rw [hs, hg, h1, h2, h3]
  rfl
theorem cmpeq (g : Guard) (d : Fin 8) (a : Fin 32) (b : Fin 32) : Statement (.cmpeq g d a b) := by
  intro sl hs hwf
  cases hs
  obtain ⟨hw, hop, hg, h1, h2, h3, hs, hz⟩ := shape3 0x03 0 g d a b (by decide) (by decide) (Nat.add_zero _).symm
  refine ⟨_, rfl, hw, decode_of_read ((readC03_of hop).trans ?_) hwf⟩
  unfold readC03
  rw [hs, hg, h1, h2, h3, hz]
  rfl
theorem cmpne (g : Guard) (d : Fin 8) (a : Fin 32) (b : Fin 32) : Statement (.cmpne g d a b) := by
  intro sl hs hwf
  cases hs
  obtain ⟨hw, hop, hg, h1, h2, h3, hs, hz⟩ := shape3 0x03 1 g d a b (by decide) (by decide) rfl
  refine ⟨_, rfl, hw, decode_of_read ((readC03_of hop).trans ?_) hwf⟩
  unfold readC03
  rw [hs, hg, h1, h2, h3, hz]
  rfl
theorem cmplt (g : Guard) (d : Fin 8) (a : Fin 32) (b : Fin 32) : Statement (.cmplt g d a b) := by
  intro sl hs hwf
  cases hs
  obtain ⟨hw, hop, hg, h1, h2, h3, hs, hz⟩ := shape3 0x03 2 g d a b (by decide) (by decide) rfl
  refine ⟨_, rfl, hw, decode_of_read ((readC03_of hop).trans ?_) hwf⟩
  unfold readC03
  rw [hs, hg, h1, h2, h3, hz]
  rfl
theorem cmpge (g : Guard) (d : Fin 8) (a : Fin 32) (b : Fin 32) : Statement (.cmpge g d a b) := by
  intro sl hs hwf
  cases hs
  obtain ⟨hw, hop, hg, h1, h2, h3, hs, hz⟩ := shape3 0x03 3 g d a b (by decide) (by decide) rfl
  refine ⟨_, rfl, hw, decode_of_read ((readC03_of hop).trans ?_) hwf⟩
  unfold readC03
  rw [hs, hg, h1, h2, h3, hz]
  rfl
theorem cmpltu (g : Guard) (d : Fin 8) (a : Fin 32) (b : Fin 32) : Statement (.cmpltu g d a b) := by
  intro sl hs hwf
  cases hs
  obtain ⟨hw, hop, hg, h1, h2, h3, hs, hz⟩ := shape3 0x03 4 g d a b (by decide) (by decide) rfl
  refine ⟨_, rfl, hw, decode_of_read ((readC03_of hop).trans ?_) hwf⟩
  unfold readC03
  rw [hs, hg, h1, h2, h3, hz]
  rfl
theorem cmpgeu (g : Guard) (d : Fin 8) (a : Fin 32) (b : Fin 32) : Statement (.cmpgeu g d a b) := by
  intro sl hs hwf
  cases hs
  obtain ⟨hw, hop, hg, h1, h2, h3, hs, hz⟩ := shape3 0x03 5 g d a b (by decide) (by decide) rfl
  refine ⟨_, rfl, hw, decode_of_read ((readC03_of hop).trans ?_) hwf⟩
  unfold readC03
  rw [hs, hg, h1, h2, h3, hz]
  rfl
theorem cmpeqCw (g : Guard) (d : Fin 8) (a : Fin 32) (cw : Fin 256) : Statement (.cmpeqCw g d a cw) := by
  intro sl hs hwf
  cases hs
  obtain ⟨hw, hop, hg, h1, h2, h3, hs, hz⟩ := shape4 0x04 0 g d a cw (by decide) (by decide) (Nat.add_zero _).symm
  refine ⟨_, rfl, hw, decode_of_read ((readC04_of hop).trans ?_) hwf⟩
  unfold readC04
  rw [hs, hg, h1, h2, h3, hz]
  rfl
theorem cmpneCw (g : Guard) (d : Fin 8) (a : Fin 32) (cw : Fin 256) : Statement (.cmpneCw g d a cw) := by
  intro sl hs hwf
  cases hs
  obtain ⟨hw, hop, hg, h1, h2, h3, hs, hz⟩ := shape4 0x04 1 g d a cw (by decide) (by decide) rfl
  refine ⟨_, rfl, hw, decode_of_read ((readC04_of hop).trans ?_) hwf⟩
  unfold readC04
  rw [hs, hg, h1, h2, h3, hz]
  rfl
theorem cmpltCw (g : Guard) (d : Fin 8) (a : Fin 32) (cw : Fin 256) : Statement (.cmpltCw g d a cw) := by
  intro sl hs hwf
  cases hs
  obtain ⟨hw, hop, hg, h1, h2, h3, hs, hz⟩ := shape4 0x04 2 g d a cw (by decide) (by decide) rfl
  refine ⟨_, rfl, hw, decode_of_read ((readC04_of hop).trans ?_) hwf⟩
  unfold readC04
  rw [hs, hg, h1, h2, h3, hz]
  rfl
theorem cmpltuCw (g : Guard) (d : Fin 8) (a : Fin 32) (cw : Fin 256) : Statement (.cmpltuCw g d a cw) := by
  intro sl hs hwf
  cases hs
  obtain ⟨hw, hop, hg, h1, h2, h3, hs, hz⟩ := shape4 0x04 3 g d a cw (by decide) (by decide) rfl
  refine ⟨_, rfl, hw, decode_of_read ((readC04_of hop).trans ?_) hwf⟩
  unfold readC04
  rw [hs, hg, h1, h2, h3, hz]
  rfl
theorem pand (g : Guard) (d : Fin 8) (a : Fin 8) (b : Fin 8) : Statement (.pand g d a b) := by
  intro sl hs hwf
  cases hs
  obtain ⟨hw, hop, hg, h1, h2, h3, hs, hz⟩ := shape5 0x05 0 g d a b (by decide) (by decide) (Nat.add_zero _).symm
  refine ⟨_, rfl, hw, decode_of_read ((readC05_of hop).trans ?_) hwf⟩
  unfold readC05
  rw [hs, hg, h1, h2, h3, hz]
  rfl
theorem por (g : Guard) (d : Fin 8) (a : Fin 8) (b : Fin 8) : Statement (.por g d a b) := by
  intro sl hs hwf
  cases hs
  obtain ⟨hw, hop, hg, h1, h2, h3, hs, hz⟩ := shape5 0x05 1 g d a b (by decide) (by decide) rfl
  refine ⟨_, rfl, hw, decode_of_read ((readC05_of hop).trans ?_) hwf⟩
  unfold readC05
  rw [hs, hg, h1, h2, h3, hz]
  rfl
theorem pxor (g : Guard) (d : Fin 8) (a : Fin 8) (b : Fin 8) : Statement (.pxor g d a b) := by
  intro sl hs hwf
  cases hs
  obtain ⟨hw, hop, hg, h1, h2, h3, hs, hz⟩ := shape5 0x05 2 g d a b (by decide) (by decide) rfl
  refine ⟨_, rfl, hw, decode_of_read ((readC05_of hop).trans ?_) hwf⟩
  unfold readC05
  rw [hs, hg, h1, h2, h3, hz]
  rfl
theorem pandn (g : Guard) (d : Fin 8) (a : Fin 8) (b : Fin 8) : Statement (.pandn g d a b) := by
  intro sl hs hwf
  cases hs
  obtain ⟨hw, hop, hg, h1, h2, h3, hs, hz⟩ := shape5 0x05 3 g d a b (by decide) (by decide) rfl
  refine ⟨_, rfl, hw, decode_of_read ((readC05_of hop).trans ?_) hwf⟩
  unfold readC05
  rw [hs, hg, h1, h2, h3, hz]
  rfl
theorem pmovx (g : Guard) (d : Fin 32) (a : Fin 8) : Statement (.pmovx g d a) := by
  intro sl hs hwf
  cases hs
  obtain ⟨hw, hop, hg, h1, h2, hs, hz⟩ := shape6 0x05 4 g d a (by decide) (by decide) rfl
  refine ⟨_, rfl, hw, decode_of_read ((readC05_of hop).trans ?_) hwf⟩
  unfold readC05
  rw [hs, hg, h1, h2, hz]
  rfl
theorem extu (g : Guard) (d : Fin 32) (a : Fin 32) (b : Fin 32) : Statement (.extu g d a b) := by
  intro sl hs hwf
  cases hs
  obtain ⟨hw, hop, hg, h1, h2, h3, hs⟩ := shape1 0x06 0 g d a b (by decide) (by decide) (Nat.add_zero _).symm
  refine ⟨_, rfl, hw, decode_of_read ((readC06_of hop).trans ?_) hwf⟩
  unfold readC06
  rw [hs, hg, h1, h2, h3]
  rfl
theorem exts (g : Guard) (d : Fin 32) (a : Fin 32) (b : Fin 32) : Statement (.exts g d a b) := by
  intro sl hs hwf
  cases hs
  obtain ⟨hw, hop, hg, h1, h2, h3, hs⟩ := shape1 0x06 1 g d a b (by decide) (by decide) rfl
  refine ⟨_, rfl, hw, decode_of_read ((readC06_of hop).trans ?_) hwf⟩
  unfold readC06
  rw [hs, hg, h1, h2, h3]
  rfl
theorem ins (g : Guard) (d : Fin 32) (a : Fin 32) (b : Fin 32) : Statement (.ins g d a b) := by
  intro sl hs hwf
  cases hs
  obtain ⟨hw, hop, hg, h1, h2, h3, hs⟩ := shape1 0x06 2 g d a b (by decide) (by decide) rfl
  refine ⟨_, rfl, hw, decode_of_read ((readC06_of hop).trans ?_) hwf⟩
  unfold readC06
  rw [hs, hg, h1, h2, h3]
  rfl
theorem clz (g : Guard) (d : Fin 32) (a : Fin 32) : Statement (.clz g d a) := by
  intro sl hs hwf
  cases hs
  obtain ⟨hw, hop, hg, h1, h2, hs, hz⟩ := shape7 0x06 3 g d a (by decide) (by decide) rfl
  refine ⟨_, rfl, hw, decode_of_read ((readC06_of hop).trans ?_) hwf⟩
  unfold readC06
  rw [hs, hg, h1, h2, hz]
  rfl
theorem ctz (g : Guard) (d : Fin 32) (a : Fin 32) : Statement (.ctz g d a) := by
  intro sl hs hwf
  cases hs
  obtain ⟨hw, hop, hg, h1, h2, hs, hz⟩ := shape7 0x06 4 g d a (by decide) (by decide) rfl
  refine ⟨_, rfl, hw, decode_of_read ((readC06_of hop).trans ?_) hwf⟩
  unfold readC06
  rw [hs, hg, h1, h2, hz]
  rfl
theorem popc (g : Guard) (d : Fin 32) (a : Fin 32) : Statement (.popc g d a) := by
  intro sl hs hwf
  cases hs
  obtain ⟨hw, hop, hg, h1, h2, hs, hz⟩ := shape7 0x06 5 g d a (by decide) (by decide) rfl
  refine ⟨_, rfl, hw, decode_of_read ((readC06_of hop).trans ?_) hwf⟩
  unfold readC06
  rw [hs, hg, h1, h2, hz]
  rfl
theorem brev (g : Guard) (d : Fin 32) (a : Fin 32) : Statement (.brev g d a) := by
  intro sl hs hwf
  cases hs
  obtain ⟨hw, hop, hg, h1, h2, hs, hz⟩ := shape7 0x06 6 g d a (by decide) (by decide) rfl
  refine ⟨_, rfl, hw, decode_of_read ((readC06_of hop).trans ?_) hwf⟩
  unfold readC06
  rw [hs, hg, h1, h2, hz]
  rfl
theorem bswap (g : Guard) (d : Fin 32) (a : Fin 32) : Statement (.bswap g d a) := by
  intro sl hs hwf
  cases hs
  obtain ⟨hw, hop, hg, h1, h2, hs, hz⟩ := shape7 0x06 7 g d a (by decide) (by decide) rfl
  refine ⟨_, rfl, hw, decode_of_read ((readC06_of hop).trans ?_) hwf⟩
  unfold readC06
  rw [hs, hg, h1, h2, hz]
  rfl
theorem extuCw (g : Guard) (d : Fin 32) (a : Fin 32) (cw : Fin 256) : Statement (.extuCw g d a cw) := by
  intro sl hs hwf
  cases hs
  obtain ⟨hw, hop, hg, h1, h2, h3, hs⟩ := shape2 0x07 0 g d a cw (by decide) (by decide) (Nat.add_zero _).symm
  refine ⟨_, rfl, hw, decode_of_read ((readC07_of hop).trans ?_) hwf⟩
  unfold readC07
  rw [hs, hg, h1, h2, h3]
  rfl
theorem extsCw (g : Guard) (d : Fin 32) (a : Fin 32) (cw : Fin 256) : Statement (.extsCw g d a cw) := by
  intro sl hs hwf
  cases hs
  obtain ⟨hw, hop, hg, h1, h2, h3, hs⟩ := shape2 0x07 1 g d a cw (by decide) (by decide) rfl
  refine ⟨_, rfl, hw, decode_of_read ((readC07_of hop).trans ?_) hwf⟩
  unfold readC07
  rw [hs, hg, h1, h2, h3]
  rfl
theorem insCw (g : Guard) (d : Fin 32) (a : Fin 32) (cw : Fin 256) : Statement (.insCw g d a cw) := by
  intro sl hs hwf
  cases hs
  obtain ⟨hw, hop, hg, h1, h2, h3, hs⟩ := shape2 0x07 2 g d a cw (by decide) (by decide) rfl
  refine ⟨_, rfl, hw, decode_of_read ((readC07_of hop).trans ?_) hwf⟩
  unfold readC07
  rw [hs, hg, h1, h2, h3]
  rfl
theorem ldc (g : Guard) (d : Fin 32) (cw : Fin 256) : Statement (.ldc g d cw) := by
  intro sl hs hwf
  cases hs
  obtain ⟨hw, hop, hg, h1, h2, hs, hz⟩ := shape8 0x08 0 g d cw (by decide) (by decide) (Nat.add_zero _).symm
  refine ⟨_, rfl, hw, decode_of_read ((readC08_of hop).trans ?_) hwf⟩
  unfold readC08
  rw [hs, hg, h1, h2, hz]
  rfl
theorem lea (g : Guard) (d : Fin 32) (a : Fin 32) (b : Fin 32) : Statement (.lea g d a b) := by
  intro sl hs hwf
  cases hs
  obtain ⟨hw, hop, hg, h1, h2, h3, hs⟩ := shape1 0x09 0 g d a b (by decide) (by decide) (Nat.add_zero _).symm
  refine ⟨_, rfl, hw, decode_of_read ((readC09_of hop).trans ?_) hwf⟩
  unfold readC09
  rw [hs, hg, h1, h2, h3]
  rfl
theorem adda (g : Guard) (d : Fin 32) (a : Fin 32) (b : Fin 32) : Statement (.adda g d a b) := by
  intro sl hs hwf
  cases hs
  obtain ⟨hw, hop, hg, h1, h2, h3, hs⟩ := shape1 0x09 1 g d a b (by decide) (by decide) rfl
  refine ⟨_, rfl, hw, decode_of_read ((readC09_of hop).trans ?_) hwf⟩
  unfold readC09
  rw [hs, hg, h1, h2, h3]
  rfl
theorem pfmt (g : Guard) (d : Fin 32) (a : Fin 32) : Statement (.pfmt g d a) := by
  intro sl hs hwf
  cases hs
  obtain ⟨hw, hop, hg, h1, h2, hs, hz⟩ := shape7 0x09 2 g d a (by decide) (by decide) rfl
  refine ⟨_, rfl, hw, decode_of_read ((readC09_of hop).trans ?_) hwf⟩
  unfold readC09
  rw [hs, hg, h1, h2, hz]
  rfl
theorem sfmt (g : Guard) (d : Fin 32) (a : Fin 32) (b : Fin 32) : Statement (.sfmt g d a b) := by
  intro sl hs hwf
  cases hs
  obtain ⟨hw, hop, hg, h1, h2, h3, hs⟩ := shape1 0x09 3 g d a b (by decide) (by decide) rfl
  refine ⟨_, rfl, hw, decode_of_read ((readC09_of hop).trans ?_) hwf⟩
  unfold readC09
  rw [hs, hg, h1, h2, h3]
  rfl
theorem leaCw (g : Guard) (d : Fin 32) (a : Fin 32) (cw : Fin 256) : Statement (.leaCw g d a cw) := by
  intro sl hs hwf
  cases hs
  obtain ⟨hw, hop, hg, h1, h2, h3, hs⟩ := shape2 0x0A 0 g d a cw (by decide) (by decide) (Nat.add_zero _).symm
  refine ⟨_, rfl, hw, decode_of_read ((readC0A_of hop).trans ?_) hwf⟩
  unfold readC0A
  rw [hs, hg, h1, h2, h3]
  rfl
theorem addaCw (g : Guard) (d : Fin 32) (a : Fin 32) (cw : Fin 256) : Statement (.addaCw g d a cw) := by
  intro sl hs hwf
  cases hs
  obtain ⟨hw, hop, hg, h1, h2, h3, hs⟩ := shape2 0x0A 1 g d a cw (by decide) (by decide) rfl
  refine ⟨_, rfl, hw, decode_of_read ((readC0A_of hop).trans ?_) hwf⟩
  unfold readC0A
  rw [hs, hg, h1, h2, h3]
  rfl
theorem sfmtCw (g : Guard) (d : Fin 32) (a : Fin 32) (cw : Fin 256) : Statement (.sfmtCw g d a cw) := by
  intro sl hs hwf
  cases hs
  obtain ⟨hw, hop, hg, h1, h2, h3, hs⟩ := shape2 0x0A 3 g d a cw (by decide) (by decide) rfl
  refine ⟨_, rfl, hw, decode_of_read ((readC0A_of hop).trans ?_) hwf⟩
  unfold readC0A
  rw [hs, hg, h1, h2, h3]
  rfl
theorem br (g : Guard) (off : BitVec 20) : Statement (.br g off) := by
  intro sl hs hwf
  cases hs
  obtain ⟨hw, hop, hg, h1⟩ := shape9 0x10 g off (by decide) rfl
  refine ⟨_, rfl, hw, decode_of_read ((readC10_of hop).trans ?_) hwf⟩
  unfold readC10
  rw [hg, h1]
theorem call (g : Guard) (off : BitVec 20) : Statement (.call g off) := by
  intro sl hs hwf
  cases hs
  obtain ⟨hw, hop, hg, h1⟩ := shape9 0x11 g off (by decide) rfl
  refine ⟨_, rfl, hw, decode_of_read ((readC11_of hop).trans ?_) hwf⟩
  unfold readC11
  rw [hg, h1]
theorem jr (g : Guard) (a : Fin 32) : Statement (.jr g a) := by
  intro sl hs hwf
  cases hs
  obtain ⟨hw, hop, hg, h1, hs, hz⟩ := shape10 0x12 0 g a (by decide) (by decide) (Nat.add_zero _).symm
  refine ⟨_, rfl, hw, decode_of_read ((readC12_of hop).trans ?_) hwf⟩
  unfold readC12
  rw [hs, hg, h1, hz]
  rfl
theorem ret (g : Guard) : Statement (.ret g) := by
  intro sl hs hwf
  cases hs
  obtain ⟨hw, hop, hg, hs, hz⟩ := shape11 0x12 1 g (by decide) (by decide) rfl
  refine ⟨_, rfl, hw, decode_of_read ((readC12_of hop).trans ?_) hwf⟩
  unfold readC12
  rw [hs, hg, hz]
  rfl
theorem loop (g : Guard) (set : Fin 2) (n : Fin 32) (len : Fin 16384) : Statement (.loop g set n len) := by
  intro sl hs hwf
  cases hs
  obtain ⟨hw, hop, hg, h1, h2, h3⟩ := shape12 0x13 g set n len (by decide) rfl
  refine ⟨_, rfl, hw, decode_of_read ((readC13_of hop).trans ?_) hwf⟩
  unfold readC13
  rw [hg, h1, h2, h3]
theorem lbrk (g : Guard) (set : Fin 2) : Statement (.lbrk g set) := by
  intro sl hs hwf
  cases hs
  obtain ⟨hw, hop, hg, h1, hs, hz⟩ := shape13 0x14 1 g set (by decide) (by decide) rfl
  refine ⟨_, rfl, hw, decode_of_read ((readC14_of hop).trans ?_) hwf⟩
  unfold readC14
  rw [hs, hg, h1, hz]
  rfl
theorem vfromx (g : Guard) (d : Fin 32) (a : Fin 32) (b : Fin 32) : Statement (.vfromx g d a b) := by
  intro sl hs hwf
  cases hs
  obtain ⟨hw, hop, hg, h1, h2, h3, hs⟩ := shape1 0x15 0 g d a b (by decide) (by decide) (Nat.add_zero _).symm
  refine ⟨_, rfl, hw, decode_of_read ((readC15_of hop).trans ?_) hwf⟩
  unfold readC15
  rw [hs, hg, h1, h2, h3]
  rfl
theorem vtox (g : Guard) (d : Fin 32) (a : Fin 32) : Statement (.vtox g d a) := by
  intro sl hs hwf
  cases hs
  obtain ⟨hw, hop, hg, h1, h2, hs, hz⟩ := shape7 0x15 1 g d a (by decide) (by decide) rfl
  refine ⟨_, rfl, hw, decode_of_read ((readC15_of hop).trans ?_) hwf⟩
  unfold readC15
  rw [hs, hg, h1, h2, hz]
  rfl
theorem vtoxh (g : Guard) (d : Fin 32) (a : Fin 32) : Statement (.vtoxh g d a) := by
  intro sl hs hwf
  cases hs
  obtain ⟨hw, hop, hg, h1, h2, hs, hz⟩ := shape7 0x15 2 g d a (by decide) (by decide) rfl
  refine ⟨_, rfl, hw, decode_of_read ((readC15_of hop).trans ?_) hwf⟩
  unfold readC15
  rw [hs, hg, h1, h2, hz]
  rfl
theorem vsplatx (g : Guard) (d : Fin 32) (a : Fin 32) : Statement (.vsplatx g d a) := by
  intro sl hs hwf
  cases hs
  obtain ⟨hw, hop, hg, h1, h2, hs, hz⟩ := shape7 0x15 3 g d a (by decide) (by decide) rfl
  refine ⟨_, rfl, hw, decode_of_read ((readC15_of hop).trans ?_) hwf⟩
  unfold readC15
  rw [hs, hg, h1, h2, hz]
  rfl
theorem ltld (g : Guard) (a : Fin 32) : Statement (.ltld g a) := by
  intro sl hs hwf
  cases hs
  obtain ⟨hw, hop, hg, h1, hs, hz⟩ := shape10 0x16 0 g a (by decide) (by decide) (Nat.add_zero _).symm
  refine ⟨_, rfl, hw, decode_of_read ((readC16_of hop).trans ?_) hwf⟩
  unfold readC16
  rw [hs, hg, h1, hz]
  rfl
theorem sample (g : Guard) (d : Fin 32) (a : Fin 32) (b : Fin 32) : Statement (.sample g d a b) := by
  intro sl hs hwf
  cases hs
  obtain ⟨hw, hop, hg, h1, h2, h3, hs⟩ := shape1 0x17 0 g d a b (by decide) (by decide) (Nat.add_zero _).symm
  refine ⟨_, rfl, hw, decode_of_read ((readC17_of hop).trans ?_) hwf⟩
  unfold readC17
  rw [hs, hg, h1, h2, h3]
  rfl
theorem topkm (g : Guard) (d : Fin 32) (a : Fin 32) (b : Fin 32) : Statement (.topkm g d a b) := by
  intro sl hs hwf
  cases hs
  obtain ⟨hw, hop, hg, h1, h2, h3, hs⟩ := shape1 0x17 1 g d a b (by decide) (by decide) rfl
  refine ⟨_, rfl, hw, decode_of_read ((readC17_of hop).trans ?_) hwf⟩
  unfold readC17
  rw [hs, hg, h1, h2, h3]
  rfl
theorem own (g : Guard) (d : Fin 32) (a : Fin 32) (b : Fin 32) : Statement (.own g d a b) := by
  intro sl hs hwf
  cases hs
  obtain ⟨hw, hop, hg, h1, h2, h3, hs⟩ := shape1 0x17 2 g d a b (by decide) (by decide) rfl
  refine ⟨_, rfl, hw, decode_of_read ((readC17_of hop).trans ?_) hwf⟩
  unfold readC17
  rw [hs, hg, h1, h2, h3]
  rfl
theorem ldN (g : Guard) (d : Fin 32) (a : Fin 32) (b : Fin 32) (w : Fin 4) : Statement (.ldN g d a b w) := by
  intro sl hs hwf
  cases hs
  obtain ⟨hw, hop, hg, h1, h2, h3, h4, hs, hz⟩ := shape14 0x18 0 g d a b w (by decide) (by decide) (Nat.add_zero _).symm
  refine ⟨_, rfl, hw, decode_of_read ((readC18_of hop).trans ?_) hwf⟩
  unfold readC18
  rw [hs, hg, h1, h2, h3, h4, hz]
  rfl
theorem ldI (g : Guard) (d : Fin 32) (a : Fin 32) (b : Fin 32) (w : Fin 4) : Statement (.ldI g d a b w) := by
  intro sl hs hwf
  cases hs
  obtain ⟨hw, hop, hg, h1, h2, h3, h4, hs, hz⟩ := shape14 0x18 1 g d a b w (by decide) (by decide) rfl
  refine ⟨_, rfl, hw, decode_of_read ((readC18_of hop).trans ?_) hwf⟩
  unfold readC18
  rw [hs, hg, h1, h2, h3, h4, hz]
  rfl
theorem ldCw (g : Guard) (d : Fin 32) (a : Fin 32) (cw : Fin 256) (w : Fin 4) : Statement (.ldCw g d a cw w) := by
  intro sl hs hwf
  cases hs
  obtain ⟨hw, hop, hg, h1, h2, h3, h4⟩ := shape15 0x19 g d a cw w (by decide) rfl
  refine ⟨_, rfl, hw, decode_of_read ((readC19_of hop).trans ?_) hwf⟩
  unfold readC19
  rw [hg, h1, h2, h3, h4]
theorem st (g : Guard) (d : Fin 32) (a : Fin 32) (b : Fin 32) (w : Fin 4) : Statement (.st g d a b w) := by
  intro sl hs hwf
  cases hs
  obtain ⟨hw, hop, hg, h1, h2, h3, h4, hz⟩ := shape16 0x1A g d a b w (by decide) rfl
  refine ⟨_, rfl, hw, decode_of_read ((readC1A_of hop).trans ?_) hwf⟩
  unfold readC1A
  rw [hg, h1, h2, h3, h4, hz]
theorem stCw (g : Guard) (d : Fin 32) (a : Fin 32) (cw : Fin 256) (w : Fin 4) : Statement (.stCw g d a cw w) := by
  intro sl hs hwf
  cases hs
  obtain ⟨hw, hop, hg, h1, h2, h3, h4⟩ := shape15 0x1B g d a cw w (by decide) rfl
  refine ⟨_, rfl, hw, decode_of_read ((readC1B_of hop).trans ?_) hwf⟩
  unfold readC1B
  rw [hg, h1, h2, h3, h4]
theorem vld (g : Guard) (d : Fin 32) (a : Fin 32) (b : Fin 32) : Statement (.vld g d a b) := by
  intro sl hs hwf
  cases hs
  obtain ⟨hw, hop, hg, h1, h2, h3, hz⟩ := shape17 0x1C g d a b (by decide) rfl
  refine ⟨_, rfl, hw, decode_of_read ((readC1C_of hop).trans ?_) hwf⟩
  unfold readC1C
  rw [hg, h1, h2, h3, hz]
theorem vst (g : Guard) (d : Fin 32) (a : Fin 32) (b : Fin 32) : Statement (.vst g d a b) := by
  intro sl hs hwf
  cases hs
  obtain ⟨hw, hop, hg, h1, h2, h3, hz⟩ := shape17 0x1D g d a b (by decide) rfl
  refine ⟨_, rfl, hw, decode_of_read ((readC1D_of hop).trans ?_) hwf⟩
  unfold readC1D
  rw [hg, h1, h2, h3, hz]
theorem vldx (g : Guard) (d : Fin 32) (a : Fin 32) (b : Fin 32) (e : Fin 4) : Statement (.vldx g d a b e) := by
  intro sl hs hwf
  cases hs
  obtain ⟨hw, hop, hg, h1, h2, h3, h4, hz⟩ := shape16 0x1E g d a b e (by decide) rfl
  refine ⟨_, rfl, hw, decode_of_read ((readC1E_of hop).trans ?_) hwf⟩
  unfold readC1E
  rw [hg, h1, h2, h3, h4, hz]
theorem vstx (g : Guard) (d : Fin 32) (a : Fin 32) (b : Fin 32) (e : Fin 4) : Statement (.vstx g d a b e) := by
  intro sl hs hwf
  cases hs
  obtain ⟨hw, hop, hg, h1, h2, h3, h4, hz⟩ := shape16 0x1F g d a b e (by decide) rfl
  refine ⟨_, rfl, hw, decode_of_read ((readC1F_of hop).trans ?_) hwf⟩
  unfold readC1F
  rw [hg, h1, h2, h3, h4, hz]
theorem gld (g : Guard) (d : Fin 32) (a : Fin 32) (sc : Fin 8) (w : Fin 4) (ord : Bool) : Statement (.gld g d a sc w ord) := by
  intro sl hs hwf
  cases hs
  obtain ⟨hw, hop, hg, h1, h2, h3, h4, h5, hc, hz⟩ := shape18 0x20 g d a sc w ord (by decide) rfl
  refine ⟨_, rfl, hw, decode_of_read ((readC20_of hop).trans ?_) hwf⟩
  unfold readC20
  rw [hc, hg, h1, h2, h3, h4, h5, hz]
  rfl
theorem gst (g : Guard) (d : Fin 32) (a : Fin 32) (sc : Fin 8) (w : Fin 4) (gack : Bool) (ord : Bool) : Statement (.gst g d a sc w gack ord) := by
  intro sl hs hwf
  cases hs
  obtain ⟨hw, hop, hg, h1, h2, h3, h4, h5, h6, hc, hz⟩ := shape19 0x21 g d a sc w gack ord (by decide) rfl
  refine ⟨_, rfl, hw, decode_of_read ((readC21_of hop).trans ?_) hwf⟩
  unfold readC21
  rw [hc, hg, h1, h2, h3, h4, h5, h6, hz]
  rfl
theorem gvld (g : Guard) (d : Fin 32) (a : Fin 32) (sc : Fin 8) (ord : Bool) : Statement (.gvld g d a sc ord) := by
  intro sl hs hwf
  cases hs
  obtain ⟨hw, hop, hg, h1, h2, h3, h4, hc, hz⟩ := shape20 0x22 g d a sc ord (by decide) rfl
  refine ⟨_, rfl, hw, decode_of_read ((readC22_of hop).trans ?_) hwf⟩
  unfold readC22
  rw [hc, hg, h1, h2, h3, h4, hz]
  rfl
theorem gvst (g : Guard) (d : Fin 32) (a : Fin 32) (sc : Fin 8) (gack : Bool) (ord : Bool) : Statement (.gvst g d a sc gack ord) := by
  intro sl hs hwf
  cases hs
  obtain ⟨hw, hop, hg, h1, h2, h3, h4, h5, hc, hz⟩ := shape21 0x23 g d a sc gack ord (by decide) rfl
  refine ⟨_, rfl, hw, decode_of_read ((readC23_of hop).trans ?_) hwf⟩
  unfold readC23
  rw [hc, hg, h1, h2, h3, h4, h5, hz]
  rfl
theorem gpfDc (g : Guard) (a : Fin 32) (b : Fin 32) : Statement (.gpfDc g a b) := by
  intro sl hs hwf
  cases hs
  obtain ⟨hw, hop, hg, h1, h2, hs, hz⟩ := shape22 0x24 0 g a b (by decide) (by decide) (Nat.add_zero _).symm
  refine ⟨_, rfl, hw, decode_of_read ((readC24_of hop).trans ?_) hwf⟩
  unfold readC24
  rw [hs, hg, h1, h2, hz]
  rfl
theorem gpfLlc (g : Guard) (a : Fin 32) (b : Fin 32) : Statement (.gpfLlc g a b) := by
  intro sl hs hwf
  cases hs
  obtain ⟨hw, hop, hg, h1, h2, hs, hz⟩ := shape22 0x24 1 g a b (by decide) (by decide) rfl
  refine ⟨_, rfl, hw, decode_of_read ((readC24_of hop).trans ?_) hwf⟩
  unfold readC24
  rw [hs, hg, h1, h2, hz]
  rfl
theorem aadd (g : Guard) (d : Fin 32) (a : Fin 32) (b : Fin 32) (o : Bool) (wd : Bool) : Statement (.aadd g d a b o wd) := by
  intro sl hs hwf
  cases hs
  obtain ⟨hw, hop, hg, h1, h2, h3, h4, h5, hz⟩ := shape23 0x25 g d a b o wd (by decide) rfl
  refine ⟨_, rfl, hw, decode_of_read ((readC25_of hop).trans ?_) hwf⟩
  unfold readC25
  rw [hg, h1, h2, h3, h4, h5, hz]
theorem aand (g : Guard) (d : Fin 32) (a : Fin 32) (b : Fin 32) (o : Bool) (wd : Bool) : Statement (.aand g d a b o wd) := by
  intro sl hs hwf
  cases hs
  obtain ⟨hw, hop, hg, h1, h2, h3, h4, h5, hz⟩ := shape23 0x26 g d a b o wd (by decide) rfl
  refine ⟨_, rfl, hw, decode_of_read ((readC26_of hop).trans ?_) hwf⟩
  unfold readC26
  rw [hg, h1, h2, h3, h4, h5, hz]
theorem aor (g : Guard) (d : Fin 32) (a : Fin 32) (b : Fin 32) (o : Bool) (wd : Bool) : Statement (.aor g d a b o wd) := by
  intro sl hs hwf
  cases hs
  obtain ⟨hw, hop, hg, h1, h2, h3, h4, h5, hz⟩ := shape23 0x27 g d a b o wd (by decide) rfl
  refine ⟨_, rfl, hw, decode_of_read ((readC27_of hop).trans ?_) hwf⟩
  unfold readC27
  rw [hg, h1, h2, h3, h4, h5, hz]
theorem axor (g : Guard) (d : Fin 32) (a : Fin 32) (b : Fin 32) (o : Bool) (wd : Bool) : Statement (.axor g d a b o wd) := by
  intro sl hs hwf
  cases hs
  obtain ⟨hw, hop, hg, h1, h2, h3, h4, h5, hz⟩ := shape23 0x28 g d a b o wd (by decide) rfl
  refine ⟨_, rfl, hw, decode_of_read ((readC28_of hop).trans ?_) hwf⟩
  unfold readC28
  rw [hg, h1, h2, h3, h4, h5, hz]
theorem amin (g : Guard) (d : Fin 32) (a : Fin 32) (b : Fin 32) (o : Bool) (un : Bool) (wd : Bool) : Statement (.amin g d a b o un wd) := by
  intro sl hs hwf
  cases hs
  obtain ⟨hw, hop, hg, h1, h2, h3, h4, h5, h6, hz⟩ := shape24 0x29 g d a b o un wd (by decide) rfl
  refine ⟨_, rfl, hw, decode_of_read ((readC29_of hop).trans ?_) hwf⟩
  unfold readC29
  rw [hg, h1, h2, h3, h4, h5, h6, hz]
theorem amax (g : Guard) (d : Fin 32) (a : Fin 32) (b : Fin 32) (o : Bool) (un : Bool) (wd : Bool) : Statement (.amax g d a b o un wd) := by
  intro sl hs hwf
  cases hs
  obtain ⟨hw, hop, hg, h1, h2, h3, h4, h5, h6, hz⟩ := shape24 0x2A g d a b o un wd (by decide) rfl
  refine ⟨_, rfl, hw, decode_of_read ((readC2A_of hop).trans ?_) hwf⟩
  unfold readC2A
  rw [hg, h1, h2, h3, h4, h5, h6, hz]
theorem aswp (g : Guard) (d : Fin 32) (a : Fin 32) (b : Fin 32) (o : Bool) (wd : Bool) : Statement (.aswp g d a b o wd) := by
  intro sl hs hwf
  cases hs
  obtain ⟨hw, hop, hg, h1, h2, h3, h4, h5, hz⟩ := shape23 0x2B g d a b o wd (by decide) rfl
  refine ⟨_, rfl, hw, decode_of_read ((readC2B_of hop).trans ?_) hwf⟩
  unfold readC2B
  rw [hg, h1, h2, h3, h4, h5, hz]
theorem acas (g : Guard) (d : Fin 32) (a : Fin 32) (b : Fin 32) (o : Bool) (wd : Bool) : Statement (.acas g d a b o wd) := by
  intro sl hs hwf
  cases hs
  obtain ⟨hw, hop, hg, h1, h2, h3, h4, h5, hz⟩ := shape23 0x2C g d a b o wd (by decide) rfl
  refine ⟨_, rfl, hw, decode_of_read ((readC2C_of hop).trans ?_) hwf⟩
  unfold readC2C
  rw [hg, h1, h2, h3, h4, h5, hz]
theorem afadd (g : Guard) (d : Fin 32) (a : Fin 32) (b : Fin 32) (o : Bool) : Statement (.afadd g d a b o) := by
  intro sl hs hwf
  cases hs
  obtain ⟨hw, hop, hg, h1, h2, h3, h4, hz⟩ := shape25 0x2D g d a b o (by decide) rfl
  refine ⟨_, rfl, hw, decode_of_read ((readC2D_of hop).trans ?_) hwf⟩
  unfold readC2D
  rw [hg, h1, h2, h3, h4, hz]
theorem vaor (g : Guard) (d : Fin 32) (a : Fin 32) (b : Fin 32) (o : Bool) : Statement (.vaor g d a b o) := by
  intro sl hs hwf
  cases hs
  obtain ⟨hw, hop, hg, h1, h2, h3, h4, hz⟩ := shape25 0x2E g d a b o (by decide) rfl
  refine ⟨_, rfl, hw, decode_of_read ((readC2E_of hop).trans ?_) hwf⟩
  unfold readC2E
  rw [hg, h1, h2, h3, h4, hz]
theorem fenceAcq (g : Guard) (sc : Fin 8) : Statement (.fenceAcq g sc) := by
  intro sl hs hwf
  cases hs
  obtain ⟨hw, hop, hg, h1, hs, hz⟩ := shape26 0x30 1 g sc (by decide) (by decide) rfl
  refine ⟨_, rfl, hw, decode_of_read ((readC30_of hop).trans ?_) hwf⟩
  unfold readC30
  rw [hs, hg, h1, hz]
  rfl
theorem fenceRel (g : Guard) (sc : Fin 8) : Statement (.fenceRel g sc) := by
  intro sl hs hwf
  cases hs
  obtain ⟨hw, hop, hg, h1, hs, hz⟩ := shape26 0x30 2 g sc (by decide) (by decide) rfl
  refine ⟨_, rfl, hw, decode_of_read ((readC30_of hop).trans ?_) hwf⟩
  unfold readC30
  rw [hs, hg, h1, hz]
  rfl
theorem fenceFull (g : Guard) (sc : Fin 8) : Statement (.fenceFull g sc) := by
  intro sl hs hwf
  cases hs
  obtain ⟨hw, hop, hg, h1, hs, hz⟩ := shape26 0x30 3 g sc (by decide) (by decide) rfl
  refine ⟨_, rfl, hw, decode_of_read ((readC30_of hop).trans ?_) hwf⟩
  unfold readC30
  rw [hs, hg, h1, hz]
  rfl
theorem tset (g : Guard) (a : Fin 32) (b : Fin 32) : Statement (.tset g a b) := by
  intro sl hs hwf
  cases hs
  obtain ⟨hw, hop, hg, h1, h2, hs, hz⟩ := shape27 0x31 0 g a b (by decide) (by decide) (Nat.add_zero _).symm
  refine ⟨_, rfl, hw, decode_of_read ((readC31_of hop).trans ?_) hwf⟩
  unfold readC31
  rw [hs, hg, h1, h2, hz]
  rfl
theorem tgen (g : Guard) (d : Fin 32) (a : Fin 32) : Statement (.tgen g d a) := by
  intro sl hs hwf
  cases hs
  obtain ⟨hw, hop, hg, h1, h2, hs, hz⟩ := shape7 0x31 1 g d a (by decide) (by decide) rfl
  refine ⟨_, rfl, hw, decode_of_read ((readC31_of hop).trans ?_) hwf⟩
  unfold readC31
  rw [hs, hg, h1, h2, hz]
  rfl
theorem bara (g : Guard) (b : Fin 8) : Statement (.bara g b) := by
  intro sl hs hwf
  cases hs
  obtain ⟨hw, hop, hg, h1, hs, hz⟩ := shape28 0x32 0 g b (by decide) (by decide) (Nat.add_zero _).symm
  refine ⟨_, rfl, hw, decode_of_read ((readC32_of hop).trans ?_) hwf⟩
  unfold readC32
  rw [hs, hg, h1, hz]
  rfl
theorem bard (g : Guard) (b : Fin 8) : Statement (.bard g b) := by
  intro sl hs hwf
  cases hs
  obtain ⟨hw, hop, hg, h1, hs, hz⟩ := shape28 0x32 1 g b (by decide) (by decide) rfl
  refine ⟨_, rfl, hw, decode_of_read ((readC32_of hop).trans ?_) hwf⟩
  unfold readC32
  rw [hs, hg, h1, hz]
  rfl
theorem barq (g : Guard) (d : Fin 32) (b : Fin 8) : Statement (.barq g d b) := by
  intro sl hs hwf
  cases hs
  obtain ⟨hw, hop, hg, h1, h2, hs, hz⟩ := shape6 0x32 2 g d b (by decide) (by decide) rfl
  refine ⟨_, rfl, hw, decode_of_read ((readC32_of hop).trans ?_) hwf⟩
  unfold readC32
  rw [hs, hg, h1, h2, hz]
  rfl
theorem rdef (g : Guard) (h : Fin 16) (a : Fin 32) : Statement (.rdef g h a) := by
  intro sl hs hwf
  cases hs
  obtain ⟨hw, hop, hg, h1, h2, hs, hz⟩ := shape29 0x33 0 g h a (by decide) (by decide) (Nat.add_zero _).symm
  refine ⟨_, rfl, hw, decode_of_read ((readC33_of hop).trans ?_) hwf⟩
  unfold readC33
  rw [hs, hg, h1, h2, hz]
  rfl
theorem radvHd (g : Guard) (h : Fin 16) (a : Fin 32) : Statement (.radvHd g h a) := by
  intro sl hs hwf
  cases hs
  obtain ⟨hw, hop, hg, h1, h2, hs, hz⟩ := shape29 0x33 1 g h a (by decide) (by decide) rfl
  refine ⟨_, rfl, hw, decode_of_read ((readC33_of hop).trans ?_) hwf⟩
  unfold readC33
  rw [hs, hg, h1, h2, hz]
  rfl
theorem radvTl (g : Guard) (h : Fin 16) (a : Fin 32) : Statement (.radvTl g h a) := by
  intro sl hs hwf
  cases hs
  obtain ⟨hw, hop, hg, h1, h2, hs, hz⟩ := shape29 0x33 2 g h a (by decide) (by decide) rfl
  refine ⟨_, rfl, hw, decode_of_read ((readC33_of hop).trans ?_) hwf⟩
  unfold readC33
  rw [hs, hg, h1, h2, hz]
  rfl
theorem rqry (g : Guard) (d : Fin 32) (h : Fin 16) : Statement (.rqry g d h) := by
  intro sl hs hwf
  cases hs
  obtain ⟨hw, hop, hg, h1, h2, hs, hz⟩ := shape30 0x33 3 g d h (by decide) (by decide) rfl
  refine ⟨_, rfl, hw, decode_of_read ((readC33_of hop).trans ?_) hwf⟩
  unfold readC33
  rw [hs, hg, h1, h2, hz]
  rfl
theorem bind (g : Guard) (w : Fin 4) (h : Fin 16) : Statement (.bind g w h) := by
  intro sl hs hwf
  cases hs
  obtain ⟨hw, hop, hg, h1, h2, hs, hc, hz⟩ := shape31 0x33 g w h (by decide) rfl
  refine ⟨_, rfl, hw, decode_of_read ((readC33_of hop).trans ?_) hwf⟩
  unfold readC33
  rw [hs, hc, hg, h1, h2, hz]
  rfl
theorem unbind (g : Guard) (w : Fin 4) : Statement (.unbind g w) := by
  intro sl hs hwf
  cases hs
  obtain ⟨hw, hop, hg, h1, hs, hc, hz⟩ := shape32 0x33 g w (by decide) rfl
  refine ⟨_, rfl, hw, decode_of_read ((readC33_of hop).trans ?_) hwf⟩
  unfold readC33
  rw [hs, hc, hg, h1, hz]
  rfl
theorem hpin (g : Guard) (d : Fin 32) (a : Fin 32) : Statement (.hpin g d a) := by
  intro sl hs hwf
  cases hs
  obtain ⟨hw, hop, hg, h1, h2, hs, hz⟩ := shape7 0x34 0 g d a (by decide) (by decide) (Nat.add_zero _).symm
  refine ⟨_, rfl, hw, decode_of_read ((readC34_of hop).trans ?_) hwf⟩
  unfold readC34
  rw [hs, hg, h1, h2, hz]
  rfl
theorem hdem (g : Guard) (a : Fin 32) (b : Fin 32) : Statement (.hdem g a b) := by
  intro sl hs hwf
  cases hs
  obtain ⟨hw, hop, hg, h1, h2, hs, hz⟩ := shape27 0x34 1 g a b (by decide) (by decide) rfl
  refine ⟨_, rfl, hw, decode_of_read ((readC34_of hop).trans ?_) hwf⟩
  unfold readC34
  rw [hs, hg, h1, h2, hz]
  rfl
theorem hevt (g : Guard) (a : Fin 32) : Statement (.hevt g a) := by
  intro sl hs hwf
  cases hs
  obtain ⟨hw, hop, hg, h1, hs, hz⟩ := shape10 0x34 2 g a (by decide) (by decide) rfl
  refine ⟨_, rfl, hw, decode_of_read ((readC34_of hop).trans ?_) hwf⟩
  unfold readC34
  rw [hs, hg, h1, hz]
  rfl
theorem send (g : Guard) (a : Fin 32) (b : Fin 32) : Statement (.send g a b) := by
  intro sl hs hwf
  cases hs
  obtain ⟨hw, hop, hg, h1, h2, hs, hz⟩ := shape27 0x38 0 g a b (by decide) (by decide) (Nat.add_zero _).symm
  refine ⟨_, rfl, hw, decode_of_read ((readC38_of hop).trans ?_) hwf⟩
  unfold readC38
  rw [hs, hg, h1, h2, hz]
  rfl
theorem sendv (g : Guard) (a : Fin 32) (b : Fin 32) : Statement (.sendv g a b) := by
  intro sl hs hwf
  cases hs
  obtain ⟨hw, hop, hg, h1, h2, hs, hz⟩ := shape27 0x38 1 g a b (by decide) (by decide) rfl
  refine ⟨_, rfl, hw, decode_of_read ((readC38_of hop).trans ?_) hwf⟩
  unfold readC38
  rw [hs, hg, h1, h2, hz]
  rfl
theorem reply (g : Guard) (a : Fin 32) (b : Fin 32) : Statement (.reply g a b) := by
  intro sl hs hwf
  cases hs
  obtain ⟨hw, hop, hg, h1, h2, hs, hz⟩ := shape27 0x38 2 g a b (by decide) (by decide) rfl
  refine ⟨_, rfl, hw, decode_of_read ((readC38_of hop).trans ?_) hwf⟩
  unfold readC38
  rw [hs, hg, h1, h2, hz]
  rfl
theorem dec (g : Guard) (a : Fin 32) (b : Fin 32) : Statement (.dec g a b) := by
  intro sl hs hwf
  cases hs
  obtain ⟨hw, hop, hg, h1, h2, hs, hz⟩ := shape27 0x38 3 g a b (by decide) (by decide) rfl
  refine ⟨_, rfl, hw, decode_of_read ((readC38_of hop).trans ?_) hwf⟩
  unfold readC38
  rw [hs, hg, h1, h2, hz]
  rfl
theorem msgrd (g : Guard) (d : Fin 32) (b : Fin 32) : Statement (.msgrd g d b) := by
  intro sl hs hwf
  cases hs
  obtain ⟨hw, hop, hg, h1, h2, hs, hz⟩ := shape33 0x38 4 g d b (by decide) (by decide) rfl
  refine ⟨_, rfl, hw, decode_of_read ((readC38_of hop).trans ?_) hwf⟩
  unfold readC38
  rw [hs, hg, h1, h2, hz]
  rfl
theorem spawn (g : Guard) (k : Fin 8) (a : Fin 32) (b : Fin 32) (v : Fin 16) : Statement (.spawn g k a b v) := by
  intro sl hs hwf
  cases hs
  obtain ⟨hw, hop, hg, h1, h2, h3, h4, hs, hz⟩ := shape34 0x39 0 g k a b v (by decide) (by decide) (Nat.add_zero _).symm
  refine ⟨_, rfl, hw, decode_of_read ((readC39_of hop).trans ?_) hwf⟩
  unfold readC39
  rw [hs, hg, h1, h2, h3, h4, hz]
  rfl
theorem cpy (g : Guard) (d : Fin 32) (a : Fin 32) (b : Fin 32) : Statement (.cpy g d a b) := by
  intro sl hs hwf
  cases hs
  obtain ⟨hw, hop, hg, h1, h2, h3, hs⟩ := shape1 0x3A 0 g d a b (by decide) (by decide) (Nat.add_zero _).symm
  refine ⟨_, rfl, hw, decode_of_read ((readC3A_of hop).trans ?_) hwf⟩
  unfold readC3A
  rw [hs, hg, h1, h2, h3]
  rfl
theorem cpys (g : Guard) (d : Fin 32) (a : Fin 32) (b : Fin 32) : Statement (.cpys g d a b) := by
  intro sl hs hwf
  cases hs
  obtain ⟨hw, hop, hg, h1, h2, h3, hs⟩ := shape1 0x3A 1 g d a b (by decide) (by decide) rfl
  refine ⟨_, rfl, hw, decode_of_read ((readC3A_of hop).trans ?_) hwf⟩
  unfold readC3A
  rw [hs, hg, h1, h2, h3]
  rfl
theorem efq (g : Guard) (d : Fin 32) (a : Fin 32) (b : Fin 32) : Statement (.efq g d a b) := by
  intro sl hs hwf
  cases hs
  obtain ⟨hw, hop, hg, h1, h2, h3, hs⟩ := shape1 0x3A 2 g d a b (by decide) (by decide) rfl
  refine ⟨_, rfl, hw, decode_of_read ((readC3A_of hop).trans ?_) hwf⟩
  unfold readC3A
  rw [hs, hg, h1, h2, h3]
  rfl
theorem coll (g : Guard) (d : Fin 32) (a : Fin 32) (b : Fin 32) : Statement (.coll g d a b) := by
  intro sl hs hwf
  cases hs
  obtain ⟨hw, hop, hg, h1, h2, h3, hs⟩ := shape1 0x3A 3 g d a b (by decide) (by decide) rfl
  refine ⟨_, rfl, hw, decode_of_read ((readC3A_of hop).trans ?_) hwf⟩
  unfold readC3A
  rw [hs, hg, h1, h2, h3]
  rfl
theorem gmask (g : Guard) (d : Fin 32) (a : Fin 32) (b : Fin 32) : Statement (.gmask g d a b) := by
  intro sl hs hwf
  cases hs
  obtain ⟨hw, hop, hg, h1, h2, h3, hs⟩ := shape1 0x3A 4 g d a b (by decide) (by decide) rfl
  refine ⟨_, rfl, hw, decode_of_read ((readC3A_of hop).trans ?_) hwf⟩
  unfold readC3A
  rw [hs, hg, h1, h2, h3]
  rfl
theorem gstep (g : Guard) (d : Fin 32) (a : Fin 32) (b : Fin 32) : Statement (.gstep g d a b) := by
  intro sl hs hwf
  cases hs
  obtain ⟨hw, hop, hg, h1, h2, h3, hs⟩ := shape1 0x3A 5 g d a b (by decide) (by decide) rfl
  refine ⟨_, rfl, hw, decode_of_read ((readC3A_of hop).trans ?_) hwf⟩
  unfold readC3A
  rw [hs, hg, h1, h2, h3]
  rfl
theorem csrr (g : Guard) (d : Fin 32) (num : Fin 1024) : Statement (.csrr g d num) := by
  intro sl hs hwf
  cases hs
  obtain ⟨hw, hop, hg, h1, h2, hs⟩ := shape35 0x3C 0 g d num (by decide) (by decide) (Nat.add_zero _).symm
  refine ⟨_, rfl, hw, decode_of_read ((readC3C_of hop).trans ?_) hwf⟩
  unfold readC3C
  rw [hs, hg, h1, h2]
  rfl
theorem csrw (g : Guard) (d : Fin 32) (num : Fin 1024) : Statement (.csrw g d num) := by
  intro sl hs hwf
  cases hs
  obtain ⟨hw, hop, hg, h1, h2, hs⟩ := shape35 0x3C 1 g d num (by decide) (by decide) rfl
  refine ⟨_, rfl, hw, decode_of_read ((readC3C_of hop).trans ?_) hwf⟩
  unfold readC3C
  rw [hs, hg, h1, h2]
  rfl
theorem trap (g : Guard) (a : Fin 32) : Statement (.trap g a) := by
  intro sl hs hwf
  cases hs
  obtain ⟨hw, hop, hg, h1, hs, hz⟩ := shape10 0x3D 0 g a (by decide) (by decide) (Nat.add_zero _).symm
  refine ⟨_, rfl, hw, decode_of_read ((readC3D_of hop).trans ?_) hwf⟩
  unfold readC3D
  rw [hs, hg, h1, hz]
  rfl
theorem hbt (g : Guard) : Statement (.hbt g) := by
  intro sl hs hwf
  cases hs
  obtain ⟨hw, hop, hg, hs, hz⟩ := shape11 0x3D 1 g (by decide) (by decide) rfl
  refine ⟨_, rfl, hw, decode_of_read ((readC3D_of hop).trans ?_) hwf⟩
  unfold readC3D
  rw [hs, hg, hz]
  rfl
theorem brk (g : Guard) : Statement (.brk g) := by
  intro sl hs hwf
  cases hs
  obtain ⟨hw, hop, hg, hs, hz⟩ := shape11 0x3D 2 g (by decide) (by decide) rfl
  refine ⟨_, rfl, hw, decode_of_read ((readC3D_of hop).trans ?_) hwf⟩
  unfold readC3D
  rw [hs, hg, hz]
  rfl
theorem trc (g : Guard) (a : Fin 32) : Statement (.trc g a) := by
  intro sl hs hwf
  cases hs
  obtain ⟨hw, hop, hg, h1, hs, hz⟩ := shape10 0x3D 3 g a (by decide) (by decide) rfl
  refine ⟨_, rfl, hw, decode_of_read ((readC3D_of hop).trans ?_) hwf⟩
  unfold readC3D
  rw [hs, hg, h1, hz]
  rfl
theorem cdo (g : Guard) (a : Fin 32) : Statement (.cdo g a) := by
  intro sl hs hwf
  cases hs
  obtain ⟨hw, hop, hg, h1, hs, hz⟩ := shape10 0x3E 0 g a (by decide) (by decide) (Nat.add_zero _).symm
  refine ⟨_, rfl, hw, decode_of_read ((readC3E_of hop).trans ?_) hwf⟩
  unfold readC3E
  rw [hs, hg, h1, hz]
  rfl
theorem cdc (g : Guard) (a : Fin 32) : Statement (.cdc g a) := by
  intro sl hs hwf
  cases hs
  obtain ⟨hw, hop, hg, h1, hs, hz⟩ := shape10 0x3E 1 g a (by decide) (by decide) rfl
  refine ⟨_, rfl, hw, decode_of_read ((readC3E_of hop).trans ?_) hwf⟩
  unfold readC3E
  rw [hs, hg, h1, hz]
  rfl
theorem cdp (g : Guard) (a : Fin 32) (b : Fin 32) : Statement (.cdp g a b) := by
  intro sl hs hwf
  cases hs
  obtain ⟨hw, hop, hg, h1, h2, hs, hz⟩ := shape27 0x3E 2 g a b (by decide) (by decide) rfl
  refine ⟨_, rfl, hw, decode_of_read ((readC3E_of hop).trans ?_) hwf⟩
  unfold readC3E
  rw [hs, hg, h1, h2, hz]
  rfl
theorem vadd (g : Guard) (d : Fin 32) (a : Fin 32) (b : Fin 32) (sat : Bool) (t : Fin 16) : Statement (.vadd g d a b sat t) := by
  intro sl hs hwf
  cases hs
  obtain ⟨hw, hop, hg, h1, h2, h3, h4, h5⟩ := shape36 0x00 g d a b sat t (by decide) rfl
  refine ⟨_, rfl, hw, decode_of_read ((readX00_of hop).trans ?_) hwf⟩
  unfold readX00
  rw [hg, h1, h2, h3, h4, h5]
theorem vsub (g : Guard) (d : Fin 32) (a : Fin 32) (b : Fin 32) (sat : Bool) (t : Fin 16) : Statement (.vsub g d a b sat t) := by
  intro sl hs hwf
  cases hs
  obtain ⟨hw, hop, hg, h1, h2, h3, h4, h5⟩ := shape36 0x01 g d a b sat t (by decide) rfl
  refine ⟨_, rfl, hw, decode_of_read ((readX01_of hop).trans ?_) hwf⟩
  unfold readX01
  rw [hg, h1, h2, h3, h4, h5]
theorem vmul (g : Guard) (d : Fin 32) (a : Fin 32) (b : Fin 32) (t : Fin 16) : Statement (.vmul g d a b t) := by
  intro sl hs hwf
  cases hs
  obtain ⟨hw, hop, hg, h1, h2, h3, h4, hs⟩ := shape37 0x02 0 g d a b t (by decide) (by decide) (Nat.add_zero _).symm
  refine ⟨_, rfl, hw, decode_of_read ((readX02_of hop).trans ?_) hwf⟩
  unfold readX02
  rw [hs, hg, h1, h2, h3, h4]
  rfl
theorem vfma (g : Guard) (d : Fin 32) (a : Fin 32) (b : Fin 32) (t : Fin 16) : Statement (.vfma g d a b t) := by
  intro sl hs hwf
  cases hs
  obtain ⟨hw, hop, hg, h1, h2, h3, h4, hs⟩ := shape37 0x03 0 g d a b t (by decide) (by decide) (Nat.add_zero _).symm
  refine ⟨_, rfl, hw, decode_of_read ((readX03_of hop).trans ?_) hwf⟩
  unfold readX03
  rw [hs, hg, h1, h2, h3, h4]
  rfl
theorem vmin (g : Guard) (d : Fin 32) (a : Fin 32) (b : Fin 32) (t : Fin 16) : Statement (.vmin g d a b t) := by
  intro sl hs hwf
  cases hs
  obtain ⟨hw, hop, hg, h1, h2, h3, h4, hs⟩ := shape37 0x04 0 g d a b t (by decide) (by decide) (Nat.add_zero _).symm
  refine ⟨_, rfl, hw, decode_of_read ((readX04_of hop).trans ?_) hwf⟩
  unfold readX04
  rw [hs, hg, h1, h2, h3, h4]
  rfl
theorem vmax (g : Guard) (d : Fin 32) (a : Fin 32) (b : Fin 32) (t : Fin 16) : Statement (.vmax g d a b t) := by
  intro sl hs hwf
  cases hs
  obtain ⟨hw, hop, hg, h1, h2, h3, h4, hs⟩ := shape37 0x05 0 g d a b t (by decide) (by decide) (Nat.add_zero _).symm
  refine ⟨_, rfl, hw, decode_of_read ((readX05_of hop).trans ?_) hwf⟩
  unfold readX05
  rw [hs, hg, h1, h2, h3, h4]
  rfl
theorem vand (g : Guard) (d : Fin 32) (a : Fin 32) (b : Fin 32) : Statement (.vand g d a b) := by
  intro sl hs hwf
  cases hs
  obtain ⟨hw, hop, hg, h1, h2, h3, hs⟩ := shape1 0x06 0 g d a b (by decide) (by decide) (Nat.add_zero _).symm
  refine ⟨_, rfl, hw, decode_of_read ((readX06_of hop).trans ?_) hwf⟩
  unfold readX06
  rw [hs, hg, h1, h2, h3]
  rfl
theorem vor (g : Guard) (d : Fin 32) (a : Fin 32) (b : Fin 32) : Statement (.vor g d a b) := by
  intro sl hs hwf
  cases hs
  obtain ⟨hw, hop, hg, h1, h2, h3, hs⟩ := shape1 0x06 1 g d a b (by decide) (by decide) rfl
  refine ⟨_, rfl, hw, decode_of_read ((readX06_of hop).trans ?_) hwf⟩
  unfold readX06
  rw [hs, hg, h1, h2, h3]
  rfl
theorem vxor (g : Guard) (d : Fin 32) (a : Fin 32) (b : Fin 32) : Statement (.vxor g d a b) := by
  intro sl hs hwf
  cases hs
  obtain ⟨hw, hop, hg, h1, h2, h3, hs⟩ := shape1 0x06 2 g d a b (by decide) (by decide) rfl
  refine ⟨_, rfl, hw, decode_of_read ((readX06_of hop).trans ?_) hwf⟩
  unfold readX06
  rw [hs, hg, h1, h2, h3]
  rfl
theorem vandn (g : Guard) (d : Fin 32) (a : Fin 32) (b : Fin 32) : Statement (.vandn g d a b) := by
  intro sl hs hwf
  cases hs
  obtain ⟨hw, hop, hg, h1, h2, h3, hs⟩ := shape1 0x06 3 g d a b (by decide) (by decide) rfl
  refine ⟨_, rfl, hw, decode_of_read ((readX06_of hop).trans ?_) hwf⟩
  unfold readX06
  rw [hs, hg, h1, h2, h3]
  rfl
theorem vshl (g : Guard) (d : Fin 32) (a : Fin 32) (b : Fin 32) (t : Fin 16) : Statement (.vshl g d a b t) := by
  intro sl hs hwf
  cases hs
  obtain ⟨hw, hop, hg, h1, h2, h3, h4, hs⟩ := shape37 0x07 0 g d a b t (by decide) (by decide) (Nat.add_zero _).symm
  refine ⟨_, rfl, hw, decode_of_read ((readX07_of hop).trans ?_) hwf⟩
  unfold readX07
  rw [hs, hg, h1, h2, h3, h4]
  rfl
theorem vshr (g : Guard) (d : Fin 32) (a : Fin 32) (b : Fin 32) (t : Fin 16) : Statement (.vshr g d a b t) := by
  intro sl hs hwf
  cases hs
  obtain ⟨hw, hop, hg, h1, h2, h3, h4, hs⟩ := shape37 0x08 0 g d a b t (by decide) (by decide) (Nat.add_zero _).symm
  refine ⟨_, rfl, hw, decode_of_read ((readX08_of hop).trans ?_) hwf⟩
  unfold readX08
  rw [hs, hg, h1, h2, h3, h4]
  rfl
theorem vceq (g : Guard) (d : Fin 32) (a : Fin 32) (b : Fin 32) (t : Fin 16) : Statement (.vceq g d a b t) := by
  intro sl hs hwf
  cases hs
  obtain ⟨hw, hop, hg, h1, h2, h3, h4, hs⟩ := shape37 0x09 0 g d a b t (by decide) (by decide) (Nat.add_zero _).symm
  refine ⟨_, rfl, hw, decode_of_read ((readX09_of hop).trans ?_) hwf⟩
  unfold readX09
  rw [hs, hg, h1, h2, h3, h4]
  rfl
theorem vclt (g : Guard) (d : Fin 32) (a : Fin 32) (b : Fin 32) (t : Fin 16) : Statement (.vclt g d a b t) := by
  intro sl hs hwf
  cases hs
  obtain ⟨hw, hop, hg, h1, h2, h3, h4, hs⟩ := shape37 0x0A 0 g d a b t (by decide) (by decide) (Nat.add_zero _).symm
  refine ⟨_, rfl, hw, decode_of_read ((readX0A_of hop).trans ?_) hwf⟩
  unfold readX0A
  rw [hs, hg, h1, h2, h3, h4]
  rfl
theorem vcle (g : Guard) (d : Fin 32) (a : Fin 32) (b : Fin 32) (t : Fin 16) : Statement (.vcle g d a b t) := by
  intro sl hs hwf
  cases hs
  obtain ⟨hw, hop, hg, h1, h2, h3, h4, hs⟩ := shape37 0x0B 0 g d a b t (by decide) (by decide) (Nat.add_zero _).symm
  refine ⟨_, rfl, hw, decode_of_read ((readX0B_of hop).trans ?_) hwf⟩
  unfold readX0B
  rw [hs, hg, h1, h2, h3, h4]
  rfl
theorem vsel (g : Guard) (d : Fin 32) (a : Fin 32) (b : Fin 32) : Statement (.vsel g d a b) := by
  intro sl hs hwf
  cases hs
  obtain ⟨hw, hop, hg, h1, h2, h3, hs⟩ := shape1 0x0C 0 g d a b (by decide) (by decide) (Nat.add_zero _).symm
  refine ⟨_, rfl, hw, decode_of_read ((readX0C_of hop).trans ?_) hwf⟩
  unfold readX0C
  rw [hs, hg, h1, h2, h3]
  rfl
theorem vabs (g : Guard) (d : Fin 32) (a : Fin 32) (t : Fin 16) : Statement (.vabs g d a t) := by
  intro sl hs hwf
  cases hs
  obtain ⟨hw, hop, hg, h1, h2, h3, hs, hz⟩ := shape38 0x0D 0 g d a t (by decide) (by decide) (Nat.add_zero _).symm
  refine ⟨_, rfl, hw, decode_of_read ((readX0D_of hop).trans ?_) hwf⟩
  unfold readX0D
  rw [hs, hg, h1, h2, h3, hz]
  rfl
theorem vneg (g : Guard) (d : Fin 32) (a : Fin 32) (t : Fin 16) : Statement (.vneg g d a t) := by
  intro sl hs hwf
  cases hs
  obtain ⟨hw, hop, hg, h1, h2, h3, hs, hz⟩ := shape38 0x0D 1 g d a t (by decide) (by decide) rfl
  refine ⟨_, rfl, hw, decode_of_read ((readX0D_of hop).trans ?_) hwf⟩
  unfold readX0D
  rw [hs, hg, h1, h2, h3, hz]
  rfl
theorem vdot (g : Guard) (d : Fin 32) (a : Fin 32) (b : Fin 32) (t : Fin 16) : Statement (.vdot g d a b t) := by
  intro sl hs hwf
  cases hs
  obtain ⟨hw, hop, hg, h1, h2, h3, h4, hs⟩ := shape37 0x0E 0 g d a b t (by decide) (by decide) (Nat.add_zero _).symm
  refine ⟨_, rfl, hw, decode_of_read ((readX0E_of hop).trans ?_) hwf⟩
  unfold readX0E
  rw [hs, hg, h1, h2, h3, h4]
  rfl
theorem vperm (g : Guard) (d : Fin 32) (a : Fin 32) (b : Fin 32) : Statement (.vperm g d a b) := by
  intro sl hs hwf
  cases hs
  obtain ⟨hw, hop, hg, h1, h2, h3, hs⟩ := shape1 0x10 0 g d a b (by decide) (by decide) (Nat.add_zero _).symm
  refine ⟨_, rfl, hw, decode_of_read ((readX10_of hop).trans ?_) hwf⟩
  unfold readX10
  rw [hs, hg, h1, h2, h3]
  rfl
theorem vzipl (g : Guard) (d : Fin 32) (a : Fin 32) (b : Fin 32) (e : Fin 4) : Statement (.vzipl g d a b e) := by
  intro sl hs hwf
  cases hs
  obtain ⟨hw, hop, hg, h1, h2, h3, h4, hp, hs⟩ := shape39 0x11 0 g d a b e (by decide) (by decide) (Nat.add_zero _).symm
  refine ⟨_, rfl, hw, decode_of_read ((readX11_of hop).trans ?_) hwf⟩
  unfold readX11
  rw [hp, hs, hg, h1, h2, h3, h4]
  rfl
theorem vziph (g : Guard) (d : Fin 32) (a : Fin 32) (b : Fin 32) (e : Fin 4) : Statement (.vziph g d a b e) := by
  intro sl hs hwf
  cases hs
  obtain ⟨hw, hop, hg, h1, h2, h3, h4, hp, hs⟩ := shape39 0x11 1 g d a b e (by decide) (by decide) rfl
  refine ⟨_, rfl, hw, decode_of_read ((readX11_of hop).trans ?_) hwf⟩
  unfold readX11
  rw [hp, hs, hg, h1, h2, h3, h4]
  rfl
theorem vuzpe (g : Guard) (d : Fin 32) (a : Fin 32) (b : Fin 32) (e : Fin 4) : Statement (.vuzpe g d a b e) := by
  intro sl hs hwf
  cases hs
  obtain ⟨hw, hop, hg, h1, h2, h3, h4, hp, hs⟩ := shape39 0x11 2 g d a b e (by decide) (by decide) rfl
  refine ⟨_, rfl, hw, decode_of_read ((readX11_of hop).trans ?_) hwf⟩
  unfold readX11
  rw [hp, hs, hg, h1, h2, h3, h4]
  rfl
theorem vuzpo (g : Guard) (d : Fin 32) (a : Fin 32) (b : Fin 32) (e : Fin 4) : Statement (.vuzpo g d a b e) := by
  intro sl hs hwf
  cases hs
  obtain ⟨hw, hop, hg, h1, h2, h3, h4, hp, hs⟩ := shape39 0x11 3 g d a b e (by decide) (by decide) rfl
  refine ⟨_, rfl, hw, decode_of_read ((readX11_of hop).trans ?_) hwf⟩
  unfold readX11
  rw [hp, hs, hg, h1, h2, h3, h4]
  rfl
theorem vredadd (g : Guard) (d : Fin 32) (a : Fin 32) (t : Fin 16) : Statement (.vredadd g d a t) := by
  intro sl hs hwf
  cases hs
  obtain ⟨hw, hop, hg, h1, h2, h3, hs, hz⟩ := shape38 0x12 0 g d a t (by decide) (by decide) (Nat.add_zero _).symm
  refine ⟨_, rfl, hw, decode_of_read ((readX12_of hop).trans ?_) hwf⟩
  unfold readX12
  rw [hs, hg, h1, h2, h3, hz]
  rfl
theorem vredmax (g : Guard) (d : Fin 32) (a : Fin 32) (t : Fin 16) : Statement (.vredmax g d a t) := by
  intro sl hs hwf
  cases hs
  obtain ⟨hw, hop, hg, h1, h2, h3, hs, hz⟩ := shape38 0x13 0 g d a t (by decide) (by decide) (Nat.add_zero _).symm
  refine ⟨_, rfl, hw, decode_of_read ((readX13_of hop).trans ?_) hwf⟩
  unfold readX13
  rw [hs, hg, h1, h2, h3, hz]
  rfl
theorem vredmin (g : Guard) (d : Fin 32) (a : Fin 32) (t : Fin 16) : Statement (.vredmin g d a t) := by
  intro sl hs hwf
  cases hs
  obtain ⟨hw, hop, hg, h1, h2, h3, hs, hz⟩ := shape38 0x14 0 g d a t (by decide) (by decide) (Nat.add_zero _).symm
  refine ⟨_, rfl, hw, decode_of_read ((readX14_of hop).trans ?_) hwf⟩
  unfold readX14
  rw [hs, hg, h1, h2, h3, hz]
  rfl
theorem vaddCw (g : Guard) (d : Fin 32) (a : Fin 32) (cw : Fin 256) (t : Fin 4) : Statement (.vaddCw g d a cw t) := by
  intro sl hs hwf
  cases hs
  obtain ⟨hw, hop, hg, h1, h2, h3, h4⟩ := shape15 0x15 g d a cw t (by decide) rfl
  refine ⟨_, rfl, hw, decode_of_read ((readX15_of hop).trans ?_) hwf⟩
  unfold readX15
  rw [hg, h1, h2, h3, h4]
theorem vmulCw (g : Guard) (d : Fin 32) (a : Fin 32) (cw : Fin 256) (t : Fin 4) : Statement (.vmulCw g d a cw t) := by
  intro sl hs hwf
  cases hs
  obtain ⟨hw, hop, hg, h1, h2, h3, h4⟩ := shape15 0x16 g d a cw t (by decide) rfl
  refine ⟨_, rfl, hw, decode_of_read ((readX16_of hop).trans ?_) hwf⟩
  unfold readX16
  rw [hg, h1, h2, h3, h4]
theorem vfmaCw (g : Guard) (d : Fin 32) (a : Fin 32) (cw : Fin 256) (t : Fin 4) : Statement (.vfmaCw g d a cw t) := by
  intro sl hs hwf
  cases hs
  obtain ⟨hw, hop, hg, h1, h2, h3, h4⟩ := shape15 0x17 g d a cw t (by decide) rfl
  refine ⟨_, rfl, hw, decode_of_read ((readX17_of hop).trans ?_) hwf⟩
  unfold readX17
  rw [hg, h1, h2, h3, h4]
theorem vcvtRne (g : Guard) (d : Fin 32) (a : Fin 32) (src : Fin 16) (sat : Bool) (t : Fin 16) : Statement (.vcvtRne g d a src sat t) := by
  intro sl hs hwf
  cases hs
  obtain ⟨hw, hop, hg, h1, h2, h3, h4, h5, hz⟩ := shape40 0x18 g d a src sat t (by decide) rfl
  refine ⟨_, rfl, hw, decode_of_read ((readX18_of hop).trans ?_) hwf⟩
  unfold readX18
  rw [hg, h1, h2, h3, h4, h5, hz]
theorem vcvtRtz (g : Guard) (d : Fin 32) (a : Fin 32) (src : Fin 16) (sat : Bool) (t : Fin 16) : Statement (.vcvtRtz g d a src sat t) := by
  intro sl hs hwf
  cases hs
  obtain ⟨hw, hop, hg, h1, h2, h3, h4, h5, hz⟩ := shape40 0x19 g d a src sat t (by decide) rfl
  refine ⟨_, rfl, hw, decode_of_read ((readX19_of hop).trans ?_) hwf⟩
  unfold readX19
  rw [hg, h1, h2, h3, h4, h5, hz]
theorem vcvtRmi (g : Guard) (d : Fin 32) (a : Fin 32) (src : Fin 16) (sat : Bool) (t : Fin 16) : Statement (.vcvtRmi g d a src sat t) := by
  intro sl hs hwf
  cases hs
  obtain ⟨hw, hop, hg, h1, h2, h3, h4, h5, hz⟩ := shape40 0x1A g d a src sat t (by decide) rfl
  refine ⟨_, rfl, hw, decode_of_read ((readX1A_of hop).trans ?_) hwf⟩
  unfold readX1A
  rw [hg, h1, h2, h3, h4, h5, hz]
theorem vcvtRpi (g : Guard) (d : Fin 32) (a : Fin 32) (src : Fin 16) (sat : Bool) (t : Fin 16) : Statement (.vcvtRpi g d a src sat t) := by
  intro sl hs hwf
  cases hs
  obtain ⟨hw, hop, hg, h1, h2, h3, h4, h5, hz⟩ := shape40 0x1B g d a src sat t (by decide) rfl
  refine ⟨_, rfl, hw, decode_of_read ((readX1B_of hop).trans ?_) hwf⟩
  unfold readX1B
  rw [hg, h1, h2, h3, h4, h5, hz]
theorem qnt (g : Guard) (d : Fin 32) (a : Fin 32) (b : Fin 32) (fmt : Fin 32) : Statement (.qnt g d a b fmt) := by
  intro sl hs hwf
  cases hs
  obtain ⟨hw, hop, hg, h1, h2, h3, h4⟩ := shape41 0x1C g d a b fmt (by decide) rfl
  refine ⟨_, rfl, hw, decode_of_read ((readX1C_of hop).trans ?_) hwf⟩
  unfold readX1C
  rw [hg, h1, h2, h3, h4]
theorem qntNs (g : Guard) (d : Fin 32) (a : Fin 32) (b : Fin 32) (fmt : Fin 32) : Statement (.qntNs g d a b fmt) := by
  intro sl hs hwf
  cases hs
  obtain ⟨hw, hop, hg, h1, h2, h3, h4⟩ := shape41 0x1D g d a b fmt (by decide) rfl
  refine ⟨_, rfl, hw, decode_of_read ((readX1D_of hop).trans ?_) hwf⟩
  unfold readX1D
  rw [hg, h1, h2, h3, h4]
theorem dqn (g : Guard) (d : Fin 32) (a : Fin 32) (b : Fin 32) (fmt : Fin 32) : Statement (.dqn g d a b fmt) := by
  intro sl hs hwf
  cases hs
  obtain ⟨hw, hop, hg, h1, h2, h3, h4⟩ := shape41 0x1E g d a b fmt (by decide) rfl
  refine ⟨_, rfl, hw, decode_of_read ((readX1E_of hop).trans ?_) hwf⟩
  unfold readX1E
  rw [hg, h1, h2, h3, h4]
theorem ltd (g : Guard) (d : Fin 32) (a : Fin 32) (lt4 : Bool) : Statement (.ltd g d a lt4) := by
  intro sl hs hwf
  cases hs
  obtain ⟨hw, hop, hg, h1, h2, h3, hs, hz⟩ := shape42 0x1F 0 g d a lt4 (by decide) (by decide) (Nat.add_zero _).symm
  refine ⟨_, rfl, hw, decode_of_read ((readX1F_of hop).trans ?_) hwf⟩
  unfold readX1F
  rw [hs, hg, h1, h2, h3, hz]
  rfl
theorem lte (g : Guard) (d : Fin 32) (a : Fin 32) (lt4 : Bool) : Statement (.lte g d a lt4) := by
  intro sl hs hwf
  cases hs
  obtain ⟨hw, hop, hg, h1, h2, h3, hs, hz⟩ := shape42 0x20 0 g d a lt4 (by decide) (by decide) (Nat.add_zero _).symm
  refine ⟨_, rfl, hw, decode_of_read ((readX20_of hop).trans ?_) hwf⟩
  unfold readX20
  rw [hs, hg, h1, h2, h3, hz]
  rfl
theorem had (g : Guard) (d : Fin 32) (a : Fin 32) (b : Fin 32) (n32 : Bool) : Statement (.had g d a b n32) := by
  intro sl hs hwf
  cases hs
  obtain ⟨hw, hop, hg, h1, h2, h3, h4, hs, hz⟩ := shape43 0x22 0 g d a b n32 (by decide) (by decide) (Nat.add_zero _).symm
  refine ⟨_, rfl, hw, decode_of_read ((readX22_of hop).trans ?_) hwf⟩
  unfold readX22
  rw [hs, hg, h1, h2, h3, h4, hz]
  rfl
theorem hadInv (g : Guard) (d : Fin 32) (a : Fin 32) (b : Fin 32) (n32 : Bool) : Statement (.hadInv g d a b n32) := by
  intro sl hs hwf
  cases hs
  obtain ⟨hw, hop, hg, h1, h2, h3, h4, hs, hz⟩ := shape43 0x22 1 g d a b n32 (by decide) (by decide) rfl
  refine ⟨_, rfl, hw, decode_of_read ((readX22_of hop).trans ?_) hwf⟩
  unfold readX22
  rw [hs, hg, h1, h2, h3, h4, hz]
  rfl
theorem rngCore (g : Guard) (d : Fin 32) (a : Fin 32) : Statement (.rngCore g d a) := by
  intro sl hs hwf
  cases hs
  obtain ⟨hw, hop, hg, h1, h2, hs, hz⟩ := shape7 0x23 0 g d a (by decide) (by decide) (Nat.add_zero _).symm
  refine ⟨_, rfl, hw, decode_of_read ((readX23_of hop).trans ?_) hwf⟩
  unfold readX23
  rw [hs, hg, h1, h2, hz]
  rfl
theorem rngIdx (g : Guard) (d : Fin 32) (a : Fin 32) : Statement (.rngIdx g d a) := by
  intro sl hs hwf
  cases hs
  obtain ⟨hw, hop, hg, h1, h2, hs, hz⟩ := shape7 0x23 1 g d a (by decide) (by decide) rfl
  refine ⟨_, rfl, hw, decode_of_read ((readX23_of hop).trans ?_) hwf⟩
  unfold readX23
  rw [hs, hg, h1, h2, hz]
  rfl
theorem srnd (g : Guard) (d : Fin 32) (a : Fin 32) (b : Fin 32) (fmt : Fin 32) : Statement (.srnd g d a b fmt) := by
  intro sl hs hwf
  cases hs
  obtain ⟨hw, hop, hg, h1, h2, h3, h4⟩ := shape41 0x24 g d a b fmt (by decide) rfl
  refine ⟨_, rfl, hw, decode_of_read ((readX24_of hop).trans ?_) hwf⟩
  unfold readX24
  rw [hg, h1, h2, h3, h4]
theorem exp2 (g : Guard) (d : Fin 32) (a : Fin 32) : Statement (.exp2 g d a) := by
  intro sl hs hwf
  cases hs
  obtain ⟨hw, hop, hg, h1, h2, hs, hz⟩ := shape7 0x28 10 g d a (by decide) (by decide) rfl
  refine ⟨_, rfl, hw, decode_of_read ((readX28_of hop).trans ?_) hwf⟩
  unfold readX28
  rw [hs, hg, h1, h2, hz]
  rfl
theorem log2 (g : Guard) (d : Fin 32) (a : Fin 32) : Statement (.log2 g d a) := by
  intro sl hs hwf
  cases hs
  obtain ⟨hw, hop, hg, h1, h2, hs, hz⟩ := shape7 0x29 10 g d a (by decide) (by decide) rfl
  refine ⟨_, rfl, hw, decode_of_read ((readX29_of hop).trans ?_) hwf⟩
  unfold readX29
  rw [hs, hg, h1, h2, hz]
  rfl
theorem rcp (g : Guard) (d : Fin 32) (a : Fin 32) : Statement (.rcp g d a) := by
  intro sl hs hwf
  cases hs
  obtain ⟨hw, hop, hg, h1, h2, hs, hz⟩ := shape7 0x2A 10 g d a (by decide) (by decide) rfl
  refine ⟨_, rfl, hw, decode_of_read ((readX2A_of hop).trans ?_) hwf⟩
  unfold readX2A
  rw [hs, hg, h1, h2, hz]
  rfl
theorem rsq (g : Guard) (d : Fin 32) (a : Fin 32) : Statement (.rsq g d a) := by
  intro sl hs hwf
  cases hs
  obtain ⟨hw, hop, hg, h1, h2, hs, hz⟩ := shape7 0x2B 10 g d a (by decide) (by decide) rfl
  refine ⟨_, rfl, hw, decode_of_read ((readX2B_of hop).trans ?_) hwf⟩
  unfold readX2B
  rw [hs, hg, h1, h2, hz]
  rfl
theorem sqrt (g : Guard) (d : Fin 32) (a : Fin 32) : Statement (.sqrt g d a) := by
  intro sl hs hwf
  cases hs
  obtain ⟨hw, hop, hg, h1, h2, hs, hz⟩ := shape7 0x2C 10 g d a (by decide) (by decide) rfl
  refine ⟨_, rfl, hw, decode_of_read ((readX2C_of hop).trans ?_) hwf⟩
  unfold readX2C
  rw [hs, hg, h1, h2, hz]
  rfl
theorem tanh (g : Guard) (d : Fin 32) (a : Fin 32) : Statement (.tanh g d a) := by
  intro sl hs hwf
  cases hs
  obtain ⟨hw, hop, hg, h1, h2, hs, hz⟩ := shape7 0x2D 10 g d a (by decide) (by decide) rfl
  refine ⟨_, rfl, hw, decode_of_read ((readX2D_of hop).trans ?_) hwf⟩
  unfold readX2D
  rw [hs, hg, h1, h2, hz]
  rfl
theorem msmrg (g : Guard) (d : Fin 32) (a : Fin 32) : Statement (.msmrg g d a) := by
  intro sl hs hwf
  cases hs
  obtain ⟨hw, hop, hg, h1, h2, hs, hz⟩ := shape7 0x30 10 g d a (by decide) (by decide) rfl
  refine ⟨_, rfl, hw, decode_of_read ((readX30_of hop).trans ?_) hwf⟩
  unfold readX30
  rw [hs, hg, h1, h2, hz]
  rfl
theorem mma (g : Guard) (a : Fin 16) (b : Fin 16) (t : Fin 64) (zc : Bool) : Statement (.mma g a b t zc) := by
  intro sl hs hwf
  cases hs
  obtain ⟨hw, hop, hg, h1, h2, h3, h4, hz⟩ := shape44 0x38 g a b t zc (by decide) rfl
  refine ⟨_, rfl, hw, decode_of_read ((readX38_of hop).trans ?_) hwf⟩
  unfold readX38
  rw [hg, h1, h2, h3, h4, hz]
theorem mmas (g : Guard) (a : Fin 16) (b : Fin 16) (t : Fin 64) (zc : Bool) : Statement (.mmas g a b t zc) := by
  intro sl hs hwf
  cases hs
  obtain ⟨hw, hop, hg, h1, h2, h3, h4, hz⟩ := shape44 0x39 g a b t zc (by decide) rfl
  refine ⟨_, rfl, hw, decode_of_read ((readX39_of hop).trans ?_) hwf⟩
  unfold readX39
  rw [hg, h1, h2, h3, h4, hz]
theorem mmat (g : Guard) (a : Fin 16) (b : Fin 16) (t : Fin 64) (zc : Bool) : Statement (.mmat g a b t zc) := by
  intro sl hs hwf
  cases hs
  obtain ⟨hw, hop, hg, h1, h2, h3, h4, hz⟩ := shape44 0x3A g a b t zc (by decide) rfl
  refine ⟨_, rfl, hw, decode_of_read ((readX3A_of hop).trans ?_) hwf⟩
  unfold readX3A
  rw [hg, h1, h2, h3, h4, hz]
theorem czero (g : Guard) (t : Fin 64) : Statement (.czero g t) := by
  intro sl hs hwf
  cases hs
  obtain ⟨hw, hop, hg, h1, hs, hz⟩ := shape45 0x3C 0 g t (by decide) (by decide) (Nat.add_zero _).symm
  refine ⟨_, rfl, hw, decode_of_read ((readX3C_of hop).trans ?_) hwf⟩
  unfold readX3C
  rw [hs, hg, h1, hz]
  rfl
theorem cscl (g : Guard) (t : Fin 64) (q : Fin 32) : Statement (.cscl g t q) := by
  intro sl hs hwf
  cases hs
  obtain ⟨hw, hop, hg, h1, h2, hs, hz⟩ := shape46 0x3C 1 g t q (by decide) (by decide) rfl
  refine ⟨_, rfl, hw, decode_of_read ((readX3C_of hop).trans ?_) hwf⟩
  unfold readX3C
  rw [hs, hg, h1, h2, hz]
  rfl
theorem ccvt (g : Guard) (t : Fin 64) (h : Fin 16) : Statement (.ccvt g t h) := by
  intro sl hs hwf
  cases hs
  obtain ⟨hw, hop, hg, h1, h2, hs, hz⟩ := shape47 0x3C 2 g t h (by decide) (by decide) rfl
  refine ⟨_, rfl, hw, decode_of_read ((readX3C_of hop).trans ?_) hwf⟩
  unfold readX3C
  rw [hs, hg, h1, h2, hz]
  rfl
theorem cadd (g : Guard) (t : Fin 64) (q : Fin 64) : Statement (.cadd g t q) := by
  intro sl hs hwf
  cases hs
  obtain ⟨hw, hop, hg, h1, h2, hs, hz⟩ := shape48 0x3C 3 g t q (by decide) (by decide) rfl
  refine ⟨_, rfl, hw, decode_of_read ((readX3C_of hop).trans ?_) hwf⟩
  unfold readX3C
  rw [hs, hg, h1, h2, hz]
  rfl
theorem mdrain (g : Guard) : Statement (.mdrain g) := by
  intro sl hs hwf
  cases hs
  obtain ⟨hw, hop, hg, hs, hz⟩ := shape11 0x3D 0 g (by decide) (by decide) (Nat.add_zero _).symm
  refine ⟨_, rfl, hw, decode_of_read ((readX3D_of hop).trans ?_) hwf⟩
  unfold readX3D
  rw [hs, hg, hz]
  rfl
theorem mqry (g : Guard) (d : Fin 32) : Statement (.mqry g d) := by
  intro sl hs hwf
  cases hs
  obtain ⟨hw, hop, hg, h1, hs, hz⟩ := shape49 0x3D 1 g d (by decide) (by decide) rfl
  refine ⟨_, rfl, hw, decode_of_read ((readX3D_of hop).trans ?_) hwf⟩
  unfold readX3D
  rw [hs, hg, h1, hz]
  rfl
theorem mxcfg (g : Guard) (a : Fin 32) : Statement (.mxcfg g a) := by
  intro sl hs hwf
  cases hs
  obtain ⟨hw, hop, hg, h1, hs, hz⟩ := shape10 0x3D 2 g a (by decide) (by decide) rfl
  refine ⟨_, rfl, hw, decode_of_read ((readX3D_of hop).trans ?_) hwf⟩
  unfold readX3D
  rw [hs, hg, h1, hz]
  rfl
theorem endTask (g : Guard) : Statement (.endTask g) := by
  intro sl hs hwf
  cases hs
  obtain ⟨hw, hop, hg, hs, hz⟩ := shape11 0x14 0 g (by decide) (by decide) (Nat.add_zero _).symm
  refine ⟨_, rfl, hw, decode_of_read ((readC14_of hop).trans ?_) hwf⟩
  unfold readC14
  rw [hs, hg, hz]
  rfl
theorem stalledIssueResume (core : Nat) : Statement (.stalledIssueResume core) := fun _ h => nomatch h
theorem breakpointHalt (core : Nat) (bp : Fin 2) : Statement (.breakpointHalt core bp) := fun _ h => nomatch h
theorem debugHalt (core : Nat) : Statement (.debugHalt core) := fun _ h => nomatch h
theorem messageArrival (idx : Nat) : Statement (.messageArrival idx) := fun _ h => nomatch h
theorem barrowRefill (core : Nat) : Statement (.barrowRefill core) := fun _ h => nomatch h
theorem decArrival (idx : Nat) : Statement (.decArrival idx) := fun _ h => nomatch h
theorem taskDispatch (core : Nat) : Statement (.taskDispatch core) := fun _ h => nomatch h
theorem waitAging (core : Nat) (chan : Fin 16) : Statement (.waitAging core chan) := fun _ h => nomatch h
theorem taskBudget (core : Nat) : Statement (.taskBudget core) := fun _ h => nomatch h
theorem taskEndRelease (core : Nat) : Statement (.taskEndRelease core) := fun _ h => nomatch h
theorem bufferedMessageSend (core : Nat) (idx : Nat) : Statement (.bufferedMessageSend core idx) := fun _ h => nomatch h
theorem lateFault (core : Nat) : Statement (.lateFault core) := fun _ h => nomatch h
theorem globalRequestAtHome (core : Nat) (nth : Nat) (ecc : Bool) : Statement (.globalRequestAtHome core nth ecc) := fun _ h => nomatch h
theorem atomicPerform (core : Nat) (nth : Nat) (ecc : Bool) : Statement (.atomicPerform core nth ecc) := fun _ h => nomatch h
theorem orderedAtomicSend (core : Nat) (nth : Nat) : Statement (.orderedAtomicSend core nth) := fun _ h => nomatch h
theorem globalResponse (core : Nat) (nth : Nat) : Statement (.globalResponse core nth) := fun _ h => nomatch h
theorem ackTimeout (core : Nat) (nth : Nat) : Statement (.ackTimeout core nth) := fun _ h => nomatch h
theorem crierOrder (rec : Nat) : Statement (.crierOrder rec) := fun _ h => nomatch h
theorem replicaUpdate (md : Nat) : Statement (.replicaUpdate md) := fun _ h => nomatch h
theorem gackExpose (rec : Nat) : Statement (.gackExpose rec) := fun _ h => nomatch h
theorem fwdStoreRemoteVisible (die : Nat) (rec : Nat) : Statement (.fwdStoreRemoteVisible die rec) := fun _ h => nomatch h
theorem pageWalk (who : WalkRef) (via : WalkVia) : Statement (.pageWalk who via) := fun _ h => nomatch h
theorem demandServiceExpiry (token : Nat) : Statement (.demandServiceExpiry token) := fun _ h => nomatch h
theorem parityUpdate (idx : Nat) (parity : Fin 2) : Statement (.parityUpdate idx parity) := fun _ h => nomatch h
theorem frameZero (frame : Nat) (job : Nat) : Statement (.frameZero frame job) := fun _ h => nomatch h
theorem engineCommandAccept (core : Nat) (nth : Nat) : Statement (.engineCommandAccept core nth) := fun _ h => nomatch h
theorem engineBlockSend (core : Nat) (nth : Nat) (ecc : Bool) : Statement (.engineBlockSend core nth ecc) := fun _ h => nomatch h
theorem engineBlockArrival (core : Nat) (nth : Nat) (blk : Nat) (got : Option (List (BitVec 8))) : Statement (.engineBlockArrival core nth blk got) := fun _ h => nomatch h
theorem blockResend (core : Nat) (nth : Nat) (blk : Nat) : Statement (.blockResend core nth blk) := fun _ h => nomatch h
theorem engineCommandComplete (core : Nat) (nth : Nat) : Statement (.engineCommandComplete core nth) := fun _ h => nomatch h
theorem collMatch (job : Nat) (gid : Nat) (use : Nat) : Statement (.collMatch job gid use) := fun _ h => nomatch h
theorem grammarExecute (core : Nat) (nth : Nat) : Statement (.grammarExecute core nth) := fun _ h => nomatch h
theorem mxuStart (mxu : Nat) : Statement (.mxuStart mxu) := fun _ h => nomatch h
theorem mmaRetire (core : Nat) : Statement (.mmaRetire core) := fun _ h => nomatch h
theorem czeroRetire (core : Nat) : Statement (.czeroRetire core) := fun _ h => nomatch h
theorem csclRetire (core : Nat) : Statement (.csclRetire core) := fun _ h => nomatch h
theorem caddRetire (core : Nat) : Statement (.caddRetire core) := fun _ h => nomatch h
theorem sqDoorbell (q : Fin 64) (tail : BitVec 12) : Statement (.sqDoorbell q tail) := fun _ h => nomatch h
theorem launchPacket (q : Fin 64) : Statement (.launchPacket q) := fun _ h => nomatch h
theorem graphPacket (q : Fin 64) : Statement (.graphPacket q) := fun _ h => nomatch h
theorem translationInvalidate (q : Fin 64) : Statement (.translationInvalidate q) := fun _ h => nomatch h
theorem translationInvalidateApply (unit : Nat) : Statement (.translationInvalidateApply unit) := fun _ h => nomatch h
theorem invalidateComplete (seq : Nat) : Statement (.invalidateComplete seq) := fun _ h => nomatch h
theorem dieApplyLaunch (die : Nat) : Statement (.dieApplyLaunch die) := fun _ h => nomatch h
theorem mapUpdate (unit : Nat) : Statement (.mapUpdate unit) := fun _ h => nomatch h
theorem gangGrant (job : Nat) (g : Nat) : Statement (.gangGrant job g) := fun _ h => nomatch h
theorem gangComplete (job : Nat) (g : Nat) : Statement (.gangComplete job g) := fun _ h => nomatch h
theorem jobCompletionRecord (job : Nat) : Statement (.jobCompletionRecord job) := fun _ h => nomatch h
theorem preemptStart (die : Nat) : Statement (.preemptStart die) := fun _ h => nomatch h
theorem preemptSave (job : Nat) (g : Nat) : Statement (.preemptSave job g) := fun _ h => nomatch h
theorem preemptSaveComplete (job : Nat) (g : Nat) : Statement (.preemptSaveComplete job g) := fun _ h => nomatch h
theorem gangResume (job : Nat) (g : Nat) : Statement (.gangResume job g) := fun _ h => nomatch h
theorem cqhead (q : Fin 64) (head : BitVec 12) : Statement (.cqhead q head) := fun _ h => nomatch h
theorem abort (jobid : BitVec 64) : Statement (.abort jobid) := fun _ h => nomatch h
theorem fqdb (token : BitVec 16) (verdict : Bool) : Statement (.fqdb token verdict) := fun _ h => nomatch h
theorem gevent (gid : BitVec 64) : Statement (.gevent gid) := fun _ h => nomatch h
theorem bar0RegisterWrite (offset : Nat) (value : BitVec 64) : Statement (.bar0RegisterWrite offset value) := fun _ h => nomatch h
theorem graphKernelComplete (gid : BitVec 64) : Statement (.graphKernelComplete gid) := fun _ h => nomatch h
theorem jobStop (job : Nat) : Statement (.jobStop job) := fun _ h => nomatch h
theorem jobTimeout (job : Nat) : Statement (.jobTimeout job) := fun _ h => nomatch h
theorem heartbeat (core : Nat) : Statement (.heartbeat core) := fun _ h => nomatch h
theorem heartbeatIntervalEnd (die : Nat) : Statement (.heartbeatIntervalEnd die) := fun _ h => nomatch h
theorem parityLocal (core : Nat) : Statement (.parityLocal core) := fun _ h => nomatch h
theorem dieHeartbeat (unit : Nat) : Statement (.dieHeartbeat unit) := fun _ h => nomatch h
theorem dieHeartbeatTimeout (unit : Nat) : Statement (.dieHeartbeatTimeout unit) := fun _ h => nomatch h
theorem peerVote (vote : Vote) : Statement (.peerVote vote) := fun _ h => nomatch h
theorem spareCoreTakeover (core : Nat) : Statement (.spareCoreTakeover core) := fun _ h => nomatch h
theorem instanceReplay (job : Nat) (g : Nat) (dom : Nat) : Statement (.instanceReplay job g dom) := fun _ h => nomatch h
theorem replayRootRestore (job : Nat) (g : Nat) (dom : Nat) : Statement (.replayRootRestore job g dom) := fun _ h => nomatch h
theorem gangReplay (job : Nat) (g : Nat) : Statement (.gangReplay job g) := fun _ h => nomatch h
theorem jobReplay (job : Nat) : Statement (.jobReplay job) := fun _ h => nomatch h
theorem domainInstanceEnd (job : Nat) (g : Nat) (dom : Nat) : Statement (.domainInstanceEnd job g dom) := fun _ h => nomatch h
theorem stripeRebuild (stripe : Nat) (symbol : Fin 12) : Statement (.stripeRebuild stripe symbol) := fun _ h => nomatch h
theorem ptpMessage (ptp : Ptp) : Statement (.ptpMessage ptp) := fun _ h => nomatch h
theorem powerGood (selfTest : SelfTest) : Statement (.powerGood selfTest) := fun _ h => nomatch h
theorem packageReset : Statement (.packageReset) := fun _ h => nomatch h
theorem firmwareImage (image : FwImage) : Statement (.firmwareImage image) := fun _ h => nomatch h
theorem setPlim (milliwatts : Nat) : Statement (.setPlim milliwatts) := fun _ h => nomatch h
theorem getVersion : Statement (.getVersion) := fun _ h => nomatch h
theorem getCapabilities : Statement (.getCapabilities) := fun _ h => nomatch h
theorem negotiateAlgorithms : Statement (.negotiateAlgorithms) := fun _ h => nomatch h
theorem getDigests (die : Nat) : Statement (.getDigests die) := fun _ h => nomatch h
theorem getCertificate (die : Nat) : Statement (.getCertificate die) := fun _ h => nomatch h
theorem challenge (die : Nat) (nonce : BitVec 256) : Statement (.challenge die nonce) := fun _ h => nomatch h
theorem getMeasurements (index : Nat) : Statement (.getMeasurements index) := fun _ h => nomatch h
theorem readingRequest (reading : ReadingReq) : Statement (.readingRequest reading) := fun _ h => nomatch h
theorem readingStart (reading : Nat) (core : Nat) : Statement (.readingStart reading core) := fun _ h => nomatch h
theorem readingEnd (reading : Nat) : Statement (.readingEnd reading) := fun _ h => nomatch h
theorem haltDie (die : Nat) : Statement (.haltDie die) := fun _ h => nomatch h
theorem resumeDie (die : Nat) : Statement (.resumeDie die) := fun _ h => nomatch h
theorem dbgctl (core : Nat) (value : BitVec 64) : Statement (.dbgctl core value) := fun _ h => nomatch h
theorem dbgstat (core : Nat) (value : BitVec 64) : Statement (.dbgstat core value) := fun _ h => nomatch h
theorem trcctl (core : Nat) (value : BitVec 64) : Statement (.trcctl core value) := fun _ h => nomatch h
theorem slctl (core : Nat) (value : BitVec 64) : Statement (.slctl core value) := fun _ h => nomatch h
theorem debugRegisterWrite (core : Nat) (num : Nat) (value : BitVec 64) : Statement (.debugRegisterWrite core num value) := fun _ h => nomatch h
theorem debugPathAccess (core : Nat) (access : DebugAccess) : Statement (.debugPathAccess core access) := fun _ h => nomatch h
theorem traceRecordWrite (core : Nat) : Statement (.traceRecordWrite core) := fun _ h => nomatch h
theorem stateLogRecordWrite (core : Nat) : Statement (.stateLogRecordWrite core) := fun _ h => nomatch h
theorem droopCapture (die : Nat) (domain : Fin 8) : Statement (.droopCapture die domain) := fun _ h => nomatch h
theorem droopHoldoffExpiry (die : Nat) (domain : Fin 8) : Statement (.droopHoldoffExpiry die domain) := fun _ h => nomatch h
theorem dieCacheTakesStore (core : Nat) (nth : Nat) : Statement (.dieCacheTakesStore core nth) := fun _ h => nomatch h
theorem residencyRequestAtSlice (core : Nat) (nth : Nat) (md : Fin 8) : Statement (.residencyRequestAtSlice core nth md) := fun _ h => nomatch h

end Sys2Proof.Laws.RoundTrip
end

