-- ==== Sys2Proof/Tests/Slice0.lean ====
section
/-! SUPPORT. The model's own tests: words written out from the manual's encoding maps, terms that are not well formed, the
manual's worked examples in single steps, and for every statement with premises concrete states that meet them, also where
its clauses meet. -/

namespace Sys2Proof.Tests

-- one theorem is checked after another: the threads of many waiting checks would fill the memory
set_option Elab.async false
open Sys2Proof.Machine

/-! ### Small states -/

/-- The guard 0b0000. -/
def always : Guard := ⟨false, 0⟩
/-- The package after reset but for core 0. -/
def withCore (c : Core) : State := { State.reset with cores := [(0, c)] }
/-- A core after reset but for x registers. -/
def xs (l : List (Fin 32 × Word)) : Core := l.foldl (fun c p => c.setX p.1 p.2) Core.reset
/-- A core with bytes stored at a place of its local memory. -/
def put (c : Core) (key n v : Nat) : Core := { c with loc := c.loc.writeNat key n v }
/-- The state after an instruction; the state itself where it stops. -/
def after (i : Instr) (s : State) : State := match exec i s with
  | .next t => t
  | _ => s
/-- Core 0 after an instruction on a core. -/
def run (i : Instr) (c : Core) : Core := (after i (withCore c)).core 0
/-- The code of the trap an instruction ends in, if it ends in one. -/
def trapOf (i : Instr) (c : Core) : Option Nat := match (after i (withCore c)).last with
  | .trapped t => some t.code
  | _ => none
/-- A message of core 0 to itself on channel 0. -/
def msg0 : Msg := selfMsg 0 7 0 0 [1, 2, 3, 4, 5, 6, 7, 8] 1
/-- A task from that message. -/
def task0 : Task := Task.start 1 0 msg0 1000 0
/-- A core with a task. -/
def busy (c : Core) (t : Task) : Core := { c with task := some t }
/-- A ring of two 16-byte slots at A offset 0x800 with one filled. -/
def ring0 (role : Nat) : Ring :=
  { head := 0, tail := 1, buf := 0, base := 0x800, slog := 4, clog := 1, fmt := 0, role := role, valid := true, reserved := 0 }
/-- A core with a task, that ring as ring 0, and v28 bound to it. -/
def bound (role : Nat) (k : Binding) : Core :=
  { busy Core.reset { task0 with binds := [(28, k)] } with rings := Core.reset.rings.set 0 (ring0 role) }

/-! ### Decoding -/

/-- Words written from the encoding maps of R169 to R177, from add to ror. -/
theorem test_decode_1 : [
    (0x40E66AE0, Instr.add ⟨true, 6⟩ 12 26 23),
    (0x40BE3B81, Instr.sub ⟨true, 3⟩ 28 14 28),
    (0x40E56AA2, Instr.mul ⟨true, 6⟩ 10 26 21),
    (0x405442E3, Instr.mulh ⟨false, 5⟩ 8 16 23),
    (0x40CE4464, Instr.mulhu ⟨true, 4⟩ 28 17 3),
    (0x4024B985, Instr.div ⟨false, 2⟩ 9 14 12),
    (0x4094BE26, Instr.divu ⟨true, 1⟩ 9 15 17),
    (0x40651107, Instr.rem ⟨false, 6⟩ 10 4 8),
    (0x40F2CBC8, Instr.remu ⟨true, 7⟩ 5 18 30),
    (0x4027E469, Instr.and ⟨false, 2⟩ 15 25 3),
    (0x402F6E4A, Instr.or ⟨false, 2⟩ 30 27 18),
    (0x409D7D2B, Instr.xor ⟨true, 1⟩ 26 31 9),
    (0x407940CC, Instr.andn ⟨false, 7⟩ 18 16 6),
    (0x405C894D, Instr.shl ⟨false, 5⟩ 25 2 10),
    (0x40E0F5AE, Instr.shr ⟨true, 6⟩ 1 29 13),
    (0x4019756F, Instr.sra ⟨false, 1⟩ 18 29 11),
    (0x401B8C50, Instr.ror ⟨false, 1⟩ 23 3 2)].all (fun p => decodeTableWord 32 p.1 == some p.2) = true := by decide

/-- Words written from the encoding maps of R169 to R177, from min to cmpltu. -/
theorem test_decode_2 : [
    (0x4074D731, Instr.min ⟨false, 7⟩ 9 21 25),
    (0x40254472, Instr.max ⟨false, 2⟩ 10 17 3),
    (0x40E338B3, Instr.minu ⟨true, 6⟩ 6 14 5),
    (0x4063E314, Instr.maxu ⟨false, 6⟩ 7 24 24),
    (0x41A71260, Instr.addCw ⟨true, 2⟩ 14 4 152),
    (0x41FE9C89, Instr.andCw ⟨true, 7⟩ 29 7 34),
    (0x41E710C6, Instr.orCw ⟨true, 6⟩ 14 4 49),
    (0x419A08B3, Instr.xorCw ⟨true, 1⟩ 20 2 44),
    (0x4257F28C, Instr.shlCw ⟨false, 5⟩ 15 28 163),
    (0x42DFC2F9, Instr.shrCw ⟨true, 5⟩ 31 16 190),
    (0x42F225F6, Instr.sraCw ⟨true, 7⟩ 4 9 125),
    (0x42512D7B, Instr.mulCw ⟨false, 5⟩ 2 11 94),
    (0x4332A6E0, Instr.cmpeq ⟨false, 3⟩ 5 9 23),
    (0x43C1B1A1, Instr.cmpne ⟨true, 4⟩ 3 12 13),
    (0x43439A02, Instr.cmplt ⟨false, 4⟩ 7 6 16),
    (0x43626923, Instr.cmpge ⟨false, 6⟩ 4 26 9),
    (0x43A31364, Instr.cmpltu ⟨true, 2⟩ 6 4 27)].all (fun p => decodeTableWord 32 p.1 == some p.2) = true := by decide

/-- Words written from the encoding maps of R169 to R177, from cmpgeu to brev. -/
theorem test_decode_3 : [
    (0x4353B885, Instr.cmpgeu ⟨false, 5⟩ 7 14 4),
    (0x44F11BAC, Instr.cmpeqCw ⟨true, 7⟩ 2 6 235),
    (0x44E13F19, Instr.cmpneCw ⟨true, 6⟩ 2 15 198),
    (0x44D15FDE, Instr.cmpltCw ⟨true, 5⟩ 2 23 247),
    (0x44D35327, Instr.cmpltuCw ⟨true, 5⟩ 6 20 201),
    (0x45F314E0, Instr.pand ⟨true, 7⟩ 6 5 7),
    (0x453314C1, Instr.por ⟨false, 3⟩ 6 5 6),
    (0x45939C22, Instr.pxor ⟨true, 1⟩ 7 7 1),
    (0x45F28CC3, Instr.pandn ⟨true, 7⟩ 5 3 6),
    (0x457C1804, Instr.pmovx ⟨false, 7⟩ 24 6),
    (0x46196FE0, Instr.extu ⟨false, 1⟩ 18 27 31),
    (0x46DC5C41, Instr.exts ⟨true, 5⟩ 24 23 2),
    (0x46A2EEE2, Instr.ins ⟨true, 2⟩ 5 27 23),
    (0x46F82003, Instr.clz ⟨true, 7⟩ 16 8),
    (0x467C3004, Instr.ctz ⟨false, 7⟩ 24 12),
    (0x466A3405, Instr.popc ⟨false, 6⟩ 20 13),
    (0x46B73406, Instr.brev ⟨true, 3⟩ 14 13)].all (fun p => decodeTableWord 32 p.1 == some p.2) = true := by decide

/-- Words written from the encoding maps of R169 to R177, from bswap to loop. -/
theorem test_decode_4 : [
    (0x469DD407, Instr.bswap ⟨true, 1⟩ 27 21),
    (0x47222944, Instr.extuCw ⟨false, 2⟩ 4 10 81),
    (0x471AE95D, Instr.extsCw ⟨false, 1⟩ 21 26 87),
    (0x47A9C77A, Instr.insCw ⟨true, 2⟩ 19 17 222),
    (0x489880B8, Instr.ldc ⟨true, 1⟩ 17 46),
    (0x49E4A720, Instr.lea ⟨true, 6⟩ 9 9 25),
    (0x494FE761, Instr.adda ⟨false, 4⟩ 31 25 27),
    (0x49DCF002, Instr.pfmt ⟨true, 5⟩ 25 28),
    (0x495228E3, Instr.sfmt ⟨false, 5⟩ 4 10 7),
    (0x4A122668, Instr.leaCw ⟨false, 1⟩ 4 9 154),
    (0x4A74BE71, Instr.addaCw ⟨false, 7⟩ 9 15 156),
    (0x4A767533, Instr.sfmtCw ⟨false, 7⟩ 12 29 76),
    (0x502C702B, Instr.br ⟨false, 2⟩ 0xC702B#20),
    (0x51137888, Instr.call ⟨false, 1⟩ 0x37888#20),
    (0x52A02C00, Instr.jr ⟨true, 2⟩ 11),
    (0x52900001, Instr.ret ⟨true, 1⟩),
    (0x53EFFA4C, Instr.loop ⟨true, 6⟩ 1 31 14924)].all (fun p => decodeTableWord 32 p.1 == some p.2) = true := by decide

/-- Words written from the encoding maps of R169 to R177, from endTask to vst. -/
theorem test_decode_5 : [
    (0x54B00000, Instr.endTask ⟨true, 3⟩),
    (0x54E00401, Instr.lbrk ⟨true, 6⟩ 1),
    (0x55B8A680, Instr.vfromx ⟨true, 3⟩ 17 9 20),
    (0x55F4A001, Instr.vtox ⟨true, 7⟩ 9 8),
    (0x559E3C02, Instr.vtoxh ⟨true, 1⟩ 28 15),
    (0x55DF2803, Instr.vsplatx ⟨true, 5⟩ 30 10),
    (0x56E04C00, Instr.ltld ⟨true, 6⟩ 19),
    (0x57CDE460, Instr.sample ⟨true, 4⟩ 27 25 3),
    (0x574EBD21, Instr.topkm ⟨false, 4⟩ 29 15 9),
    (0x579BF7C2, Instr.own ⟨true, 1⟩ 23 29 30),
    (0x58C2B2D8, Instr.ldN ⟨true, 4⟩ 5 12 22 3),
    (0x586B7DEC, Instr.ldI ⟨false, 6⟩ 22 31 15 1),
    (0x59B4F52E, Instr.ldCw ⟨true, 3⟩ 9 29 75 2),
    (0x5A2E7470, Instr.st ⟨false, 2⟩ 28 29 3 2),
    (0x5BB3488A, Instr.stCw ⟨true, 3⟩ 6 18 34 2),
    (0x5CF1AAE0, Instr.vld ⟨true, 7⟩ 3 10 23),
    (0x5D6624C0, Instr.vst ⟨false, 6⟩ 12 9 6)].all (fun p => decodeTableWord 32 p.1 == some p.2) = true := by decide

/-- Words written from the encoding maps of R169 to R177, from vldx to afadd. -/
theorem test_decode_6 : [
    (0x5EB39F48, Instr.vldx ⟨true, 3⟩ 7 7 26 1),
    (0x5FAE0EF8, Instr.vstx ⟨true, 2⟩ 28 3 23 3),
    (0x60793991, Instr.gld ⟨false, 7⟩ 18 14 3 2 true),
    (0x61F97A1D, Instr.gst ⟨true, 7⟩ 18 30 4 3 true true),
    (0x62A27E01, Instr.gvld ⟨true, 2⟩ 4 31 4 true),
    (0x63DFF985, Instr.gvst ⟨true, 5⟩ 31 30 3 true true),
    (0x64402A40, Instr.gpfDc ⟨false, 4⟩ 10 18),
    (0x64403781, Instr.gpfLlc ⟨false, 4⟩ 13 28),
    (0x655DCAF4, Instr.aadd ⟨false, 5⟩ 27 18 23 true true),
    (0x66B54274, Instr.aand ⟨true, 3⟩ 10 16 19 true true),
    (0x679161F4, Instr.aor ⟨true, 1⟩ 2 24 15 true true),
    (0x686EE534, Instr.axor ⟨false, 6⟩ 29 25 9 true true),
    (0x69CEBC5C, Instr.amin ⟨true, 4⟩ 29 15 2 true true true),
    (0x6AB4455C, Instr.amax ⟨true, 3⟩ 8 17 10 true true true),
    (0x6B4409D4, Instr.aswp ⟨false, 4⟩ 8 2 14 true true),
    (0x6CCA5934, Instr.acas ⟨true, 4⟩ 20 22 9 true true),
    (0x6DD86CB0, Instr.afadd ⟨true, 5⟩ 16 27 5 true)].all (fun p => decodeTableWord 32 p.1 == some p.2) = true := by decide

/-- Words written from the encoding maps of R169 to R177, from vaor to hdem. -/
theorem test_decode_7 : [
    (0x6EC25AF0, Instr.vaor ⟨true, 4⟩ 4 22 23 true),
    (0x70D00005, Instr.fenceAcq ⟨true, 5⟩ 1),
    (0x70B0000A, Instr.fenceRel ⟨true, 3⟩ 2),
    (0x70400007, Instr.fenceFull ⟨false, 4⟩ 1),
    (0x71F028A0, Instr.tset ⟨true, 7⟩ 10 5),
    (0x719C4401, Instr.tgen ⟨true, 1⟩ 24 17),
    (0x72F00400, Instr.bara ⟨true, 7⟩ 1),
    (0x72C00401, Instr.bard ⟨true, 4⟩ 1),
    (0x72E19002, Instr.barq ⟨true, 6⟩ 3 4),
    (0x73E51400, Instr.rdef ⟨true, 6⟩ 10 5),
    (0x73131C01, Instr.radvHd ⟨false, 1⟩ 6 7),
    (0x7357A402, Instr.radvTl ⟨false, 5⟩ 15 9),
    (0x739C9003, Instr.rqry ⟨true, 1⟩ 25 4),
    (0x73DE9C04, Instr.bind ⟨true, 5⟩ 1 7),
    (0x73FF8005, Instr.unbind ⟨true, 7⟩ 3),
    (0x746D8400, Instr.hpin ⟨false, 6⟩ 27 1),
    (0x74406181, Instr.hdem ⟨false, 4⟩ 24 12)].all (fun p => decodeTableWord 32 p.1 == some p.2) = true := by decide

/-- Words written from the encoding maps of R169 to R177, from hevt to hbt. -/
theorem test_decode_8 : [
    (0x74204C02, Instr.hevt ⟨false, 2⟩ 19),
    (0x78C051A0, Instr.send ⟨true, 4⟩ 20 13),
    (0x78502FA1, Instr.sendv ⟨false, 5⟩ 11 29),
    (0x78E02122, Instr.reply ⟨true, 6⟩ 8 9),
    (0x78A032C3, Instr.dec ⟨true, 2⟩ 12 22),
    (0x785C83E4, Instr.msgrd ⟨false, 5⟩ 25 31),
    (0x79129DFA, Instr.spawn ⟨false, 1⟩ 5 7 15 13),
    (0x7ABD8660, Instr.cpy ⟨true, 3⟩ 27 1 19),
    (0x7A39CC81, Instr.cpys ⟨false, 3⟩ 19 19 4),
    (0x7A9FD6A2, Instr.efq ⟨true, 1⟩ 31 21 21),
    (0x7A7C6D63, Instr.coll ⟨false, 7⟩ 24 27 11),
    (0x7AB68424, Instr.gmask ⟨true, 3⟩ 13 1 1),
    (0x7AA86225, Instr.gstep ⟨true, 2⟩ 16 24 17),
    (0x7C4D2040, Instr.csrr ⟨false, 4⟩ 26 258),
    (0x7C2C2601, Instr.csrw ⟨false, 2⟩ 24 304),
    (0x7D200400, Instr.trap ⟨false, 2⟩ 1),
    (0x7DB00001, Instr.hbt ⟨true, 3⟩)].all (fun p => decodeTableWord 32 p.1 == some p.2) = true := by decide

/-- Words written from the encoding maps of R169 to R177, from brk to vshr. -/
theorem test_decode_9 : [
    (0x7D900002, Instr.brk ⟨true, 1⟩),
    (0x7DF03403, Instr.trc ⟨true, 7⟩ 13),
    (0x7E103C00, Instr.cdo ⟨false, 1⟩ 15),
    (0x7EF05C01, Instr.cdc ⟨true, 7⟩ 23),
    (0x7E704562, Instr.cdp ⟨false, 7⟩ 17 11),
    (0x80F243F1, Instr.vadd ⟨true, 7⟩ 4 16 31 true 1),
    (0x81B99993, Instr.vsub ⟨true, 3⟩ 19 6 12 true 3),
    (0x829152E3, Instr.vmul ⟨true, 1⟩ 2 20 23 3),
    (0x83132CAA, Instr.vfma ⟨false, 1⟩ 6 11 5 10),
    (0x8448B585, Instr.vmin ⟨false, 4⟩ 17 13 12 5),
    (0x85AF63EB, Instr.vmax ⟨true, 2⟩ 30 24 31 11),
    (0x86D76E80, Instr.vand ⟨true, 5⟩ 14 27 20),
    (0x86677C41, Instr.vor ⟨false, 6⟩ 14 31 2),
    (0x866F0DA2, Instr.vxor ⟨false, 6⟩ 30 3 13),
    (0x862C8C23, Instr.vandn ⟨false, 2⟩ 25 3 1),
    (0x87482EC4, Instr.vshl ⟨false, 4⟩ 16 11 22 4),
    (0x88423027, Instr.vshr ⟨false, 4⟩ 4 12 1 7)].all (fun p => decodeTableWord 32 p.1 == some p.2) = true := by decide

/-- Words written from the encoding maps of R169 to R177, from vceq to vmulCw. -/
theorem test_decode_10 : [
    (0x893AC524, Instr.vceq ⟨false, 3⟩ 21 17 9 4),
    (0x8AF4FC63, Instr.vclt ⟨true, 7⟩ 9 31 3 3),
    (0x8B96E0C9, Instr.vcle ⟨true, 1⟩ 13 24 6 9),
    (0x8CD59680, Instr.vsel ⟨true, 5⟩ 11 5 20),
    (0x8D29680A, Instr.vabs ⟨false, 2⟩ 18 26 10),
    (0x8DE1B41B, Instr.vneg ⟨true, 6⟩ 3 13 11),
    (0x8E96E064, Instr.vdot ⟨true, 1⟩ 13 24 3 4),
    (0x9050F680, Instr.vperm ⟨false, 5⟩ 1 29 20),
    (0x91BDC028, Instr.vzipl ⟨true, 3⟩ 27 16 1 2),
    (0x912D1825, Instr.vziph ⟨false, 2⟩ 26 6 1 1),
    (0x91FC8B0A, Instr.vuzpe ⟨true, 7⟩ 25 2 24 2),
    (0x91F5DB4F, Instr.vuzpo ⟨true, 7⟩ 11 22 26 3),
    (0x923B8C06, Instr.vredadd ⟨false, 3⟩ 23 3 6),
    (0x93AA6806, Instr.vredmax ⟨true, 2⟩ 20 26 6),
    (0x94D81C01, Instr.vredmin ⟨true, 5⟩ 16 7 1),
    (0x959F922B, Instr.vaddCw ⟨true, 1⟩ 31 4 138 3),
    (0x96A09663, Instr.vmulCw ⟨true, 2⟩ 1 5 152 3)].all (fun p => decodeTableWord 32 p.1 == some p.2) = true := by decide

/-- Words written from the encoding maps of R169 to R177, from vfmaCw to log2. -/
theorem test_decode_11 : [
    (0x975B6102, Instr.vfmaCw ⟨false, 5⟩ 22 24 64 2),
    (0x98AA5CB5, Instr.vcvtRne ⟨true, 2⟩ 20 23 5 true 5),
    (0x9960A8B9, Instr.vcvtRtz ⟨false, 6⟩ 1 10 5 true 9),
    (0x9A272115, Instr.vcvtRmi ⟨false, 2⟩ 14 8 8 true 5),
    (0x9BEBC953, Instr.vcvtRpi ⟨true, 6⟩ 23 18 10 true 3),
    (0x9CADC666, Instr.qnt ⟨true, 2⟩ 27 17 19 6),
    (0x9D1FBEF8, Instr.qntNs ⟨false, 1⟩ 31 15 23 24),
    (0x9E586C68, Instr.dqn ⟨false, 5⟩ 16 27 3 8),
    (0x9F7A9001, Instr.ltd ⟨false, 7⟩ 21 4 true),
    (0xA0987401, Instr.lte ⟨true, 1⟩ 16 29 true),
    (0xA2B65120, Instr.had ⟨true, 3⟩ 12 20 9 false),
    (0xA2646063, Instr.hadInv ⟨false, 6⟩ 8 24 3 true),
    (0xA362F400, Instr.rngCore ⟨false, 6⟩ 5 29),
    (0xA3C7FC01, Instr.rngIdx ⟨true, 4⟩ 15 31),
    (0xA41241A5, Instr.srnd ⟨false, 1⟩ 4 16 13 5),
    (0xA87B440A, Instr.exp2 ⟨false, 7⟩ 22 17),
    (0xA978E80A, Instr.log2 ⟨false, 7⟩ 17 26)].all (fun p => decodeTableWord 32 p.1 == some p.2) = true := by decide

/-- Words written from the encoding maps of R169 to R177, from rcp to mxcfg. -/
theorem test_decode_12 : [
    (0xAA46F40A, Instr.rcp ⟨false, 4⟩ 13 29),
    (0xABE3D00A, Instr.rsq ⟨true, 6⟩ 7 20),
    (0xACDB180A, Instr.sqrt ⟨true, 5⟩ 22 6),
    (0xADA95C0A, Instr.tanh ⟨true, 2⟩ 18 23),
    (0xB01F4C0A, Instr.msmrg ⟨false, 1⟩ 30 19),
    (0xB86748C1, Instr.mma ⟨false, 6⟩ 7 4 35 true),
    (0xB9ADC341, Instr.mmas ⟨true, 2⟩ 13 12 13 true),
    (0xBABC8741, Instr.mmat ⟨true, 3⟩ 12 8 29 true),
    (0xBCF48000, Instr.czero ⟨true, 7⟩ 18),
    (0xBC134801, Instr.cscl ⟨false, 1⟩ 13 8),
    (0xBCE140B2, Instr.ccvt ⟨true, 6⟩ 5 11),
    (0xBC2D5F03, Instr.cadd ⟨false, 2⟩ 53 31),
    (0xBD700000, Instr.mdrain ⟨false, 7⟩),
    (0xBDA40001, Instr.mqry ⟨true, 2⟩ 8),
    (0xBD706402, Instr.mxcfg ⟨false, 7⟩ 25)].all (fun p => decodeTableWord 32 p.1 == some p.2) = true := by decide

/-- One term for each check of `fieldsAssigned` and `fieldsReserved` that fails it alone. -/
theorem test_ill_formed : [Instr.loop always 0 1 0, .gld always 1 2 5 0 true, .gst always 1 2 5 0 false true,
    .gvld always 1 2 5 true, .gvst always 1 2 7 true true, .fenceAcq always 5, .fenceRel always 6, .fenceFull always 7,
    .csrr always 1 0x005, .csrw always 1 0x150, .csrw always 1 0x020, .csrw always 1 0x025, .vadd always 1 2 3 false 12,
    .vadd always 1 2 3 true 8, .vsub always 1 2 3 true 11, .vsub always 1 2 3 false 15, .vmul always 1 2 3 12,
    .vfma always 1 2 3 7, .vmin always 1 2 3 12, .vmax always 1 2 3 13, .vshl always 1 2 3 8, .vshr always 1 2 3 8,
    .vceq always 1 2 3 12, .vclt always 1 2 3 12, .vcle always 1 2 3 14, .vabs always 1 2 4, .vneg always 1 2 7,
    .vdot always 1 2 3 8, .vredadd always 1 2 0, .vredmax always 1 2 12, .vredmin always 1 2 12, .vfmaCw always 1 2 3 1,
    .vcvtRne always 1 2 12 false 10, .vcvtRtz always 1 2 10 false 12, .vcvtRmi always 1 2 12 false 0,
    .vcvtRpi always 1 2 0 false 12, .qnt always 1 2 3 1, .qntNs always 1 2 3 10, .dqn always 1 2 3 27, .had always 2 4 3 false,
    .had always 4 4 3 true, .hadInv always 4 2 3 false, .srnd always 1 2 3 2, .ldI always 1 2 3 3,
    .gld always 1 2 1 0 false, .gst always 1 2 1 0 true false, .gvld always 1 2 4 false,
    .gvst always 1 2 1 false false].all (fun i => !i.wf) = true := by decide

/-- What the encoding tables refuse is refused by name, res0 fields after unassigned ones (R167). -/
theorem test_decode_refuses : decodeBundle 0x5800001C 0 = .error .resField ∧ decodeBundle 0x4F000000 0 = .error .illegalOpcode ∧
    decodeBundle 0x40000015 0 = .error .illegalOpcode ∧ decodeBundle 0xC0000000 0 = .error .illegalBundle :=
  ⟨rfl, rfl, rfl, rfl⟩

/-! ### Witnesses and worked examples: scalar, predicate and control instructions -/

/-- At reset every instruction with the guard 0b0000 runs: the premise `Runs` of the statements. -/
theorem witness_runs (i : Instr) (h : i.guard = always) : State.reset.Runs i :=
  ⟨by rw [h]; decide, fun _ _ => List.not_mem_nil⟩
/-- The same of core 0 with other contents, where it has no request out. -/
theorem witness_runs_core (i : Instr) (c : Core) (h : i.guard = always) (hr : c.reqs = [])
    (ht : ∀ t, c.task = some t → t.dead = []) : (withCore c).Runs i := by
  have hme : (withCore c).me = c := rfl
  refine ⟨?_, fun r _ => ?_⟩
  · rw [h, hme]
    simp [Core.guardHolds, Core.k, Regs.getK, always]
  · rw [hme]
    simp only [Core.pendingRegs, hr, List.filterMap_nil, List.nil_append]
    cases h2 : c.task with
    | none => exact List.not_mem_nil
    | some t => simp [ht t h2]

/-- R202: ADD wraps; MULH of −1 and −1 is 0; MIN and MAX are signed; a write to x0 is discarded. -/
theorem test_scalar : (run (.add always 3 1 2) (xs [(1, 0xFFFFFFFFFFFFFFFF), (2, 2)])).regs.x[3] = 1 ∧
    (run (.mulh always 3 1 1) (xs [(1, 0xFFFFFFFFFFFFFFFF)])).regs.x[3] = 0 ∧
    (run (.min always 3 1 2) (xs [(1, 0xFFFFFFFFFFFFFFFF), (2, 2)])).regs.x[3] = 0xFFFFFFFFFFFFFFFF ∧
    (run (.add always 0 1 2) (xs [(1, 5), (2, 2)])).x 0 = 0 := by decide

/-- R203: the three rows of the table, at their boundary operands. -/
theorem test_division : (run (.div always 3 1 0) (xs [(1, 5)])).regs.x[3] = 0xFFFFFFFFFFFFFFFF ∧
    (run (.div always 3 1 2) (xs [(1, 0x8000000000000000), (2, 0xFFFFFFFFFFFFFFFF)])).regs.x[3] = 0x8000000000000000 ∧
    (run (.rem always 3 1 2) (xs [(1, 0x8000000000000000), (2, 0xFFFFFFFFFFFFFFFF)])).regs.x[3] = 0 ∧
    (run (.div always 3 1 2) (xs [(1, 0xFFFFFFFFFFFFFFF9), (2, 2)])).regs.x[3] = 0xFFFFFFFFFFFFFFFD ∧
    (run (.rem always 3 1 2) (xs [(1, 0xFFFFFFFFFFFFFFF9), (2, 2)])).regs.x[3] = 0xFFFFFFFFFFFFFFFF ∧
    (run (.divu always 3 1 0) (xs [(1, 5)])).regs.x[3] = 0xFFFFFFFFFFFFFFFF ∧
    (run (.remu always 3 1 0) (xs [(1, 5)])).regs.x[3] = 5 := by decide

/-- R204: counts of 63, 64 and −1; only ROR reduces the count. -/
theorem test_shifts : (run (.shl always 3 1 2) (xs [(1, 3), (2, 63)])).regs.x[3] = 0x8000000000000000 ∧
    (run (.shl always 3 1 2) (xs [(1, 3), (2, 64)])).regs.x[3] = 0 ∧
    (run (.sra always 3 1 2) (xs [(1, 0x8000000000000000), (2, 0xFFFFFFFFFFFFFFFF)])).regs.x[3] = 0xFFFFFFFFFFFFFFFF ∧
    (run (.ror always 3 1 2) (xs [(1, 1), (2, 65)])).regs.x[3] = 0x8000000000000000 := by decide

/-- R205, R206: an unsigned and a signed compare of the same bits; PANDN; PMOVX of k0. -/
theorem test_predicates : (run (.cmpltu always 3 1 2) (xs [(1, 0xFFFFFFFFFFFFFFFF), (2, 2)])).regs.k[3] = false ∧
    (run (.cmplt always 3 1 2) (xs [(1, 0xFFFFFFFFFFFFFFFF), (2, 2)])).regs.k[3] = true ∧
    (run (.pandn always 2 0 1) Core.reset).regs.k[2] = true ∧ (run (.pmovx always 3 0) Core.reset).regs.x[3] = 1 := by
  decide

/-- R207, R208: a field that runs past bit 63 is cut off there; CLZ of 0 is 64. -/
theorem test_bits : (run (.extu always 3 1 2) (xs [(1, 0xF000000000000000), (2, 0x083C)])).regs.x[3] = 0xF ∧
    (run (.exts always 3 1 2) (xs [(1, 0xF0), (2, 0x0404)])).regs.x[3] = 0xFFFFFFFFFFFFFFFF ∧
    (run (.clz always 3 1) Core.reset).regs.x[3] = 64 ∧
    (run (.bswap always 3 1) (xs [(1, 0x0102030405060708)])).regs.x[3] = 0x0807060504030201 := by decide

/-- R121, R201, R211, R212: each clause of `Pointers` at a boundary: the last byte of the address space, one byte beyond and
one below 0; a format of 4 bits by one and by two elements; a scaled format by one block and by one element. -/
theorem test_pointers : (run (.adda always 3 1 2) (xs [(1, 0x000FFFFFFFFFFFFE), (2, 1)])).regs.x[3] = 0x000FFFFFFFFFFFFF ∧
    trapOf (.adda always 3 1 2) (xs [(1, 0x000FFFFFFFFFFFFF), (2, 1)]) = some TrapCode.ptrOverflow.code ∧
    trapOf (.adda always 3 1 2) (xs [(2, 0xFFFFFFFFFFFFFFFF)]) = some TrapCode.ptrOverflow.code ∧
    trapOf (.sfmt always 3 1 2) (xs [(2, 0x400)]) = some TrapCode.fmtMismatch.code ∧
    (run (.lea always 3 1 2) (xs [(1, 0x0000000000000100), (2, 3)])).regs.x[3] = 0x103 := by decide

/-- Formats for the clauses of LEA: 8 bits or more, fewer, and scaled, with a legal format word each. -/
theorem witness_pointer_formats : (∃ f, 0 < f ∧ f < 64 ∧ fmtAssigned f = true ∧ fmtScaled f = false ∧ 8 ≤ fmtBits f) ∧
    (∃ f, 0 < f ∧ f < 64 ∧ fmtAssigned f = true ∧ fmtScaled f = false ∧ fmtBits f < 8) ∧
    (∃ f, 0 < f ∧ f < 64 ∧ fmtAssigned f = true ∧ fmtScaled f = true) :=
  ⟨⟨1, by decide⟩, ⟨8, by decide⟩, ⟨10, by decide⟩⟩

/-- R209: the moves between x and v registers that are no windows. -/
theorem test_moves : (run (.vfromx always 4 1 2) (xs [(1, 5), (2, 6)])).regs.v[4] = 0x00000000000000060000000000000005 ∧
    Core.reset.binding 4 = none ∧
    (run (.vtoxh always 3 4) { Core.reset with regs := Regs.zero.setV 4 0x00000000000000060000000000000005 }).regs.x[3] = 6 := by
  decide

/-- R213, R162: a branch back by three bundles, a CALL's link, a misaligned JR; and the target that the next bundle takes. -/
theorem test_transfers : (run (.br always 0xFFFFD) { Core.reset with pc := 0x100 }).target = some 0xE8 ∧
    (run (.call always 2) { Core.reset with pc := 0x100 }).regs.x[31] = 0x108 ∧
    trapOf (.jr always 1) (xs [(1, 4)]) = some TrapCode.align.code ∧
    ({ Core.reset with pc := 0x100, target := some 0xE8 } : Core).advance.pc = 0xE8 := by decide

/-- R214, R216, R218: LOOP with a count of 2 and of 0, LBRK, and END with an empty and a full domain stack. -/
theorem test_loops : (run (.loop always 1 9 5) { xs [(9, 2)] with pc := 0x100 }).regs.le[1] = 0x128 ∧
    (run (.loop always 1 9 5) { xs [(9, 2)] with pc := 0x100 }).target = none ∧
    (run (.loop always 1 9 5) { Core.reset with pc := 0x100 }).target = some 0x130 ∧
    (run (.endTask always) (busy Core.reset task0)).endSeen = true ∧
    trapOf (.endTask always) (busy Core.reset { task0 with domains := [(1, 0)] }) = some TrapCode.protFault.code := by decide

/-- R215: both sets end at one bundle: the inner set's last pass, then the outer set repeats. -/
theorem test_nested_loops :
    let c : Core := { Core.reset with
      pc := 0x28
      regs := { Regs.zero with lb := #v[0x8, 0x10], le := #v[0x28, 0x28], lc := #v[3, 1] } }
    c.advance.pc = 0x8 ∧ c.advance.regs.lc = #v[2, 0] := by decide

/-! ### Local memory, windows and rings -/

/-- Loads whose last byte is the last of A, and of C. -/
theorem witness_canRead : Core.reset.CanRead 0x2FFF8 8 ∧ Core.reset.CanRead 0x8001FFF0 16 ∧ Core.reset.CanRead 0 1 :=
  ⟨⟨⟨by decide, by decide, by decide, by decide, by decide⟩, by decide⟩,
    ⟨⟨by decide, by decide, by decide, by decide, by decide⟩, by decide⟩,
    ⟨⟨by decide, by decide, by decide, by decide, by decide⟩, by decide⟩⟩
/-- Stores right above the constant window, and to the last bytes of W. -/
theorem witness_canWrite : Core.reset.CanWrite 0x800 8 ∧ Core.reset.CanWrite 0x4002FFF0 16 :=
  ⟨⟨⟨by decide, by decide, by decide, by decide, by decide⟩, by decide, by decide, by decide, by decide, by decide⟩,
    ⟨⟨by decide, by decide, by decide, by decide, by decide⟩, by decide, by decide, by decide, by decide, by decide⟩⟩
/-- The address a load or store of the witnesses computes. -/
theorem witness_ea : eaOf (xs [(1, 0x2FFF8)]).regs.x[1] 0 = 0x2FFF8 ∧ eaOf 0xFFFFFFFFFFFFFFFF 0x801 = 0x800 := by decide

/-- R220, R221: sign and zero extension of a byte, a store's low bytes, and LD of a ring descriptor (R124, R129). -/
theorem test_local : (run (.ldI always 3 0 1 0) (put (xs [(1, 0x900)]) 0x900 2 0x1F0)).regs.x[3] = 0xFFFFFFFFFFFFFFF0 ∧
    (run (.ldN always 3 0 1 1) (put (xs [(1, 0x900)]) 0x900 2 0x1F0)).regs.x[3] = 0x1F0 ∧
    (run (.st always 3 1 0 1) (xs [(1, 0x800), (3, 0xABCD1234)])).loc = [(0x800, 0x34), (0x801, 0x12)] ∧
    (run (.ldN always 3 1 0 3) (bound 3 ⟨0, 0, 0⟩ |> fun c => { c with regs := c.regs.setX 1 0xC0000008 })).regs.x[3] = 1 := by
  decide

/-- R220: each clause of the traps of a local access at its boundary: the address 2^32, a bit of [29:18], one byte past A,
misaligned, the last granule of the constant window, and a load of 4 bytes and a store in the control space. -/
theorem test_local_traps : trapOf (.ldN always 3 1 2 0) (xs [(1, 0xFFFFFFFF), (2, 1)]) = some TrapCode.bufBounds.code ∧
    trapOf (.ldN always 3 1 0 0) (xs [(1, 0x40000)]) = some TrapCode.bufBounds.code ∧
    trapOf (.ldN always 3 1 0 1) (xs [(1, 0x2FFFF)]) = some TrapCode.bufBounds.code ∧
    trapOf (.st always 3 1 0 1) (xs [(1, 1)]) = some TrapCode.align.code ∧
    trapOf (.st always 3 1 0 3) (xs [(1, 0x7F8)]) = some TrapCode.bufAccess.code ∧
    trapOf (.ldN always 3 1 0 2) (xs [(1, 0xC0000000)]) = some TrapCode.bufAccess.code ∧
    trapOf (.st always 3 1 0 3) (xs [(1, 0xC0000000)]) = some TrapCode.bufAccess.code ∧
    LocalSpan 0x7F8 8 :=
  ⟨by decide, by decide, by decide, by decide, by decide, by decide, by decide,
    ⟨by decide, by decide, by decide, by decide, by decide⟩⟩
/-- A store stopped by BUFACL alone, and by a preserved range alone. -/
theorem witness_store_rights : aclBit ({ Core.reset with bufacl := 0x808080#24 } : Core).acl 1 6 = false ∧
    (busy Core.reset { task0 with preserved := [⟨1, 0, 16, 0⟩] }).preservedBytes 1 8 8 = true := by decide

/-- Registers that are no windows read and write as `VectorLanes` and its like ask; a gather of 16 equal addresses. -/
theorem witness_vectors : readVs [1, 2] [] Core.reset = .ok ([0, 0], Core.reset) ∧
    readVs [1, 2, 3] [] Core.reset = .ok ([0, 0, 0], Core.reset) ∧ writeV 3 5 Core.reset = .ok (Core.reset.putV 3 5) ∧
    (∀ i, i < 16 → eaOf 0 (word (lane (0 : Vec) 8 i)) = 0) :=
  ⟨rfl, rfl, rfl, by decide⟩
/-- R222: VSTX of two equal addresses leaves the higher lane. -/
theorem test_scatter : (run (.vstx always 3 1 2 3) { xs [(1, 0x800)] with
    regs := (xs [(1, 0x800)]).regs.setV 3 0x00000000000000060000000000000005 }).loc = [(0x800, 6)] := by decide

/-- R133: a window read in the middle of a slot, at its end, and with no pop left; a write on a SEND ring with a push left and
with none, and on a RECV ring. -/
theorem test_windows : (run (.vtox always 3 28) (bound 4 ⟨0, 0, 0⟩)).binding 28 = some ⟨0, 0, 0⟩ ∧
    (run (.vtox always 3 28) (bound 4 ⟨0, 0, 0⟩)).headOf 0 = 1 ∧
    trapOf (.vtox always 3 28) ({ bound 4 ⟨0, 0, 0⟩ with rings := Core.reset.rings.set 0 { ring0 4 with tail := 0 } }) =
      some TrapCode.ringUnderrun.code ∧
    (run (.vtox always 3 28) ({ bound 4 ⟨0, 0, 0⟩ with rings := Core.reset.rings.set 0 { ring0 4 with slog := 5 } })).binding 28 =
      some ⟨0, 16, 0⟩ ∧
    (run (.vsplatx always 28 1) (bound 3 ⟨0, 0, 0⟩)).tailOf 0 = 2 ∧
    trapOf (.vsplatx always 28 1) ({ bound 3 ⟨0, 0, 0⟩ with rings := Core.reset.rings.set 0 { ring0 3 with tail := 2 } }) =
      some TrapCode.ringOverrun.code ∧
    trapOf (.vsplatx always 28 1) (bound 4 ⟨0, 0, 0⟩) = some TrapCode.bufAccess.code := by decide

/-- R236 to R239: an empty ring redefined and undefined, RADV by 0, by as many slots as there are and by one more, BIND and
UNBIND. -/
theorem test_rings : (run (.rdef always 1 2) (xs [(2, 0x008004101C000000)])).rings[1] = ringOfWord 0x008004101C000000 ∧
    (run (.rdef always 1 2) Core.reset).rings[1] = Ring.zero ∧
    (run (.radvHd always 0 2) (bound 3 ⟨0, 0, 0⟩)).headOf 0 = 0 ∧
    (run (.radvHd always 0 2) ({ bound 3 ⟨0, 0, 0⟩ with regs := (xs [(2, 1)]).regs })).headOf 0 = 1 ∧
    trapOf (.radvHd always 0 2) ({ bound 3 ⟨0, 0, 0⟩ with regs := (xs [(2, 2)]).regs }) = some TrapCode.ringUnderrun.code ∧
    (run (.radvTl always 0 2) ({ bound 3 ⟨0, 0, 0⟩ with regs := (xs [(2, 1)]).regs })).tailOf 0 = 2 ∧
    trapOf (.radvTl always 0 2) ({ bound 3 ⟨0, 0, 0⟩ with regs := (xs [(2, 2)]).regs }) = some TrapCode.ringOverrun.code ∧
    (run (.bind always 0 0) ({ bound 3 ⟨0, 0, 0⟩ with task := some task0 })).binding 28 = some ⟨0, 0, 0⟩ ∧
    (run (.unbind always 0) (bound 3 ⟨0, 0, 0⟩)).binding 28 = none := by decide

/-! ### Global memory, fences, Tills and barriers -/

/-- A core with its task and a pointer in x1. -/
def ptr (p : Word) : Core := busy (xs [(1, p)]) task0
/-- The requests after an instruction, by operation and destination. -/
def issued (i : Instr) (c : Core) : List (ReqOp × Option RegName) := (run i c).reqs.map fun r => (r.op, r.dest)
/-- How an instruction ended. -/
def lastOf (i : Instr) (c : Core) : Ending := (after i (withCore c)).last

/-- A core that can issue, also with 255 numbers of its block left behind. -/
theorem witness_canIssue : (ptr 0x1000).CanIssue ∧ ({ ptr 0x1000 with seqctr := 0xFFFFFF } : Core).CanIssue :=
  ⟨⟨by decide, by decide, by decide⟩, ⟨by decide, by decide, by decide⟩⟩

/-- R38, R120: pointers at the last aligned address, of a scaled, a 16-bit and a 4-bit format; each check failing alone. -/
theorem test_pointer_checks : checkPointer 1 0x000FFFFFFFFFFFF8 8 = .ok () ∧ checkPointer 2 0x2940000000001010 16 = .ok () ∧
    checkPointer 1 0x0C00000000001002 2 = .ok () ∧ checkPointer 1 0x2400000000001001 1 = .ok () ∧
    checkPointer 1 0x0010000000001000 8 = .error (trapGlobal .fmtMismatch 1 0x0010000000001000) ∧
    checkPointer 1 0x2800000000001000 8 = .error (trapGlobal .fmtMismatch 1 0x2800000000001000) ∧
    checkPointer 1 0x7400000000001000 1 = .error (trapGlobal .fmtMismatch 1 0x7400000000001000) ∧
    checkPointer 1 0x1004 8 = .error (trapGlobal .align 1 0x1004) :=
  ⟨rfl, rfl, rfl, rfl, rfl, rfl, rfl, rfl⟩

/-- R224, R225: what a load, a store, a vector load and an acquire load issue; a vector load into a window. -/
theorem test_global : issued (.gld always 3 1 2 3 true) (ptr 0x1000) = [(.load 8, some (.x 3))] ∧
    ((run (.gld always 3 1 2 3 true) (ptr 0x1000)).reqs.map fun r => (r.acquire, r.scope, r.seq)) = [(true, 2, 0)] ∧
    issued (.gst always 1 1 0 1 false false) (ptr 0x1000) = [(.store [0x00, 0x10] false, none)] ∧
    issued (.gvld always 3 1 0 false) (ptr 0x1000) = [(.load 16, some (.v 3))] ∧
    trapOf (.gvld always 28 1 0 false) { bound 4 ⟨0, 0, 0⟩ with regs := (xs [(1, 0x1000)]).regs } = some TrapCode.bufAccess.code ∧
    lastOf (.gpfDc always 1 2) (ptr 0x1000) = .done := by decide

/-- R229: an atomic's operand, ACAS's compare value, the 32-bit formats, and the traps of a 16-bit format and of AFADD in a
job that must be reproducible. -/
theorem test_atomics : issued (.aadd always 3 1 2 true false) { ptr 0x1004 with regs := (xs [(1, 0x1004), (2, 5)]).regs } =
      [(.atomic .add 4 5 true, some (.x 3))] ∧
    issued (.acas always 3 1 2 false true) { ptr 0 with regs := (xs [(1, 0x1008), (3, 7)]).regs } =
      [(.atomic (.cas 7) 8 0 false, some (.x 3))] ∧
    issued (.aadd always 3 1 2 false false) (ptr 0x8C00000000001000) = [(.atomic .add 4 0 false, some (.x 3))] ∧
    trapOf (.aadd always 3 1 2 false true) (ptr 0x8C00000000001000) = some TrapCode.fmtMismatch.code ∧
    issued (.afadd always 3 1 2 false) (ptr 0x0400000000001000) = [(.atomic .fadd 4 0 false, some (.x 3))] ∧
    trapOf (.afadd always 3 1 2 false) { ptr 0x1000 with jobattr := true } = some TrapCode.protFault.code ∧
    issued (.vaor always 3 1 2 false) (ptr 0x1000) = [(.atomic .vor 16 0 false, some (.v 3))] := by decide

/-- R230: a wrap, a signed minimum and a compare that fails, on 4-byte contents. -/
theorem test_atomic_results : AtomicOp.apply .add 4 0xFFFFFFFF 2 = some 1 ∧
    AtomicOp.apply (.min false) 4 0xFFFFFFFF 2 = some 0xFFFFFFFF ∧ AtomicOp.apply (.min true) 4 0xFFFFFFFF 2 = some 2 ∧
    AtomicOp.apply (.cas 5) 4 5 9 = some 9 ∧ AtomicOp.apply (.cas 5) 4 6 9 = none := by decide

/-- R240: the three residency instructions, and their two traps. -/
theorem test_residency : issued (.hpin always 3 1) (ptr 0x1020) = [(.residency .pin, some (.x 3))] ∧
    issued (.hdem always 1 2) { ptr 0 with regs := (xs [(1, 0x1020), (2, 0xF)]).regs } = [(.residency (.demote 7), none)] ∧
    issued (.hevt always 1) (ptr 0x1020) = [(.residency .evict, none)] ∧
    trapOf (.hevt always 1) (ptr 0x0400000000001020) = some TrapCode.fmtMismatch.code ∧
    trapOf (.hpin always 3 1) (ptr 0x1010) = some TrapCode.align.code := by decide

/-- A core with one load of an earlier bundle out, to x9. -/
def waiting : Core := { run (.gld always 9 1 0 3 false) (ptr 0x1000) with bundlePos := 1 }
/-- A core with one store out. -/
def storing : Core := run (.gst always 9 1 0 3 false false) (ptr 0x1000)

/-- R232, R225, R164: FENCE.acq with and without a load out, FENCE.rel, FENCE.full with a store out; an instruction that
names the waiting register, one of the load's own bundle, and one with a false guard that does. -/
theorem test_fences : lastOf (.add always 3 9 0) { waiting with bundlePos := 0 } = .done ∧
    lastOf (.add always 3 9 0) { busy Core.reset { task0 with dead := [.x 9] } with reqs := [] } = .stalled .pending ∧ lastOf (.fenceAcq always 0) storing = .done ∧ lastOf (.fenceAcq always 0) waiting = .stalled .fence ∧
    ((run (.fenceRel always 2) storing).holds.map fun h => (h.pos, h.scope)) = [(1, 2)] ∧
    lastOf (.fenceFull always 0) (ptr 0x1000) = .done ∧ lastOf (.fenceFull always 0) storing = .stalled .fence ∧
    lastOf (.add always 3 9 0) waiting = .stalled .pending ∧ lastOf (.add always 3 1 0) waiting = .done ∧
    lastOf (.add Guard.never 3 9 0) waiting = .done := by decide

/-- A core with a Till at A offset 0x800 that has counted 3 of generation 9, and the words for TSET. -/
def tilled : Core := put { ptr 0x800 with regs := (xs [(1, 0x800), (2, 0x0000000F00012345)]).regs } 0x804 8 0x0000000900000003
/-- R134, R233: TSET over a count below its target: the fields it writes and keeps, and TGEN's two halves. -/
theorem test_till : lastOf (.tset always 1 2) tilled = .done ∧
    (run (.tset always 1 2) tilled).loc.readNat 0x800 4 = 0x12345 ∧ (run (.tset always 1 2) tilled).loc.readNat 0x804 4 = 3 ∧
    (run (.tset always 1 2) tilled).loc.readNat 0x808 4 = 9 ∧ (run (.tset always 1 2) tilled).loc.readNat 0x80C 4 = 0xF ∧
    (run (.tgen always 3 1) tilled).x 3 = 0x0000000300000009 := by decide

/-! ### A gang, and the instructions that need one -/

/-- A launch of one gang of one core, channels 0 and 1 enabled with a handler at 0x100. -/
def launch0 : Launch :=
  { prio := 3, repro := false, demand := false, retry := 0, tmo := 0, jreplay := 1, dmask := 1, jobId := 7, seed := 0, ng := 1,
    ghl := 0, gwl := 0, cred := 0, budget := 0, tbase := 0x100000, barrow := 0, brecs := 2, save := 0, svclim := 0, jtime := 5,
    bufacl := 0xFFEFEF#24, bars := [0x83], deps := [], tag := 9, chans := List.replicate 2 [0x100, 0x80000000], cws := [] }
/-- Its job, broadcast first. -/
def job0 : Job :=
  { launch := launch0, queue := 0, graph := none, seq := 1, placeSeq := 1, eprio := 3, deps := [], broadcastAt := 0, stop := none,
    stopped := false, replaying := false, completed := false, replays := 0, charges := 0, discarded := 0, mismatched := [] }
/-- Its gang, on the first core of die 0. -/
def gang0 : Gang :=
  { job := 1, g := 0, die := 0, row0 := 0, col0 := 0, state := .running, bars := launch0.barriers, barrow := [], aside := [], spills := 0,
    resuming := [], retired := [], saved := [], insts := [], charges := 0, charged := false, outside := false }
/-- A core that the gang holds. -/
def held (c : Core) : Core := { c with gang := some (1, 0) }
/-- The package with that job, gang and core. -/
def withGang (x : Gang) (c : Core) : State := { withCore (held c) with jobs := [(1, job0)], gangs := [x] }

/-- R104, R234, R235: an arrival at an enabled barrier is buffered, a second one and one at a disabled barrier trap; BARQ. -/
theorem test_barriers : let s := withGang gang0 (busy Core.reset task0)
    ((after (.bara always 0) s).me.task.map (·.buffered)) = some [.bara 0] ∧
    (exec (.bard always 0) (after (.bara always 0) s)) =
      (after (.bara always 0) s).finish (.error (trapWith .barrierOverrun 0)) ∧
    (match (after (.bara always 1) s).last with
      | .trapped t => t.code
      | _ => 0) = 0x0E ∧ (after (.barq always 3 1) s).me.regs.x[3] = 0 ∧ (s.barrier s.me 0).en = true :=
  ⟨by decide, rfl, by decide, by decide, by decide⟩

/-- R259: a group of registers without a window, and one with. -/
theorem witness_hadamard : (∀ i, i < 4 → (busy Core.reset task0).binding (Fin.ofNat 32 (4 + i)) = none ∧
      (busy Core.reset task0).binding (Fin.ofNat 32 (8 + i)) = none) ∧
    readVs [1] [] (busy Core.reset task0) = .ok ([0], busy Core.reset task0) ∧
    (bound 4 ⟨0, 0, 0⟩).binding (Fin.ofNat 32 (28 + 0)) ≠ none := ⟨by decide, rfl, by decide⟩

/-- A SAMPLE descriptor at A offset 0x1000: two logits at 0x1800 with the second twice the first, the mask byte at 0x2000. -/
def sampling (mask : Nat) : Core :=
  put (put (put (put (put (xs [(1, 0x1000)]) 0x1000 4 0x1800) 0x1004 4 0x2000) 0x1008 4 2) 0x1800 8 0x4000000040800000) 0x2000 1 mask
/-- R262, R263: with no legal token SAMPLE gives the empty record and NOLEGAL; of two tokens the mask allows the second. -/
theorem test_sample : (run (.sample always 3 1 2) (sampling 0)).regs.x[3] = 0xFFFFFFFF7FC00000 ∧
    (run (.sample always 3 1 2) (sampling 0)).fstat = flNoLegal ∧
    lastOf (.sample always 3 1 2) (sampling 2) = .done ∧ (sampleCands (sampling 2) 0x1800 0x2000 2 0 0 0 0).map (·.2) = [1] ∧
    checkRange (sampling 0) ⟨0x1000, 32, 32, false, some 0⟩ = .ok () ∧
    checkRange (sampling 0) ⟨0x1800, 8, 4, false, none⟩ = .ok () ∧ checkRange (sampling 0) ⟨0x2000, 1, 1, false, some 0⟩ = .ok () :=
  ⟨by decide, by decide, by decide, by decide, rfl, rfl, rfl⟩
/-- A TOPKM descriptor at A offset 0x1000: two values at 0x1800, records to 0x2000. -/
def ranking : Core :=
  put (put (put (put (xs [(1, 0x1000), (2, 1)]) 0x1000 4 0x1800) 0x1004 4 0x2000) 0x1008 4 2) 0x1800 8 0x4080000040000000
/-- R262, R264, R265: TOPKM writes the higher of two values with its index; OWN of one dimension of extent 1. -/
theorem test_topk : (run (.topkm always 3 1 2) ranking).loc.readNat 0x2000 8 = 0x0000000140800000 ∧
    (run (.topkm always 3 1 2) ranking).regs.x[3] = 1 ∧
    checkRange ranking ⟨0x1000, 16, 16, false, some 0⟩ = .ok () ∧ checkRange ranking ⟨0x1800, 8, 4, false, none⟩ = .ok () ∧
    checkRange ranking ⟨0x2000, 8, 8, true, none⟩ = .ok () := ⟨by decide, by decide, rfl, rfl, rfl⟩
/-- R265: OWN of a table without dimensions, all four of which then act as extent 1, base 0x1800. -/
theorem test_own : (run (.own always 3 1 0) (put (xs [(1, 0x1000)]) 0x1020 8 0x1800)).regs.x[3] =
    0x0000180000000000 := by decide

/-! ### The matrix unit, messages, commands, system instructions -/

/-- A core with one filled slot on rings 0 (MXA) and 2 (MXB), of a format, and on the scale rings 1 and 3. -/
def mxCore (fmt : Nat) : Core :=
  let data (buf base slog role f : Nat) : Ring := ⟨0, 1, buf, base, slog, 1, f, role, true, 0⟩
  { busy Core.reset task0 with rings := ((((Core.reset.rings.set 0 (data 0 0x1000 12 1 fmt)).set 1 (data 0 0x4000 6 1 37)).set 2
      (data 1 0x2000 12 2 fmt)).set 3 (data 1 0x8000 8 2 37)) }
/-- R300, R304, R305: plain products of a 16-bit format; scaled ones of the 4-bit block format, with their partner rings. -/
theorem witness_products : (mxCore 3).ProductReady false 0 2 true ∧ (mxCore 14).ProductReady true 0 2 false := by
  refine ⟨⟨by decide, by decide, by decide, by decide, by decide, by decide, ?_, ?_⟩,
    ⟨by decide, by decide, by decide, by decide, by decide, by decide, ?_, ?_⟩⟩
  · intro r h
    rcases h with rfl | rfl | ⟨h, _⟩
    · exact ⟨by decide, fun t n ht hn => by cases ht; cases hn⟩
    · exact ⟨by decide, fun t n ht hn => by cases ht; cases hn⟩
    · exact absurd h (by decide)
  · intro _ _ _ h
    exact absurd h (by decide)
  · intro r h
    have hr : r = 0 ∨ r = 2 ∨ r = 1 ∨ r = 3 := by
      rcases h with h | h | ⟨_, ⟨h, _⟩ | ⟨h, _⟩⟩
      · exact .inl h
      · exact .inr (.inl h)
      · exact .inr (.inr (.inl (Fin.ext h)))
      · exact .inr (.inr (.inr (Fin.ext h)))
    rcases hr with rfl | rfl | rfl | rfl <;>
      exact ⟨by decide, fun t n ht hn => by cases ht; cases hn⟩
  · intro r q rows _ _ h hq
    rcases h with ⟨rfl, rfl⟩ | ⟨rfl, rfl⟩
    · have : q = 1 := Fin.ext hq
      subst this
      decide
    · have : q = 3 := Fin.ext hq
      subst this
      decide
/-- R295, R304, R307, R309, R310: a product, a scaled product and CZERO join the queue; with 16 taken CZERO stalls; MDRAIN. -/
theorem test_matrix : (run (.mma always 0 2 5 true) (mxCore 3)).mxq.length = 1 ∧
    (run (.mmas always 0 2 5 false) (mxCore 14)).mxq.length = 1 ∧
    ((run (.czero always 7) Core.reset).mxq.map (·.work)) = [.czero 7] ∧
    ((run (.cadd always 7 8) Core.reset).mxq.map (·.work)) = [.cadd 7 8] ∧
    ((run (.cscl always 7 1) { Core.reset with regs := Regs.zero.setV 1 0x00000000000000034000000040400000 }).mxq.map (·.work)) =
      [.cscl 7 0x40400000 0x40000000 true true] ∧
    lastOf (.czero always 7) { Core.reset with mxq := List.replicate 16 ⟨.czero 0, false⟩ } = .stalled .mxuFull ∧
    lastOf (.mdrain always) Core.reset = .done ∧
    lastOf (.mdrain always) { Core.reset with mxq := [⟨.czero 0, true⟩] } = .stalled .mxuHeld ∧
    (run (.mqry always 3) Core.reset).regs.v[3] = 0x1000 ∧
    (run (.mxcfg always 1) { Core.reset with regs := Regs.zero.setV 1 15 }).weight = 15 ∧
    trapOf (.mxcfg always 1) Core.reset = some TrapCode.fmtMismatch.code := by decide
/-- R308: a ring that takes a converted tile, one byte an element. -/
theorem witness_convert : let c : Core := { busy Core.reset task0 with rings := Core.reset.rings.set 0 { ring0 0 with slog := 9, fmt := 5 } }
    (c.rings[0]).valid = true ∧ c.cursorOpen 0 false = false ∧ c.right 0 6 = true ∧ 64 * fmtBits 5 ≤ 2 ^ 9 ∧ 1 ≤ c.pushesLeft 0 ∧
      c.preservedBytes 0 0xA00 512 = false := by decide

/-- A core with a task and x1, x2. -/
def two (a b : Word) : Core := busy (xs [(1, a), (2, b)]) task0
/-- What a core has buffered: kind, destination, channel and payload. -/
def sent (i : Instr) (c : Core) : Option (List (Nat × Nat × Nat × List Byte)) := (run i c).task.map fun t =>
  t.buffered.filterMap fun o => match o with
    | .msg m => some (m.kind, m.dest, m.chan, m.payload)
    | _ => none
/-- R270 to R274: SEND of no bytes to the last core, SENDV, REPLY to the trigger's core, DEC of the last doubleword of A. -/
theorem test_send : sent (.send always 1 2) (two 0x0000007000005FFF 0) = some [(0, 24575, 7, [])] ∧
    sent (.sendv always 1 2) (two 0 0) = some [(0, 0, 0, List.replicate 16 0)] ∧
    sent (.reply always 1 2) (two 0x0000001000000000 0x0000000100000800) = some [(1, 0, 1, [0])] ∧
    sent (.dec always 1 2) (two 0x000000017FFC0000 1) = some [(3, 0, 0, [1, 0, 0, 0, 0xF8, 0xFF, 2, 0])] ∧
    TargetWord 0x0000007000005FFF ∧ (two 0 0).CanSend 0x2FFF8 8 :=
  ⟨by decide, by decide, by decide, by decide, ⟨by decide, by decide, by decide, by decide, by decide⟩, .inr (by decide)⟩
/-- R275, R276: SPAWN with and without a credit; MSGRD of the payload, its header and past it. -/
theorem test_spawn : (run (.spawn always 1 1 2 0) { two 0x1000 0 with spcred := 2 }).spcred = 1 ∧
    (run (.spawn always 1 1 2 0) { two 0x1000 0 with spcred := 2 }).regs.k[1] = true ∧
    (run (.spawn always 1 1 2 0) { two 0x1000 0 with spcred := 0 }).regs.k[1] = false ∧
    (run (.msgrd always 3 1) (two 0 0)).regs.x[3] = 0x0807060504030201 ∧
    (run (.msgrd always 3 1) (two 256 0)).regs.x[3] = 7 ∧ (run (.msgrd always 3 1) (two 248 0)).regs.x[3] = 0 ∧
    trapOf (.msgrd always 3 1) (two 272 0) = some TrapCode.bufBounds.code ∧
    trapOf (.msgrd always 3 1) (two 4 0) = some TrapCode.align.code := by decide
/-- R277, R278: a copy's command with the last 32 bytes of W as its record, and a message id in xd. -/
theorem test_command : ((run (.cpy always 3 1 2) (two 0x805F 0x4002FFE0)).cmds.map fun m => (m.eop, m.engine, m.payload.length)) =
      [(1, 0x5F, 32)] ∧ (run (.gstep always 3 1 2) { two 0x1F00 0x800 with seqctr := 9 }).regs.x[3] = 9 ∧
    trapOf (.cpy always 3 1 2) (two 0x60 0x800) = some TrapCode.fmtMismatch.code := by decide

set_option maxRecDepth 4000 in
/-- R83, R91, R288: MYCORE, TASKBUD and CHSTAT as CSRR reads them. -/
theorem test_csrr : (run (.csrr always 3 0x013) (busy Core.reset task0)).regs.x[3] = 1000 ∧
    (run (.csrr always 3 0x14F) Core.reset).regs.x[3] = 0x700 ∧ (run (.csrr always 3 0x3FF) (xs [(3, 5)])).regs.x[3] = 0 := by decide
/-- R79 to R84, R126, R288: CSRW of each register, at the bounds of its fields, and of one that is read-only; a channel
register comes into force with the next choice only. -/
theorem test_csrw : (run (.csrw always 1 0x10F) (xs [(1, 0xFFFFFFFFFFFFFFFF)])).chanReg 0x10F = 0x000FFFFFFFFFFFF8 ∧
    ((run (.csrw always 1 0x10F) (xs [(1, 0xFFFFFFFFFFFFFFFF)])).chans[15]).hnd = 0 ∧
    ((run (.csrw always 1 0x10F) (xs [(1, 0xFFFFFFFFFFFFFFFF)])).settleWrites.chans[15]).hnd = 0x000FFFFFFFFFFFF8 ∧
    (run (.csrw always 1 0x11F) Core.reset).chanReg 0x11F = 0x07000000 ∧
    (run (.csrw always 1 0x110) { xs [] with jobattr := true }).chanReg 0x110 = 0 ∧
    (run (.csrw always 1 0x120) (xs [(1, 0x100)])).chanReg 0x120 = 0x100 ∧
    trapOf (.csrw always 1 0x120) (xs [(1, 0x101)]) = some TrapCode.bufBounds.code ∧
    (run (.csrw always 1 0x130) (xs [(1, 0x8002FFF0)])).chanReg 0x130 = 0x8002FFF0 ∧
    trapOf (.csrw always 1 0x130) (xs [(1, 0x800007F0)]) = some TrapCode.bufBounds.code :=
  ⟨by decide, by decide, by decide, by decide, by decide, by decide, by decide, by decide, by decide⟩
/-- R52, R91, R126, R343: the same of the other registers a task may write. -/
theorem test_csrw_others : (run (.csrw always 1 0x010) { xs [(1, 1)] with fstat := 3#6 }).fstat = 2#6 ∧
    ((run (.csrw always 1 0x014) (busy (xs [(1, 2)]) task0)).task.map (·.retire)) = some true ∧
    (run (.csrw always 1 0x01A) Core.reset).bufacl = 0x808080#24 ∧ (run (.csrw always 1 0x000) (xs [(1, 9)])).fstat = 0#6 :=
  ⟨by decide, by decide, by decide, by decide⟩

/-- R97, R289 to R292, R342: TRAP's record; HBT; BRK where the debug module is enabled; TRC while tracing is off. -/
theorem test_system : (run (.trap always 1) (two 0x1234 0)).fault.faddr = 0x1234 ∧
    wbits (run (.trap always 1) (two 0x1234 0)).fault.fcause 39 32 = 0x0F ∧
    ((after (.hbt always) (withCore Core.reset)).die 0).beats.find 0 = some 0 ∧
    (run (.brk always) { Core.reset with dbg := { Core.reset.dbg with dbgctl := 1 } }).brkSeen = true ∧
    (run (.trc always 1) Core.reset).dbg.trcQ = [] := by decide

/-- R293, R349, R350: CDO opens an instance with the trigger as a root; CDC closes it; another id traps; a fifth domain. -/
theorem test_domains : let s := withGang gang0 (two 3 0x1003)
    ((after (.cdo always 1) s).me.task.map (·.domains)) = some [(3, 0)] ∧
    ((after (.cdc always 2) (after (.cdo always 1) s)).me.task.map (·.domains)) = some [] ∧
    (((after (.cdc always 2) (after (.cdo always 1) s)).gang 1 0).map fun x => x.insts.map (·.isSealed)) = some [true] ∧
    (match (after (.cdc always 1) s).last with
      | .trapped t => t.code
      | _ => 0) = TrapCode.protFault.code ∧
    trapOf (.cdo always 1) (busy (xs [(1, 3)]) { task0 with domains := [(4, 0), (5, 0), (6, 0), (7, 0)] }) =
      some TrapCode.protFault.code := by decide
/-- R294: CDP of a local range of C, with seven ranges and with eight; of a global range. -/
theorem test_preserve : ((run (.cdp always 1 2) (two 0x0010000080000010 16)).task.map (·.preserved)) = some [⟨2, 16, 16, 0⟩] ∧
    trapOf (.cdp always 1 2) (busy (xs [(1, 0x0010000080000010), (2, 16)])
      { task0 with preserved := List.replicate 8 ⟨0, 0, 16, 0⟩ }) = some TrapCode.protFault.code ∧
    issued (.cdp always 1 2) (two 0x1000 0x10000000000) = [(.preserve 0x10000000000, none)] := by decide

/-- R164, R340 to R345: the record of a trap with none held, and the second one's OVF; a trigger back in its queue. -/
theorem test_trap_record : let c := run (.trap always 1) { two 0 0 with pc := 0x40 }
    c.task = none ∧ (c.chans[0]).queue.length = 1 ∧ c.fault.fpc = 0x40 ∧ c.fault.fcause = 0x8000000F47000000 ∧
      (run (.trap always 1) { two 0 0 with fault := c.fault }).fault.fcause = 0xC000000F47000000 ∧
    (run (.trap always 1) { two 0 0 with fault := c.fault }).fault.fcount = 2 := by decide

/-! ### Events -/

/-- The state after an event; the state itself where it stops. -/
def Ev (i : Instr) (s : State) : State := after i s
/-- A channel with a handler, enabled, and messages. -/
def chan (q : List Msg) : Channel := ⟨0x100, 0x80000000, 0, 0, 0, 0, q⟩
/-- The core of a gang with messages on channel 0 and a handler for channel 15. -/
def listening (q : List Msg) : Core :=
  { Core.reset with chans := (Core.reset.chans.set 0 (chan q)).set 15 { Core.reset.chans[15] with hnd := 0x200 } }

/-- R78, R89 to R92, R107: a dispatch; the end of a task that set RETIRE and buffered a message; a task without budget; the
next aging point of a waiting channel. -/
theorem test_tasks : let s := withGang gang0 (listening [msg0])
    (s.core 0).choose = some 0 ∧ ((Ev (.taskDispatch 0) s).core 0).task.map (·.msg) = some msg0 ∧
    ((Ev (.taskDispatch 0) s).core 0).pc = 0x100 ∧
    ((Ev (.waitAging 0 0) s).core 0).chans[0].wait = 65536 := by decide
/-- A task that has executed END. -/
def leaving : Task := { task0 with ended := true, retire := true, buffered := [.msg msg0] }
/-- R89, R92, R93, R97, R107, R358: its end, a spent budget, and the heartbeat of the last core of the package. -/
theorem test_task_ends : ((Ev (.taskEndRelease 0) (withGang gang0 (busy Core.reset leaving))).core 0).task = none ∧
    ((Ev (.taskEndRelease 0) (withGang gang0 (busy Core.reset leaving))).core 0).outbox.length = 1 ∧
    ((Ev (.taskEndRelease 0) (withGang gang0 (busy Core.reset leaving))).gang 1 0).map (·.retired) = some [0] ∧
    wbits ((Ev (.taskBudget 0) (withCore (busy Core.reset { task0 with left := 0 }))).core 0).fault.fcause 39 32 = 0x0D ∧
    ((Ev (.heartbeat 24575) State.reset).core 24575).cycles = 65536 := by decide

/-- A core with a task at an enabled breakpoint, and with HALTREQ. -/
def stopped (ctl : Word) : Core :=
  { busy Core.reset task0 with pc := 0x40, dbg := { Core.reset.dbg with dbgctl := ctl, bp0 := 0x8000000000000040, bp1 := 0x8000000000000048 } }
/-- A late refusal of the task's request. -/
def late0 : Late := ⟨⟨0x10, 2, 7, 0, 0, 0x1000⟩, 3, 1, 0, 7, 0x38, [], true, none⟩
/-- R225, R348, R384: each way to halt, a stall retried, and a late fault of the running task. -/
theorem test_halts : (withCore { stopped 1 with stalled := some .fence }).agenda = [] ∧
    (Ev (.stalledIssueResume 0) (withCore { stopped 1 with stalled := some .fence })).agenda = [.bundle 0] ∧
    ((Ev (.breakpointHalt 0 0) (withCore (stopped 1))).core 0).dbg.cause = 4 ∧
    ((Ev (.breakpointHalt 0 1) (withCore { stopped 1 with pc := 0x48 })).core 0).dbg.cause = 5 ∧
    ((Ev (.debugHalt 0) (withCore (stopped 4))).core 0).dbg.next = 0x40 ∧
    ((Ev (.debugHalt 0) (withCore { stopped 4 with task := none })).core 0).dbg.halted = true ∧
    ((Ev (.lateFault 0) (withCore { busy Core.reset task0 with late := [late0] })).core 0).task = none ∧
    ((Ev (.lateFault 0) (withCore { busy Core.reset task0 with late := [late0] })).core 0).fault.faddr = 0x1000 := by decide

/-- A message to core 0 on its way. -/
def arriving (m : Msg) (x : Gang) (c : Core) : State :=
  let s := withGang x c
  { s with net := { s.net with msgs := [m] } }
/-- R24, R85, R86, R88, R101, R272: a message joins its queue, or the Barrow where 30 messages wait; a unit that is DOWN and
the writer check return it. -/
theorem test_arrivals : ((Ev (.messageArrival 0) (arriving msg0 gang0 (listening []))).core 0).chans[0].queue = [msg0] ∧
    ((Ev (.messageArrival 0) (arriving msg0 gang0 (listening ((List.range 30).map fun i => { msg0 with slot := i })))).gang 1 0).map (·.barrow) = some [.msg msg0] ∧
    ((Ev (.messageArrival 0) { arriving msg0 gang0 (listening []) with
      dies := [(0, { Die.reset with coreMap := [(0, 0x40)] })] }).net.msgs.map fun m => (m.kind, m.payload.getD 5 0)) = [(5, 1)] ∧
    ((Ev (.messageArrival 0) (arriving msg0 gang0 { listening [] with
      chans := Core.reset.chans.set 0 { chan [] with ctl := 0xC0000001 } })).net.msgs.map fun m => (m.kind, m.payload.getD 5 0)) =
        [(5, 2)] ∧
    ((Ev (.barrowRefill 0) (withGang { gang0 with barrow := [.msg msg0] } (listening []))).core 0).chans[0].queue = [msg0] ∧
    (Ev (.bufferedMessageSend 0 0) (withGang gang0 { listening [] with outbox := [⟨msg0, 0, []⟩] })).net.msgs = [msg0] := by decide
/-- The premise `Arrives` of the statements. -/
theorem witness_arrives : (arriving msg0 gang0 (listening [])).Arrives msg0 gang0 :=
  ⟨by decide, by decide, by decide, by decide, by decide, by decide⟩
/-- A DEC of 2 on the dependence word at A offset 0x800. -/
def dec0 : Msg := { msg0 with kind := 3, payload := [2, 0, 0, 0, 0, 8, 0, 0] }
/-- R101, R102: a count above, at and below the decrement. -/
theorem test_dec :
    ((Ev (.decArrival 0) (arriving dec0 gang0 (put (listening []) 0x800 8 0x8003000500000003))).core 0).loc.readNat 0x800 8 =
      0x8003000500000001 ∧
    (((Ev (.decArrival 0) (arriving dec0 gang0 (put (listening []) 0x800 8 0x8003000500000002))).core 0).chans[3].queue.map
      fun m => (m.kind, m.chan, m.payload)) = [(4, 3, [0, 8, 0, 0, 5, 0, 0, 0])] ∧
    ((Ev (.decArrival 0) (arriving dec0 gang0 (put (listening []) 0x800 8 1))).net.msgs.map
      fun m => (m.kind, m.payload.getD 5 0)) = [(5, 3)] := by decide

/-- The package with tables that map the first GiB at physical address 0, read, written and fetched. -/
def mapped (s : State) : State :=
  { s with mem := ((Memory.writeNat [] 0x100000 8 0x101001).writeNat 0x101000 8 0x102001).writeNat 0x102000 8 0x3D }
/-- A core whose one request has been issued, changed as a test needs. -/
def asking (i : Instr) (f : Req → Req) : State :=
  let c := run i (held (ptr 0x1000))
  withGang gang0 { c with reqs := c.reqs.map f }
/-- The entry of those tables. -/
def page0 : TlbEntry := ⟨1, 0, 30, 0x3D⟩
/-- Where requests stand. -/
def phases (s : State) : List ReqPhase := (s.core 0).reqs.map (·.phase)
/-- A load of x3. -/
def load0 : Instr := .gld always 3 1 0 3 false
/-- A store of x3. -/
def store0 : Instr := .gst always 3 1 0 3 false false
/-- An atomic. -/
def atomic0 (ordered : Bool) : Instr := .aadd always 3 1 2 ordered true

/-- R137 to R140: found in a TLB, found by a walk, absent from tables that are empty, and refused for want of a right; a
walk for a fetch. -/
theorem test_translation : phases (Ev (.pageWalk (.request 0 0) .coreTlb) (withGang gang0
      { (asking load0 id).core 0 with tlb := [page0] })) = [.translated 0x1000] ∧
    phases (Ev (.pageWalk (.request 0 0) .walk) (mapped (asking load0 id))) = [.translated 0x1000] ∧
    phases (Ev (.pageWalk (.request 0 0) .walk) (asking load0 id)) = [.refused ⟨0x09, 1, 4, 0, 0, 0x1000⟩] ∧
    phases (Ev (.pageWalk (.request 0 0) .coreTlb) (withGang gang0
      { (asking load0 id).core 0 with tlb := [{ page0 with leaf := 0x35 }] })) = [.refused ⟨0x0A, 1, 2, 0, 1, 0x1000⟩] ∧
    ((Ev (.pageWalk (.fetch 0) .walk) (mapped (withGang gang0 (ptr 0)))).core 0).tlb = [page0] := by decide
/-- R140: an outstanding fault before and at its service limit of 1 ms. -/
theorem test_service_limit : let s (t : Nat) : State :=
      let s := asking load0 fun r => { r with phase := .serviced 4 }
      { s with iod := { s.iod with tokens := [⟨4, .request 0 0, 1, 4, 0, t⟩] } }
    phases (Ev (.demandServiceExpiry 4) (s 999999)) = [.serviced 4] ∧
    phases (Ev (.demandServiceExpiry 4) (s 1000000)) = [.refused ⟨0x09, 1, 4, 2, 0, 0x1000⟩] ∧
    phases (Ev (.fqdb 4 true) (s 5)) = [.issued] ∧
    phases (Ev (.fqdb 4 false) (s 5)) = [.refused ⟨0x09, 1, 4, 1, 0, 0x1000⟩] := by decide

/-- A request on its way to physical address 0x1000. -/
def home (i : Instr) : State := asking i fun r => { r with phase := .translated 0x1000, leaf := 0x3D }
/-- The premise `AtHome`. -/
theorem witness_atHome : ∃ r, (home load0).AtHome 0 0 r 0x1000 true := by
  refine ⟨((home load0).req 0 0).get (by decide), ?_, ?_, ?_, ?_, ?_⟩ <;> decide
/-- R150, R151, R153, R154, R230, R231: a load of zeros, a store, a `.gack` store, an atomic; an ordered atomic is sent first. -/
theorem test_home : phases (Ev (.globalRequestAtHome 0 0 false) (home load0)) = [.applied 0x1000 (List.replicate 8 0)] ∧
    phases (Ev (.globalRequestAtHome 0 0 false) (home store0)) = [.applied 0x1000 []] ∧
    ((Ev (.globalRequestAtHome 0 0 false) (home (.gst always 1 1 0 1 true false))).net.updates.map
      fun u => (u.pa, u.bytes, u.gack)) = [(0x1000, [0, 0x10], true)] ∧
    phases (Ev (.atomicPerform 0 0 false) (home (atomic0 false))) = [.applied 0x1000 (List.replicate 8 0)] ∧
    phases (Ev (.atomicPerform 0 0 false) (home (atomic0 true))) = [.translated 0x1000] ∧
    ((Ev (.orderedAtomicSend 0 0) (home (atomic0 true))).core 0).reqs.map (·.sent) = [true] :=
  ⟨by decide, by decide, by decide, by decide, by decide, by decide⟩

/-- R144, R157, R225, R227, R240: a response to x3, a refused request's late fault, a timeout with retries left and with
none, the die's own early view, and a residency instruction's seventh and eighth slice. -/
theorem test_responses : ((Ev (.globalResponse 0 0) (asking load0 fun r => { r with phase := .applied 0x1000 [5, 0, 0, 0, 0, 0, 0, 1] })).core 0).regs.x[3] =
      0x0100000000000005 ∧
    ((Ev (.globalResponse 0 0) (asking load0 fun r => { r with phase := .refused ⟨9, 1, 4, 0, 0, 0x1000⟩ })).core 0).late.length = 1 ∧
    ((Ev (.ackTimeout 0 0) (asking load0 fun r => { r with elapsed := 20000 })).core 0).reqs.map (·.retries) = [1] ∧
    ((Ev (.ackTimeout 0 0) (asking load0 fun r => { r with elapsed := 20000, retries := 3 })).core 0).late.map (·.trap.code) = [0x11] ∧
    ((Ev (.dieCacheTakesStore 0 0) (home store0)).net.early.map fun a => (a.die, a.pa)) = [(0, 0x1000)] := by decide
/-- R143, R240: the eighth slice answers HPIN. -/
theorem test_slices : let s (k : List Nat) : State := asking (.hpin always 3 1) fun r =>
      { r with phase := .translated 0x1000, leaf := 0x3D, slices := k }
    ((Ev (.residencyRequestAtSlice 0 0 7) (s [0, 1])).core 0).reqs.map (·.slices) = [[0, 1, 7]] ∧
    ((Ev (.residencyRequestAtSlice 0 0 7) (s [0, 1, 2, 3, 4, 5, 6])).core 0).reqs.any
      (fun r => match r.phase with
        | .answered _ => true
        | _ => false) = true := by decide

/-- R145, R151: an update gets its position, a replica applies it, it is exposed; a die sees a store; a frame is zeroed. -/
theorem test_visibility : let u : Update := ⟨0, ⟨0, 0, 0, 0, false⟩, 0x1000, [5], [], true, true, none, false, false⟩
    let n : Net := { State.reset.net with updates := [u] }
    let s : State := { State.reset with net := n }
    let s1 : State := Ev (.crierOrder 0) s
    let s2 : State := { s1 with net := { s1.net with replPos := Vector.replicate 8 1 } }
    s1.net.updates.map (·.crier) = [some 0] ∧ s1.mem = [] ∧ (Ev (.replicaUpdate 7) s1).net.replPos[7] = 1 ∧
    (Ev (.gackExpose 0) s2).mem = [(0x1000, 5)] ∧ (Ev (.gackExpose 0) s1).mem = [] ∧
    (Ev (.fwdStoreRemoteVisible 23 0) { s with net := { n with lags := [⟨0, 7, 0, 0, 0x1000, [5], [22, 23], none⟩] } }).net.lags.map
      (·.unseen) = [[22]] ∧
    (Ev (.frameZero 1 4) { s with mem := [(0xFFFF, 1), (0x10000, 2)] }).mem = [(0xFFFF, 1)] := by decide
/-- The package as the first of an erasure group of one unit at physical address 0, with a delta on its way. -/
def erasing : State :=
  { State.reset with
    erasure := some ⟨0, [0], [], [], []⟩
    net := { State.reset.net with parity := [⟨0, ⟨0, 0, 0, 0, false⟩, 0x10, [3], false, false⟩] } }
/-- R332: both parities take the delta, the second weighted by the symbol's power of alpha. -/
theorem test_parity : ((Ev (.parityUpdate 0 0) erasing).erasure.map fun e => (Ev (.parityUpdate 0 0) erasing).symbolByte e 0 10 0x10) =
      some 3 ∧
    ((Ev (.parityUpdate 0 1) erasing).erasure.map fun e => (Ev (.parityUpdate 0 1) erasing).symbolByte e 0 11 0x10) =
      some (gpow 0 3) ∧
    ((Ev (.parityUpdate 0 0) erasing).net.parity.map (·.applied0)) = [true] ∧
    (Ev (.parityUpdate 0 1) (Ev (.parityUpdate 0 0) erasing)).net.parity = [] := by decide

/-- A copy of 16 one-byte elements to A offset 0x2000 of core 0, its record at A offset 0x900, with its completion to channel
15; the formats and the source as given. -/
def copyFrom (src fmt : Nat) : State :=
  let record := natToBytes 8 (fmt * 2 ^ 58 + src) ++ natToBytes 8 (fmt * 2 ^ 58 + 0x0010000000002000) ++
    natToBytes 8 16 ++ natToBytes 8 0
  let c := two 0x1F00 0x900
  withGang gang0 (run (.cpy always 3 1 2) (held { c with loc := (c.loc.writeList 0x900 record).writeNat 0x1000 16 0x0102 }))
/-- The same from A offset 0x1000 of core 0. -/
def copying (fmt : Nat) : State := copyFrom 0x0010000000001000 fmt
/-- What is left of a core's commands: stage, blocks and bytes. -/
def stages (s : State) : List (CmdStage × List (Nat × Bool × Bool) × Nat) := (s.core 0).cmds.map fun m =>
  (m.stage, m.blocks.map fun b => (b.num, b.verified, b.waiting), m.bytesDone)
/-- The copy accepted, and with its one block sent. -/
def accepted0 : State := Ev (.engineCommandAccept 0 0) (copying 5)
/-- Its block on its way. -/
def sending0 : State := Ev (.engineBlockSend 0 0 false) accepted0
/-- R278, R281: acceptance, and the refusal of an unassigned format, its status to the completion channel. -/
theorem test_accept : stages accepted0 = [(.accepted, [], 0)] ∧
    (Ev (.engineCommandAccept 0 0) (copying 40)).net.msgs.map (fun m => (m.kind, m.chan, m.payload.getD 5 0)) = [(4, 15, 0x13)] :=
  ⟨by decide, by decide⟩
/-- R139, R313: a copy from virtual address 0x1000 needs its page, and a walk gives it. -/
theorem test_command_walk : let s := mapped (Ev (.engineCommandAccept 0 0) (copyFrom 0x1000 5))
    ((s.cmd 0 0).bind fun m => s.nextNeed 0 m) = some (0x1000, .load) ∧
    ((Ev (.pageWalk (.command 0 0 0) .walk) s).cmd 0 0).map (fun m => (m.pages, m.translated)) = some ([page0], 1) := by
  decide +kernel
/-- R312 to R316: the block sent, its good copy written, a bad one asked for again and resent, and the completion. -/
theorem test_blocks : stages sending0 = [(.accepted, [(0, false, false)], 0)] ∧
    ((Ev (.engineBlockArrival 0 0 0 none) sending0).core 0).loc.readNat 0x2000 16 = 0x0102 ∧
    stages (Ev (.engineBlockArrival 0 0 0 (some (List.replicate 16 7))) sending0) = [(.accepted, [(0, false, true)], 0)] ∧
    stages (Ev (.blockResend 0 0 0) (Ev (.engineBlockArrival 0 0 0 (some (List.replicate 16 7))) sending0)) =
      [(.accepted, [(0, false, false)], 0)] ∧
    ((Ev (.engineCommandComplete 0 0) (Ev (.engineBlockArrival 0 0 0 none) sending0)).net.msgs.map fun m =>
      (m.kind, m.payload.getD 8 0)) = [(4, 16)] := ⟨by decide, by decide +kernel, by decide +kernel, by decide +kernel, by decide +kernel⟩

/-- Two commands of one use whose records disagree in their count of positions. -/
def disagreeing : State :=
  let a : List Cmd := (accepted0.core 0).cmds.map fun m => { m with eop := 4, payload := List.replicate 64 0 }
  let b : List Cmd := a.map fun m => { m with pos := m.pos + 1, payload := (List.replicate 36 0) ++ 2 :: List.replicate 27 0 }
  withGang gang0 { accepted0.core 0 with cmds := a ++ b }
/-- R285: both of them stop. -/
theorem test_disagreement : (disagreeing.useCmds 1 0 0).length = 2 ∧
    ((Ev (.collMatch 1 0 0) disagreeing).core 0).cmds.map (·.stop.isSome) = [true, true] := ⟨by decide, by decide⟩

/-- An automaton of one token, state and symbol at 0x10000, its header good or not, and its STATE at 0x20000. -/
def grammar (eop ntok : Nat) : State :=
  let auto := natToBytes 4 ntok ++ [1, 0, 0, 0, 1, 0, 0, 0, 1, 0, 0, 0] ++ natToBytes 8 64 ++ natToBytes 8 96 ++ natToBytes 8 112 ++
    List.replicate 24 0 ++ natToBytes 8 0 ++ natToBytes 8 0x100000001 ++ natToBytes 16 0 ++ natToBytes 16 1
  let record := natToBytes 8 0x10000 ++ natToBytes 8 0x20000 ++
    (if eop = 5 then natToBytes 8 0x0010000000001000 ++ natToBytes 8 0x100000000 else natToBytes 16 0)
  let s := withGang gang0 { accepted0.core 0 with
    cmds := (accepted0.core 0).cmds.map fun m => { m with eop := eop, payload := record, pages := [page0], stage := .accepted } }
  { s with mem := (Memory.writeList [] 0x10000 auto).writeNat 0x20008 8 0x10000 }
/-- R286, R333 to R337: a mask of one legal token, a header that fails, and a step whose outcome is ACCEPT. -/
theorem test_grammar : ((Ev (.grammarExecute 0 0) (grammar 5 1)).core 0).cmds.map (fun m => (m.stream.headD 0, m.executed)) =
      [(1, true)] ∧
    ((Ev (.grammarExecute 0 0) (grammar 5 0)).core 0).cmds.map (·.stop) = [some 0x13] ∧
    ((Ev (.grammarExecute 0 0) (grammar 6 1)).core 0).cmds.map (fun m => (m.executed, m.outcome)) = [(true, 1)] :=
  ⟨by decide, by decide, by decide⟩

/-- The MXU of cluster 0 with an operation queued on its core of rank 0, whose weight is 15. -/
def multiplying (started : Bool) : State :=
  withCore { Core.reset with weight := 15, mxq := [⟨.czero 7, started⟩], loc := [(locKey 2 0x3800, 5), (locKey 2 0x4000, 6)] }
/-- R296, R307: the grant at reset passes from rank 7 to rank 0, then stays for its weight; CZERO clears its tile alone. -/
theorem test_mxu : (Ev (.mxuStart 0) (multiplying false)).arbiter 0 = ⟨0, 1⟩ ∧
    (Ev (.mxuStart 0) ({ multiplying false with dies := [(0, { Die.reset with mxus := [(0, ⟨0, 1⟩)] })] })).arbiter 0 = ⟨0, 2⟩ ∧
    ((Ev (.mxuStart 0) (multiplying false)).core 0).mxq.map (·.started) = [true] := ⟨by decide, by decide, by decide⟩
/-- R306, R307: a started operation at the head of its queue. -/
theorem witness_mxu : ((multiplying true).core 0).loc.wf = true ∧
    ((multiplying true).core 0).mxq.map (fun o => (o.work, o.started)) = [(.czero 7, true)] ∧
    (∀ r, r < 8 → ((multiplying false).core (mxuCore 0 r)).mxBusy = false) ∧ mxuCore 3071 7 = 24575 := by decide

/-- Queue 0 with one packet at 0x200000, its first fields as given: the header, two doublewords at 8 and 0x10, and 0x18. -/
def packet (hdr id w10 w18 : Nat) : State :=
  let r : Queue := { Queue.reset with sqbase := 0x200000, sqen := true, sqlog := 1, sqtail := 1 }
  { State.reset with
    mem := ((((Memory.writeNat [] 0x200000 8 hdr).writeNat 0x200008 8 id).writeNat 0x200010 8 w10).writeNat 0x200018 8 w18)
    iod := { State.reset.iod with queues := State.reset.iod.queues.set 0 r } }
/-- A launch packet of one gang of one core on die 0. -/
def launching : State :=
  let s := packet 0x10000000301 7 0 1
  { s with mem := (((s.mem.writeNat 0x200020 8 0x100000).writeNat 0x200030 8 64).writeNat 0x200048 8 0xFFEFEF) }
set_option maxRecDepth 4000 in
/-- R109, R369, R372, R373: a good launch enters the order and moves the turn on, one with a reserved type is refused and taken, an invalidate
takes its SEQ. -/
theorem test_packets : (let t := Ev (.launchPacket 0) launching; (t.iod.log, t.iod.turn)) = ([.launch 1], 1) ∧
    ((Ev (.launchPacket 0) (packet 5 7 0 1)).queue 0).sqhead = 1 ∧
    (Ev (.translationInvalidate 0) (packet 3 7 0x10000 0x20000)).iod.log = [.invalidate 7 0x10000 0x20000 0 0] := by
  decide +kernel
/-- R368, R373, R375: a doorbell at the last index of a queue of two and beyond it, an ABORT of a live launch, and the
configuration of a queue that is disabled and of one that is enabled. -/
theorem test_host : ((Ev (.sqDoorbell 0 1) (packet 0 0 0 0)).queue 0).sqtail = 1 ∧
    ((Ev (.sqDoorbell 0 2) (packet 0 0 0 0)).queue 0).sqtail = 1 ∧ ((Ev (.cqhead 0 3) State.reset).queue 0).cqhead = 3 ∧
    ((Ev (.abort 7) (withGang gang0 Core.reset)).job 1).map (·.stop) = some (some .aborted) ∧
    ((Ev (.bar0RegisterWrite 0x10000 0x123456) State.reset).queue 0).sqbase = 0x123000 ∧
    ((Ev (.bar0RegisterWrite 0x10008 0xFFF) (packet 0 0 0 0)).queue 0).sqlog = 1 ∧
    ((Ev (.bar0RegisterWrite 0x10FE8 0x800C) State.reset).queue 63).cqlog = 12 := by decide +kernel

/-- A graph packet of two nodes at 0x300000: an event that waits, then END. -/
def graphing : State :=
  let s := packet 2 9 0x300000 2
  { s with mem := ((s.mem.writeNat 0x300000 8 0x0000000100000103).writeNat 0x300040 8 4) }
set_option maxRecDepth 4000 in
/-- R376 to R378: the instance waits at its event, GEVENT finishes it; a kernel's completion with and without a stop. -/
theorem test_graphs : ((Ev (.graphPacket 0) graphing).graphOf 9).map (·.waiting) = some true ∧
    (let g : Graph := ⟨9, 0, 0, [⟨0, false, 1, 0, 0, 0, 0⟩, ⟨4, false, 0, 0, 0, 0, 0⟩], 0, 0, [], some 1, false, none⟩
     let s (b : Job) : State := { State.reset with jobs := [(1, b)], iod := { State.reset.iod with graphs := [g] } }
     (Ev (.graphKernelComplete 9) (s { job0 with completed := true })).graphOf 9 = none ∧
     (Ev (.graphKernelComplete 9) (s { job0 with completed := true, stop := some .timeout })).graphOf 9 = none ∧
     (Ev (.gevent 9) (s job0)).iod.graphs.length = 1 ∧
     (let w : Graph := { g with waiting := true, job := none }
      (Ev (.gevent 9) { State.reset with iod := { State.reset.iod with graphs := [w] } }).graphOf 9 = none)) := by decide +kernel

/-- The package with an order of entries. -/
def ordered (l : List LogEntry) (s : State) : State := { s with iod := { s.iod with log := l } }
/-- The state with a gang that waits. -/
def waitingGang (x : Gang) : State :=
  let s := withGang x Core.reset
  ordered [.launch 1] { s with cores := [] }
/-- R25, R109, R141: a die takes a launch's gang, a core-map entry, an invalidate; an MD passes the launch over; the
invalidate completes. -/
theorem test_broadcast : let inv : LogEntry := .invalidate 7 0 0 0 0
    ((Ev (.dieApplyLaunch 0) { waitingGang gang0 with gangs := [] }).gangs.map fun x => (x.g, x.state)) = [(0, .queued)] ∧
    ((Ev (.mapUpdate 23) (ordered [.map (.core 24575 8)] State.reset)).core 24575).mapgen = 1 ∧
    (Ev (.mapUpdate 31) (ordered [.launch 1, .map (.core 0 8)] State.reset)).iod.mdApplied[7] = 2 ∧
    ((Ev (.translationInvalidateApply 0) (ordered [inv] (withGang gang0 { Core.reset with tlb := [page0] }))).core 0).tlb = [] ∧
    (Ev (.invalidateComplete 1) (ordered [inv] { State.reset with
      dies := (List.range 24).map fun d => (d, { Die.reset with applied := 1 })
      iod := { State.reset.iod with mdApplied := Vector.replicate 8 1 } })).iod.invalidated = [1] := by decide +kernel

/-- The running gang has ended its work. -/
def retiring : State := withGang { gang0 with retired := [0] } Core.reset
/-- A gang of a second job, of priority 5, that waits behind the first on its block. -/
def preempting : State :=
  let b : Job := { job0 with seq := 2, eprio := 5 }
  { withGang gang0 Core.reset with
    jobs := [(1, job0), (2, b)]
    gangs := [gang0, { gang0 with job := 2, state := .queued }]
    dies := [(0, { Die.reset with applied := 2 })]
    iod := { State.reset.iod with log := [.launch 1, .launch 2] } }
/-- What has been saved of a core. -/
def kept : SavedCore := (held (put Core.reset 0x900 1 7)).save
/-- A gang whose core has been saved, and one whose block is free. -/
def saving : State := withGang { gang0 with state := .saving, saved := [kept] } (put Core.reset 0x900 1 7)
/-- R106, R107, R111, R113, R114: a grant and its start message, a gang's and a job's completion, a pre-emption from its
start to the gang's resumption. -/
theorem test_gangs : (let t := Ev (.gangGrant 1 0) { waitingGang { gang0 with state := .queued } with dies := [(0, { Die.reset with applied := 1 })] }
     (t.core 0).gang = some (1, 0) ∧ (t.core 0).chans[0].queue.map (fun m => (m.kind, m.dest, m.chan)) = [(4, 0, 0)] ∧
       (t.core 0).spcred = 8) ∧
    ((Ev (.gangComplete 1 0) retiring).gang 1 0).map (·.state) = some .complete ∧
    ((Ev (.jobCompletionRecord 1) (Ev (.gangComplete 1 0) retiring)).job 1).map (·.completed) = some true ∧
    (Ev (.preemptStart 0) preempting).gangs.map (·.state) = [.preempting, .queued] ∧
    ((Ev (.preemptSaveComplete 1 0) saving).core 0).loc = [] ∧
    ((Ev (.gangResume 1 0) (Ev (.preemptSaveComplete 1 0) saving)).core 0).loc = [(0x900, 7)] ∧
    ((Ev (.gangResume 1 0) (Ev (.preemptSaveComplete 1 0) saving)).gang 1 0).map (·.resuming) = some [0] := by decide +kernel

/-- An instance of domain 3 of gang 0, with its task a member and its trigger logged, replaying or sealed. -/
def instance0 (replaying enrolled : Bool) : DomInstance :=
  { dom := 3, inst := 0, isSealed := true, done := false, replaying := replaying, members := [⟨0, 1, enrolled⟩],
    roots := [(0, msg0)], below := none, coll := false, charges := 1 }
/-- The package with that gang, whose core runs a member task. -/
def rerunning (running : Bool) : State :=
  withGang { gang0 with insts := [instance0 true running] }
    (if running then busy Core.reset { task0 with enrolled := [(3, 0)] } else Core.reset)
/-- R347, R349, R353 to R356, R370: a stop, a time limit of 5 ms, a job's, an instance's and a gang's replay, roots
restored, and a sealed instance's end. -/
theorem test_replays : let s (b : Job) : State := { withGang gang0 Core.reset with jobs := [(1, b)] }
    ((Ev (.jobStop 1) (s { job0 with stop := some .failed })).job 1).map (·.stopped) = some true ∧
    (Ev (.jobStop 1) (s { job0 with stop := some .failed })).gangs = [] ∧
    ((Ev (.jobTimeout 1) { s job0 with iod := { State.reset.iod with ptime := 5000000 } }).job 1).map (·.stop) = some (some .timeout) ∧
    ((Ev (.jobTimeout 1) { s job0 with iod := { State.reset.iod with ptime := 4999999 } }).job 1).map (·.stop) = some none ∧
    (Ev (.jobReplay 1) (s { job0 with replaying := true })).iod.log = [.launch 1] ∧
    ((Ev (.instanceReplay 1 0 3) (rerunning true)).core 0).task = none ∧
    ((Ev (.replayRootRestore 1 0 3) (rerunning false)).core 0).chans[0].queue = [msg0] ∧
    ((Ev (.gangReplay 1 0) { withGang gang0 Core.reset with gangs := [{ gang0 with charged := true, retired := [0] }] }).gang 1 0).map
      (fun x => (x.charged, x.retired)) = some (false, []) ∧
    ((Ev (.domainInstanceEnd 1 0 3) { withGang gang0 Core.reset with
      gangs := [{ gang0 with insts := [instance0 false false] }] }).gang 1 0).map (fun x => x.insts.map (·.done)) = some [true] := by
  decide +kernel

/-- The package with core 0 declared failed and its entry DOWN. -/
def failing : State :=
  { withCore { Core.reset with life := .failed } with
    dies := [(0, { Die.reset with coreMap := [(0, 0x40)] })]
    sp := { State.reset.sp with failed := [0] } }
/-- R16, R352, R358 to R360, R364: a parity error, the spare's takeover, a die's heartbeat and its absence at 300 µs, the
votes on a core and on a die. -/
theorem test_losses : ((Ev (.parityLocal 0) (withCore (put (busy Core.reset task0) 0x900 1 7))).core 0).life = .failed ∧
    ((Ev (.parityLocal 0) (withCore (put (busy Core.reset task0) 0x900 1 7))).core 0).loc = [] ∧
    (Ev (.spareCoreTakeover 0) failing).iod.log = [.map (.core 0 0x08)] ∧
    (Ev (.dieHeartbeat 31) { State.reset with iod := { State.reset.iod with ptime := 9 } }).sp.dieBeats[31] = 9 ∧
    (Ev (.dieHeartbeatTimeout 31) { State.reset with iod := { State.reset.iod with ptime := 300000 } }).sp.suspect = [31] ∧
    (Ev (.peerVote ⟨.core 0, true, false, 0⟩) failing).sp.quarantine = [0] ∧
    (Ev (.peerVote ⟨.xd 5, true, true, 0⟩) State.reset).iod.log.length = 2 ∧
    (Ev (.peerVote ⟨.xd 5, true, true, 0⟩) State.reset).sp.spares.length = 1 := by decide +kernel
/-- R331, R362: a lost data symbol from P0 alone, and two lost through both parities. -/
theorem test_rebuild : let d : Nat → Byte := fun i => if i = 0 then 7 else if i = 4 then 9 else if i = 10 then 14 else
      if i = 11 then gpow 0 7 ^^^ gpow 4 9 else 0
    rebuiltByte d [4] 4 = 9 ∧ rebuiltByte d [0, 4] 0 = 7 ∧ rebuiltByte d [0, 4] 4 = 9 ∧ rebuiltByte d [4, 10] 10 = 14 ∧
    rebuiltByte d [11] 11 = d 11 := by decide +kernel
/-- R331, R362: the premises of the clause on rebuilding. -/
theorem witness_rebuild : let e : Erasure := ⟨0, [0], [], [(0, 4), (0, 10)], []⟩
    (e.lost.filter fun l => l.1 == 0).map (·.2) = [4, 10] ∧ State.reset.isNext e 0 = true ∧ e.symbols.wf = true ∧
    State.reset.net.parity = [] := ⟨by decide, by decide, by decide, rfl⟩
/-- R358: the premises of the clause on an interval's end. -/
theorem witness_interval : State.reset.xdDown 23 23 = false ∧ State.reset.sp.failed = [] ∧
    (∀ n, (State.reset.core n).dbg.halted = false) ∧ (∀ n, ((State.reset.die 23).beats.find n).getD 0 = 0) :=
  ⟨by decide, rfl, fun _ => rfl, fun _ => rfl⟩

/-- A reading of core 0's die from 10 µs on. -/
def reading0 : ReadingReq := ⟨some 0, 0, 8, true, 10000, 10001⟩
/-- R31, R36, R382, R392: time behind by 1 ms and by more; a power limit at its bounds; images; a reading from its request
to its end. -/
theorem test_service : (Ev (.ptpMessage ⟨1000001⟩) State.reset).iod.ptime = 1000001 ∧
    (Ev (.ptpMessage ⟨1000000⟩) State.reset).iod.ptime = 0 ∧ (Ev (.ptpMessage ⟨-50⟩) State.reset).iod.sync = true ∧
    (Ev (.setPlim 4000000) State.reset).sp.plim = 4000000 ∧ (Ev (.setPlim 8400001) State.reset).sp.plim = 8400000 ∧
    ((Ev (.firmwareImage ⟨.xd, 3, true, 5⟩) State.reset).sp.fw[4]).next = some ⟨3, 5⟩ ∧
    ((Ev .packageReset (Ev (.firmwareImage ⟨.xd, 3, true, 5⟩) State.reset)).sp.fw[4]).floor = 3 ∧
    (Ev (.powerGood ⟨true, true, List.finRange 26, List.finRange 8⟩) State.reset).sp.spares = [24, 25] ∧
    (Ev (.readingRequest reading0) State.reset).sp.readings.length = 1 ∧
    (let r : Machine.Reading := ⟨reading0, true, [], [], [], false, false, 0, none, none⟩
     let s (r : Machine.Reading) : State := { withCore Core.reset with
       iod := { State.reset.iod with ptime := 10001 }
       sp := { State.reset.sp with readings := [r] } }
     (Ev (.readingStart 0 0) (s r)).sp.readings.map (·.armed) = [[0]] ∧
     (Ev (.readingEnd 0) (s { r with req := { reading0 with jobId := 7 }, held := [0], armed := [0] })).sp.readings.map
       (fun r => (r.done, r.loss, r.min)) = [(true, false, some (0, 0))]) := by decide +kernel

/-- A core with tracing on and one record queued. -/
def tracing : Core := { Core.reset with dbg := { Core.reset.dbg with
  trcctl := 1
  trcbase := 0x4000
  trcQ := [⟨1, 2, 0x10, 0x20, 0⟩] } }
/-- R384 to R390, R393 to R396: HALTREQ on an idle core, a resume, tracing enabled and a record written, the state log's
first record, a debugger's write to a halted core, and a capture before and at the end of its 10 µs. -/
theorem test_debug : ((Ev (.dbgctl 0 4) (withCore Core.reset)).core 0).dbg.halted = true ∧
    ((Ev (.dbgstat 0 0x8000000000000000) (withCore { Core.reset with dbg := { Core.reset.dbg with halted := true } })).core 0).dbg.skipBp =
      true ∧ ((Ev (.trcctl 0 0x3F) (withCore Core.reset)).core 0).dbg.trcctl = 0x3F ∧
    ((Ev (.traceRecordWrite 0) (withCore tracing)).core 0).dbg.trcwr = 1 ∧
    (Ev (.traceRecordWrite 0) (withCore tracing)).mem.readNat 0x4008 8 = 0x0200000000000010 ∧
    ((Ev (.slctl 0 1) (withCore Core.reset)).core 0).dbg.slQ = [0xC000000000000000] ∧
    (Ev (.stateLogRecordWrite 0) (Ev (.slctl 0 1) (withCore Core.reset))).mem.readNat 0 8 = 0xC000000000000000 ∧
    ((Ev (.debugRegisterWrite 0 0x202 0xFFFFFFFFFFFFFFFF) (withCore Core.reset)).core 0).dbg.bp0 = 0x800FFFFFFFFFFFF8 ∧
    ((Ev (.debugPathAccess 0 (.writeX 3 5)) (withCore { Core.reset with dbg := { Core.reset.dbg with halted := true } })).core 0).regs.x[3] = 5 ∧
    (let s (t : Nat) : State := { State.reset with
       dies := [(0, { Die.reset with domains := [(7, ⟨true, 0, 0⟩)] })]
       iod := { State.reset.iod with ptime := t } }
     ((Ev (.droopHoldoffExpiry 0 7) (s 9999)).domain 0 7).held = true ∧
     ((Ev (.droopHoldoffExpiry 0 7) (s 10000)).domain 0 7).held = false ∧ ((Ev (.droopCapture 0 7) (s 5)).domain 0 7).missed = 1) := by
  decide +kernel
/-- R387, R396: HALT_DIE, RESUME_DIE and a capture have no premise but the die's number; the last core of the last die. -/
theorem witness_dies : (23 : Nat) < 24 ∧ 23 * 1024 + 1023 < coreCount ∧ (State.reset.domain 23 7).held = false := by decide

/-! ### More witnesses: instructions: stops, orders and rounding -/

/-- R38, R120, R229: each check of an atomic's pointer failing alone, in the order of the checks; AFADD of a reproducible job before
any of them; a bound destination of VAOR. -/
theorem test_atomic_traps : trapOf (.aadd always 3 1 2 false true) (ptr 0x0010000000001000) = some TrapCode.fmtMismatch.code ∧
    trapOf (.aswp always 3 1 2 false true) (ptr 0x0C00000000001001) = some TrapCode.align.code ∧
    trapOf (.aswp always 3 1 2 false true) (ptr 0x0C00000000001002) = some TrapCode.fmtMismatch.code ∧
    trapOf (.amin always 3 1 2 false true true) (ptr 0x1004) = some TrapCode.align.code ∧
    trapOf (.afadd always 3 1 2 false) (ptr 0x0C00000000001000) = some TrapCode.fmtMismatch.code ∧
    trapOf (.afadd always 3 1 2 false) (ptr 0x1002) = some TrapCode.align.code ∧
    trapOf (.vaor always 3 1 2 false) (ptr 0x0400000000001000) = some TrapCode.fmtMismatch.code ∧
    trapOf (.vaor always 3 1 2 false) (ptr 0x1008) = some TrapCode.align.code ∧
    trapOf (.afadd always 3 1 2 false) { ptr 0x0010000000001001 with jobattr := true } = some TrapCode.protFault.code ∧
    trapOf (.vaor always 28 1 2 false) { bound 4 ⟨0, 0, 0⟩ with regs := (xs [(1, 0x1000)]).regs } = some TrapCode.bufAccess.code := by decide

/-- A core of a gang whose Till at A offset 0x800 holds a count of 5, a generation of 0xFFFFFFFF and res0 bits 30 to 20. -/
def counting (w : Word) : State :=
  withGang gang0 { Core.reset with
    regs := (xs [(1, 0x800), (2, w)]).regs
    task := some task0
    loc := (Memory.writeNat [] 0x804 8 0xFFFFFFFF00000005).writeNat 0x80C 4 0x7FF00000
    chans := Core.reset.chans.set 15 { Core.reset.chans[15] with hnd := 0x200 } }
/-- R87, R134, R135, R233: a TSET over a count past its target advances the Till twice, GEN wrapping, and posts each time to the
core's own channel at once; one with TARGET 0 does not advance. -/
theorem test_till_advance : let t := after (.tset always 1 2) (counting 0x8003001200000002)
    t.me.loc.readNat 0x804 4 = 1 ∧ t.me.loc.readNat 0x808 4 = 1 ∧ t.me.loc.readNat 0x80C 4 = 0xFFF30012 ∧
    (t.me.chans[3]).queue.map (fun m => (m.kind, m.payload)) =
      [(4, [0, 8, 0, 0, 0, 0, 0, 0, 0x12, 0, 0, 0, 0, 0, 0, 0]), (4, [0, 8, 0, 0, 1, 0, 0, 0, 0x12, 0, 0, 0, 0, 0, 0, 0])] ∧
    (after (.tset always 1 2) (counting 0x8003001200000000)).me.loc.readNat 0x804 4 = 5 := by decide
/-- R87: the premises of the clause on a core's own post. -/
theorem witness_post : let s := counting 0
    (s.core 0).posts = [] ∧ (s.core 0).seqReady = true ∧ s.Arrives (selfMsg 0 0 4 3 [] 1) gang0 ∧
    s.refuses gang0 (selfMsg 0 0 4 3 [] 1) = false ∧ (s.core 0).slotFor 3 = some 1 ∧
    ((s.core 0).chans[15]).hnd.toNat / 8 % 2 ^ 49 ≠ 0 :=
  ⟨by decide, by decide, ⟨by decide, by decide, by decide, by decide, by decide, by decide⟩, by decide, by decide, by decide⟩

/-- R151, R232: the condition of FENCE.full, for a store that is issued, known to its die, and performed, and for one of a
`.gack` store not exposed yet. -/
theorem test_fence_done : let s (f : Req → Req) : State := withCore { storing with reqs := storing.reqs.map f }
    let u : Update := ⟨0, ⟨0, 0, 0, 0, false⟩, 0x1000, [5], [], false, true, none, false, false⟩
    let n (g : Bool) : State := { State.reset with net := { State.reset.net with updates := [{ u with gack := g }] } }
    (s id).fenceDone 0 1 2 = false ∧ (s id).fenceDone 0 0 4 = true ∧ (s fun r => { r with cached := true }).fenceDone 0 1 2 = true ∧
    (s fun r => { r with cached := true }).fenceDone 0 1 3 = false ∧
    (s fun r => { r with phase := .applied 0 [] }).fenceDone 0 1 4 = true ∧ (n false).fenceDone 0 1 2 = true ∧
    (n false).fenceDone 0 1 3 = false ∧ (n true).fenceDone 0 1 2 = false := by decide

/-- R8, R53, R70: finite codes below, in and above the range of EXP2, at 128, -150 and just below; a grid between two codes. -/
theorem witness_rounding : fp32.decode 0x43000000 = .fin false (128 * 65536) 65536 ∧ (fp32.decode 0xC3160000).isFinite = true ∧
    specialFn .exp2 0x43000000 = (0x7F800000, 5#6) ∧ specialFn .exp2 0xC3160001 = (0, 3#6) ∧
    specialFn .exp2 0xC3160000 = (0, 3#6) ∧ specialFn .exp2 0xC3158000 ≠ (0, 3#6) ∧ specialFn .exp2 0x3F800000 = (0x40000000, 0#6) ∧
    roundTo bf16 .rne false (.fin false 257 256) = (0x3F80, 1#6) ∧ roundTo bf16 .rpi false (.fin false 257 256) = (0x3F81, 1#6) ∧
    roundTo bf16 .rpi false (.fin true 257 256) = (0xBF80, 1#6) ∧ rneF32 (fp32.decode 0x00000001) = (1, 0#6) := by
  decide +kernel

/-- R36, R294, R305: throttling, a preserved tile, and the partner slots of a scaled product. -/
theorem test_matrix_stops : lastOf (.czero always 7) { Core.reset with throttled := true } = .stalled .throttle ∧
    lastOf (.mma always 0 2 5 true) { mxCore 3 with throttled := true } = .stalled .throttle ∧
    trapOf (.cadd always 1 8) (busy Core.reset { task0 with preserved := [⟨2, 2048, 16, 0⟩] }) = some TrapCode.bufAccess.code ∧
    ((run (.mmas always 0 2 5 false) (mxCore 14)).mxq.map fun o => match o.work with
      | .product _ _ _ _ _ _ _ _ _ _ _ pa pb _ => (pa, pb)
      | _ => (none, none)) = [(some (1, 0x4000, 64), some (3, 0x8000, 256))] := by decide
/-- R294: the tile of the clause on preserved ranges, at its first and last byte. -/
theorem witness_preserved : (busy Core.reset { task0 with preserved := [⟨2, 2048, 16, 0⟩] }).preservedBytes 2 2048 2048 = true ∧
    (busy Core.reset { task0 with preserved := [⟨2, 4080, 16, 0⟩] }).preservedBytes 2 2048 2048 = true ∧
    (busy Core.reset { task0 with preserved := [⟨2, 4096, 16, 0⟩] }).preservedBytes 2 2048 2048 = false := by decide

/-- R84, R181, R343: a channel register as a task has written it, FCAUSE by clearing, TSTAT's STEP, DBGSTAT of a halted core with a
late fault. -/
theorem test_registers : (run (.csrr always 3 0x110) { Core.reset with written := [(0x110, 7)] }).regs.x[3] = 7 ∧
    (run (.csrw always 1 0x240) { xs [(1, 0x8000000000000000)] with
      fault := { FaultRegs.zero with fcause := 0xC000000500000000 } }).fault.fcause = 0x4000000500000000 ∧
    (after (.csrw always 1 0x00A) { withCore (xs [(1, 1)]) with iod := { State.reset.iod with step := true } }).iod.step = false ∧
    (run (.csrr always 3 0x201) { Core.reset with
      late := [⟨⟨0x10, 2, 7, 0, 0, 0x1000⟩, 3, 1, 0, 7, 0x38, [], true, none⟩]
      dbg := { Core.reset.dbg with halted := true, cause := 3, next := 8 } }).regs.x[3] = 0xB800000000000008 := by decide

/-- R84, R88, R267, R341: the abort of a JOIN channel's task with a register write of its own, its post waiting behind another. -/
theorem test_trap_settles : let c := { two 0 0 with
      written := [(0x110, 0xA0000005)], posts := [(false, msg0)]
      chans := Core.reset.chans.set 0 ⟨0x100, 0xA0000000, 0, 0, 0, 0, []⟩ }
    let u := run (.trap always 1) c
    (u.chans[0]).ctl = 0x20000005 ∧ (u.chans[0]).jnext = 15 ∧ u.written = [] ∧ u.posts.length = 2 := by decide

/-- R165: a load of the same bundle does not hold up a source of the X slot, which has the value from before; one of an earlier
bundle does. -/
theorem test_pending : (run (.gld always 9 1 0 3 false) (ptr 0x1000)).pendingRegs = [] ∧ waiting.pendingRegs = [.x 9] := by decide
/-- R70: those codes as rationals. -/
theorem witness_exp2 : (fp32.decode 0x43000000).rat = 128 ∧ (fp32.decode 0xC3160000).rat = -150 ∧
    (fp32.decode 0xC3160001).rat < -150 ∧ (fp32.decode 0x3F800000).rat = 1 := by decide +kernel

/-! ### More witnesses: tasks, slots, messages, walks and residency -/

/-- R85, R87, R114, R385, R387: an idle core of a halted die halts in place of a dispatch; one whose Barrow record can move in after
a resume waits for it, and one without any dispatches. -/
theorem test_dispatch_stops : let s (x : Gang) (h : Bool) : State := withGang x { listening [msg0] with
      dbg := { Core.reset.dbg with dieHalt := h } }
    ((Ev (.taskDispatch 0) (s gang0 true)).core 0).dbg.cause = 3 ∧
    ((Ev (.taskDispatch 0) (s { gang0 with resuming := [0], barrow := [.msg msg0] } false)).core 0).task = none ∧
    (s { gang0 with resuming := [0], barrow := [.msg msg0] } false).canRefill 0 = true ∧
    ((Ev (.taskDispatch 0) (s { gang0 with resuming := [0] } false)).core 0).task.isSome = true := by decide
/-- R84: a channel register that the ended task wrote is in force. -/
theorem test_end_settles : ((Ev (.taskEndRelease 0) (withGang gang0 { busy Core.reset leaving with
    written := [(0x113, 0x80000000)] })).core 0).chans[3].ctl = 0x80000000 := by decide

/-- A channel 0 queue that takes the slots below a number. -/
def filling (n : Nat) : List Msg := (List.range n).map fun i => { msg0 with slot := i }
/-- R85: with 29 and 30 messages in the unreserved slots, for channel 0 and for channel 15. -/
theorem test_slots : (listening (filling 29)).slotFor 0 = some 29 ∧ (listening (filling 30)).slotFor 0 = none ∧
    (listening (filling 30)).slotFor 15 = some 30 ∧ (listening []).slotFor 15 = some 30 := by decide
/-- R86, R88, R98, R271, R275, R347: a message where every Barrow record is in use, a second ordinal of a JOIN channel, a
SPAWN that comes back with its credit, and a message held while an earlier command is on its way. -/
theorem test_message_stops :
    ((Ev (.messageArrival 0) (arriving msg0 { gang0 with barrow := [.msg { msg0 with dest := 9 }, .msg { msg0 with dest := 9 }] }
      (listening (filling 30)))).job 1).map (·.stop) = some (some .barrowFull) ∧
    (withGang gang0 { listening [] with chans := Core.reset.chans.set 0 { chan [msg0] with ctl := 0xE0000000 } }).refuses gang0
      msg0 = true ∧
    ((Ev (.messageArrival 0) { arriving { msg0 with kind := 2, credit := true } gang0 (listening []) with
      dies := [(0, { Die.reset with coreMap := [(0, 0x40)] })] }).core 0).spcred = 1 ∧
    (let c := run (.cpy always 3 1 2) (two 0x805F 0x4002FFE0)
     let s := withGang gang0 { c with outbox := [⟨msg0, 9, []⟩] }
     c.cmds.map (fun m => (m.pos, m.stage == .issued)) = [(0, true)] ∧ Ev (.bufferedMessageSend 0 0) s = s) := by decide +kernel

/-- A request's package under demand service, with the fault ring on or off. -/
def demanding (on : Bool) (s : State) : State :=
  { s with
    jobs := [(1, { job0 with launch := { launch0 with demand := true } })]
    iod := { s.iod with fq := ⟨0x400000, on, 3, 0, true, 0⟩ } }
/-- R138 to R140, R330, R375: a translation in the die's TLB; one that is absent under demand service with the fault ring on and
off; an ECP leaf where there is no erasure group; the host's limit for a fetch. -/
theorem test_walks : phases (Ev (.pageWalk (.request 0 0) .dieTlb) { asking load0 id with
      dies := [(0, { Die.reset with tlb := [page0] })] }) = [.translated 0x1000] ∧
    phases (Ev (.pageWalk (.request 0 0) .walk) (demanding true (asking load0 id))) = [.serviced 0] ∧
    (Ev (.pageWalk (.request 0 0) .walk) (demanding true (asking load0 id))).mem.readNat 0x400008 8 = 0x1000 ∧
    phases (Ev (.pageWalk (.request 0 0) .walk) (demanding false (asking load0 id))) = [.refused ⟨0x09, 1, 4, 1, 0, 0x1000⟩] ∧
    phases (Ev (.pageWalk (.request 0 0) .coreTlb) (withGang gang0
      { (asking load0 id).core 0 with tlb := [{ page0 with leaf := 0x400000000000003D }] })) =
        [.refused ⟨0x09, 1, 2, 0, 0, 0x1000⟩] ∧
    (let s := withGang gang0 { ptr 0 with stalled := some .fetch }
     wbits ((Ev (.demandServiceExpiry 4) { s with iod := { s.iod with
       tokens := [⟨4, .fetch 0, 1, 4, 0, 1000000⟩] } }).core 0).fault.fcause 61 20 = 0x9648) := by decide +kernel

/-- R147, R152, R161, R231, R361: another job's frame, an MD that is DOWN, and an ordered atomic behind one that ended in a fault. -/
theorem test_home_stops : (Ev (.globalRequestAtHome 0 0 false) { home load0 with iod := { State.reset.iod with frames := [(0, 2)] } }).sp.log =
      [.discarded 0 0] ∧
    phases (Ev (.globalRequestAtHome 0 0 false) { home load0 with iod := { State.reset.iod with
      mdMap := Vector.replicate 8 0x40000000#32 } }) = [.translated 0x1000] ∧
    (let s := home (atomic0 true)
     let k := withGang gang0 { s.core 0 with late := [{ late0 with ordered := some 0 }] }
     ((Ev (.orderedAtomicSend 0 0) k).core 0).reqs.map (·.sent) = [false]) := by decide +kernel

/-- R144, R225, R231, R348, R363: the status of an HPIN; a refused load, whose register stays pending; an ordered atomic behind one
that demand service answers; a residency record with an error in memory, and a slice that is DOWN. -/
theorem test_response_stops : ((Ev (.globalResponse 0 0) (asking (.hpin always 3 1) fun r => { r with phase := .answered 4 })).core 0).regs.x[3] = 4 ∧
    ((Ev (.globalResponse 0 0) (asking load0 fun r => { r with phase := .refused ⟨9, 1, 4, 0, 0, 0x1000⟩ })).core 0).pendingRegs = [.x 3] ∧
    (let c := run (atomic0 true) (run (atomic0 true) (held (ptr 0x1000)))
     let s := withGang gang0 { c with reqs := c.reqs.map fun r => { r with
       elapsed := 20000, phase := if r.pos = 0 then .serviced 4 else .translated 0x1000 } }
     c.reqs.map (·.pos) = [0, 1] ∧ (Ev (.ackTimeout 0 1) s).core 0 = s.core 0 ∧ (Ev (.ackTimeout 0 0) s).core 0 = s.core 0) ∧
    (let s := asking (.hevt always 1) fun r => { r with phase := .translated 0x1000, leaf := 0x3D, slices := [0, 1, 2, 3, 4, 5, 6] }
     phases (Ev (.residencyRequestAtSlice 0 0 7) { s with iod := { s.iod with errMap := [64] } }) = [.refused ⟨0x12, 1, 7, 0, 0, 0⟩] ∧
     phases (Ev (.residencyRequestAtSlice 0 0 7) { s with iod := { s.iod with mdMap := Vector.replicate 8 0x40000000#32 } }) =
       [.translated 0x1000]) := by decide +kernel
/-- R143, R144: the statuses 2, 3 and 4 of HPIN. -/
theorem test_reside : (State.reset.reside 1 .pin ⟨0x10000, 64, 0x70000⟩).1 = 2 ∧ (State.reset.reside 1 .pin ⟨0x10000, 63, 5⟩).1 = 3 ∧
    (State.reset.reside 1 .pin ⟨0x10000, 64, 5⟩).1 = 4 := by decide

/-- R39, R145, R330: an update that leaves half of a byte as it is; the premises of a frame in a data unit. -/
theorem test_skip : let u : Update := ⟨0, ⟨0, 0, 0, 0, false⟩, 0x1000, [5, 0, 6], [0, 0xF0, 0], false, true, none, false, false⟩
    (Ev (.crierOrder 0) { State.reset with mem := [(0x1001, 0x9A)], net := { State.reset.net with updates := [u] } }).mem =
      [(0x1000, 5), (0x1001, 0x90), (0x1002, 6)] ∧
    erasing.dataUnit 0 = true ∧ erasing.unitLost 0 = false ∧ erasing.dataUnit 0x10000 = false := by decide

/-! ### More witnesses: commands and blocks -/

/-- A CPY of `n` one-byte elements of FMT 5 issued on a core of the gang. -/
def copy (src dst n ctl : Nat) (f : Core → Core) : State :=
  let record := natToBytes 8 (5 * 2 ^ 58 + src) ++ natToBytes 8 (5 * 2 ^ 58 + dst) ++ natToBytes 8 n ++ natToBytes 8 ctl
  let c := two 0x1F00 0x900
  withGang gang0 (f (run (.cpy always 3 1 2) (held { c with loc := c.loc.writeList 0x900 record })))
/-- The status its checks give. -/
def judged (src dst n ctl : Nat) (f : Core → Core) : Option Nat :=
  let s := copy src dst n ctl f
  (s.cmd 0 0).bind fun m => (s.judgeCmd 0 m).map (·.code)
/-- A offsets 0x1000 and 0x2000 of core 0 as endpoints. -/
def epA : Nat := 0x0010000000001000
/-- The second. -/
def epB : Nat := 0x0010000000002000
/-- R126, R127, R279 to R282, R294: a copy whose checks pass, to the last byte of A and over its source with RND 0; each check
failing alone; and two at once, the earlier one's status. -/
theorem test_judge : judged epA epB 16 0 id = none ∧ judged epA 0x001000000002FFF0 16 0 id = none ∧
    judged epA (epA + 8) 16 0 id = none ∧ judged epA (epA + 8) 16 (2 ^ 29) id = some 0x12 ∧
    judged epA (epA + 16) 16 (2 ^ 29) id = none ∧
    judged epA (epB + 2 ^ 47) 16 0 id = some 0x13 ∧ judged epA epB 16 0 (fun c => { c with bufacl := 0x808080#24 }) = some 0x10 ∧
    judged epA 0x00100000000007F8 8 0 id = some 0x10 ∧ judged epA 0x001000000002FFF8 16 0 id = some 0x17 ∧
    judged 0x001000000002FFF8 epB 16 0 id = some 0x17 ∧
    judged epA epB 16 0 (fun c => c.modTask fun t => { t with preserved := [⟨0, 0x2000, 16, 0⟩] }) = some 0x10 ∧
    judged epA (epB + 2 ^ 47) 16 0 (fun c => { c with bufacl := 0x808080#24 }) = some 0x13 := by decide +kernel

/-- A copy of 16 bytes accepted, its one block sent. -/
def sent1 (dst ctl : Nat) (f : Core → Core) : State :=
  Ev (.engineBlockSend 0 0 false) (Ev (.engineCommandAccept 0 0) (copy epA dst 16 ctl f))
/-- What a state says to a channel: kind, channel, status and detail. -/
def posted (s : State) : List (Nat × Nat × Nat × Nat) := s.net.msgs.map fun m =>
  (m.kind, m.chan, m.payload.getD 5 0 |>.toNat, bytesToNat ((m.payload.drop 8).take 8))
/-- R134, R135, R278, R281, R314: an empty copy completes at once; a block's Till counts past a target of 6 and of 0, and overflows;
a third bad copy ends the command. -/
theorem test_tills : posted (Ev (.engineCommandAccept 0 0) (copy epA epB 0 0 id)) = [(4, 15, 0, 0)] ∧
    (let at0 (count target : Nat) (c : Core) : Core := { c with loc := c.loc.writeNat 0x800 8 (target + count * 2 ^ 32) }
     let go (count target : Nat) := Ev (.engineBlockArrival 0 0 0 none) (sent1 epB 0x800 (at0 count target))
     ((go 3 6).core 0).loc.readNat 0x804 8 = 1 + 3 * 2 ^ 32 ∧ ((go 3 0).core 0).loc.readNat 0x804 8 = 19 ∧
     posted (go 0xFFFFFFF0 0) = [(5, 15, 4, 0)] ∧ posted (go 0xFFFFFFEF 0) = []) ∧
    (let bad := Ev (.engineBlockArrival 0 0 0 (some (List.replicate 16 7)))
     let twice := Ev (.blockResend 0 0 0) (bad (Ev (.blockResend 0 0 0) (bad (sent1 epB 0 id))))
     ((twice.core 0).cmds.map (·.stop), ((bad twice).core 0).cmds.map (·.stop)) = ([none], [some 0x16])) := by decide +kernel

/-- The copy to global memory from VA 0x1038 on, its page known, its block sent. -/
def sentGlobal (ctl : Nat) : State :=
  let s := Ev (.engineCommandAccept 0 0) (copy epA 0x1038 16 ctl id)
  let t := withGang gang0 { s.core 0 with cmds := (s.core 0).cmds.map fun m => { m with pages := [page0], translated := 1 } }
  Ev (.engineBlockSend 0 0 false) t
/-- The same with the request for the first granule done. -/
def sentRest (ctl : Nat) : State :=
  withGang gang0 { (sentGlobal ctl).core 0 with cmds := ((sentGlobal ctl).core 0).cmds.map fun m => { m with
    blocks := m.blocks.map fun b => { b with requests := [⟨0x1040, List.replicate 8 7, List.replicate 8 0, 0x3D⟩] } } }
/-- R153, R314: a block across two granules goes as one request for each; the block counts with the last one, written at once or
waiting for the Crier. -/
theorem test_granules : ((sentGlobal 0).cmd 0 0).map (fun m => (m.globalBytes ((sentGlobal 0).blockWrites m 0 (List.replicate 16 7))).map
      fun ps => (joinRuns ps).map fun r => (r.pa, r.bytes.length, r.keep.all (· == 0))) =
        some (some [(0x1038, 8, true), (0x1040, 8, true)]) ∧
    (Ev (.engineBlockArrival 0 0 0 none) (sentRest 0)).net.updates = [] ∧
    ((Ev (.engineBlockArrival 0 0 0 none) (sentRest 0)).core 0).cmds.map (·.bytesDone) = [16] ∧
    (Ev (.engineBlockArrival 0 0 0 none) (sentRest 0x40000)).net.updates.map (fun u => (u.pa, u.bytes.length, u.gack)) =
      [(0x1040, 8, true)] := by decide +kernel

/-- R338: a token that the mask does not allow, and one beyond NTOK, stop GSTEP with ILLEGAL_TOKEN. -/
theorem test_illegal : let s (token : Nat) : State :=
      let s := grammar 6 1
      { withGang gang0 { s.core 0 with cmds := (s.core 0).cmds.map fun m => { m with
        payload := natToBytes 8 0x10000 ++ natToBytes 8 0x20000 ++ natToBytes 8 token ++ natToBytes 8 0 } } with mem := s.mem }
    ((Ev (.grammarExecute 0 0) (s 1)).core 0).cmds.map (·.stop) = [some 0x18] ∧
    ((Ev (.grammarExecute 0 0) (s 0)).core 0).cmds.map (·.stop) = [none] := by decide +kernel

/-- R36, R296, R304, R307: throttling holds a start back; a retired scaled product pops its rings and their partners. -/
theorem test_product : Ev (.mxuStart 0) (withCore { (multiplying false).core 0 with throttled := true }) =
      withCore { (multiplying false).core 0 with throttled := true } ∧
    (let c := run (.mmas always 0 2 5 false) (mxCore 14)
     let s := withCore { c with task := none, mxq := c.mxq.map fun o => { o with started := true } }
     (((Ev (.mmaRetire 0) s).core 0).rings.toList.map (·.head)).take 5 = [1, 1, 1, 1, 0]) := by decide +kernel

/-! ### More witnesses: the host, graphs and gangs -/

/-- The launch packet of `launching`, with bytes of its own at an offset. -/
def launchWith (off : Nat) (bytes : List Byte) : List Byte :=
  let b := natToBytes 8 0x10000000301 ++ natToBytes 8 7 ++ natToBytes 8 0 ++ natToBytes 8 1 ++ natToBytes 8 0x100000 ++
    natToBytes 8 0 ++ natToBytes 8 64 ++ List.replicate 16 0 ++ natToBytes 8 0xFFEFEF ++ List.replicate 2480 0
  b.take off ++ bytes ++ b.drop (off + bytes.length)
/-- R370 to R372: each reason of a refusal, by a field that breaks its bound alone, and none at the bound. -/
theorem test_refusals : let r (off : Nat) (bytes : List Byte) := State.reset.refusal (launchWith off bytes)
    r 0 [2] = some 1 ∧ r 1 [0x23] = some 2 ∧ r 0x30 [63] = some 3 ∧ r 0x20 [64] = some 4 ∧
    r 1 ([0x0B, 0, 0, 0, 1] ++ (launchWith 0 []).drop 6 |>.take 0x107 |> (· ++ [0, 0, 0, 0x80])) = some 5 ∧
    r 8 [0] = some 6 ∧ r 0x48 [0, 0, 0] = some 7 ∧ r 0x18 [1, 0x10] = some 8 ∧ r 0x18 [0, 0x10] = none := by decide +kernel
/-- Two queues with a packet each. -/
def twoQueues (turn : Nat) : State :=
  { launching with iod := { launching.iod with
    turn := turn
    queues := launching.iod.queues.set 5 (launching.queue 0) } }
/-- R110, R369, R373: a queue out of turn; a launch where a die has 4,096 gangs already, and its abort
from the queue. -/
theorem test_turns : (twoQueues 1).atTurn 0 = false ∧ (twoQueues 1).atTurn 5 = true ∧
    (let full : Job := { job0 with launch := { launch0 with ng := 4096, jobId := 3 } }
     ((Ev (.launchPacket 0) { launching with jobs := [(1, full)] }).queue 0).sqhead = 0) ∧
    ((Ev (.abort 7) launching).queue 0).sqhead = 1 ∧
    (Ev (.bar0RegisterWrite 0x10 0x2003) State.reset).iod.fq = ⟨0x2000, false, 3, 0, true, 0⟩ ∧
    (Ev (.bar0RegisterWrite 0x30 0x1FF) State.reset).iod.fq.head = 0xFF ∧
    (Ev (.bar0RegisterWrite 0x100000247 0) { State.reset with sp := { State.reset.sp with rr := true } }).sp.rr = false := by
  decide +kernel

/-- An instance of GID 9 that waits at node 0, an event that goes on to node 1. -/
def graph0 (n1 n2 : Node) (run : Nat) : Graph := ⟨9, 0, 0, [⟨3, true, 1, 0, 0, 0, 0⟩, n1, n2], 0, run, [], none, true, none⟩
/-- The package with that instance. -/
def graphed (g : Graph) (s : State) : State := { s with iod := { s.iod with graphs := [g] } }
/-- Where the instances stand after an event. -/
def nodesOf (s : State) : List (Nat × Nat × Bool) := s.iod.graphs.map fun g => (g.node, g.run, g.waiting)
set_option maxRecDepth 4000 in
/-- R372, R376 to R378: graph packets refused, one whose nodes are no nodes and one of an instance that runs; a conditional and a loop with their flag and count on both sides; the 65th node. -/
theorem test_graph_events : let e : Node := ⟨3, true, 0, 0, 0, 0, 0⟩
    (let head (s : State) := ((Ev (.graphPacket 0) s).queue 0).sqhead
     let gs (s : State) := (Ev (.graphPacket 0) s).iod.graphs.length
     (head (packet 2 0 0x300000 2), gs (packet 2 0 0x300000 2)) = (1, 0) ∧
     (head (graphed (graph0 e e 0) graphing), gs (graphed (graph0 e e 0) graphing)) = (1, 1)) ∧
    (let cond : Node := ⟨1, false, 2, 0, 0x5000, 0, 0⟩
     nodesOf (Ev (.gevent 9) (graphed (graph0 cond e 0) { State.reset with mem := [(0x5000, 1)] })) = [(2, 2, true)] ∧
     nodesOf (Ev (.gevent 9) (graphed (graph0 cond e 62) State.reset)) = [(0, 64, true)] ∧
     nodesOf (Ev (.gevent 9) (graphed (graph0 cond e 64) State.reset)) = []) ∧
    (let loop : Node := ⟨2, false, 2, 0, 0, 1, 0⟩
     (Ev (.gevent 9) (graphed (graph0 loop e 0) State.reset)).iod.graphs.map (fun g => (g.node, g.counts)) = [(0, [(1, 1)])] ∧
     (Ev (.gevent 9) (graphed { graph0 loop e 0 with counts := [(1, 1)] } State.reset)).iod.graphs.map (fun g => (g.node, g.counts)) =
       [(2, [(1, 0)])]) := by decide +kernel
/-- R369, R373, R377: a kernel is copied and entered at Slaxel's turn; with a queue before it that can be served it waits; ABORT
of its JOBID and of its GID. -/
theorem test_kernels : let k : Node := ⟨0, false, 2, 0, 0x200000, 0, 0⟩
    let e : Node := ⟨4, false, 0, 0, 0, 0, 0⟩
    let idle : State := { launching with iod := { launching.iod with queues := State.reset.iod.queues } }
    (Ev (.gevent 9) (graphed (graph0 k e 3) idle)).iod.log = [.launch 1] ∧
    (let w := Ev (.gevent 9) (graphed (graph0 k e 3) launching)
     w.iod.graphs.map (fun g => (g.node, g.job.isSome, g.packet.isSome)) = [(1, false, true)] ∧
     (Ev (.graphKernelComplete 9) { w with iod := { w.iod with turn := 64 } }).iod.log = [.launch 1] ∧
     (Ev (.abort 7) w).iod.graphs = [] ∧ (Ev (.abort 9) w).iod.graphs = []) := by decide +kernel

/-- R22, R23, R25, R360, R361: an MD's entry ends the requests outstanding to it; a spare die takes an identity whose entry is DOWN. -/
theorem test_map_updates : let s := home load0
    (let t := Ev (.mapUpdate 0) (ordered [.map (.md (homeOf 0x1000) 0x40000000#32)] s)
     phases t = [] ∧ (t.core 0).late.map (·.trap.code) = [0x11] ∧ (t.die 0).mapgen = 1) ∧
    (let down : State := { withCore { Core.reset with life := .failed } with
       iod := { State.reset.iod with dieMap := State.reset.iod.dieMap.set 0 0x40000000#32 }
       dies := [(0, { Die.reset with coreMap := [(0, 0x40)] })] }
     let t := Ev (.mapUpdate 0) (ordered [.map (.xd 0 24#32)] down)
     (t.core 0).life = .alive ∧ (t.die 0).coreMap = [] ∧ (t.die 0).mapgen = 1 ∧
     (Ev (.mapUpdate 0) (ordered [.map (.xd 1 24#32)] down)).cores = down.cores) := by decide +kernel

/-- R107, R113, R115, R355: a gang with a message on its way does not complete; a halted core puts a pre-emption off; the premises
of a save, and of a grant on a block alone. -/
theorem test_gang_stops : ((Ev (.gangComplete 1 0) { retiring with net := { retiring.net with msgs := [msg0] } }).gang 1 0).map (·.state) =
      some .running ∧
    (Ev (.preemptStart 0) { preempting with cores := preempting.cores.map fun p =>
      (p.1, { p.2 with dbg := { p.2.dbg with halted := true } }) }).gangs.map (·.state) = [.running, .queued] ∧
    (let s : State := withGang { gang0 with state := .preempting } Core.reset
     (s.coresOf gang0) = [0] ∧ (s.core 0).settled = true ∧ s.net.continuing 0 = false ∧
     ((Ev (.preemptSave 1 0) { s with cores := s.cores.map fun p =>
       (p.1, { p.2 with dbg := { p.2.dbg with halted := true } }) }).gang 1 0).map (·.state) = some .preempting) ∧
    (let s : State := { waitingGang { gang0 with state := .queued } with dies := [(0, { Die.reset with applied := 1 })] }
     s.grantable { gang0 with state := .queued } job0 = true ∧ (launch0.image 0 1).toNat / 2 ^ 30 % 2 = 0) := by decide +kernel

/-! ### More witnesses: charges, losses, readings and the service processors -/

/-- The package whose job and gang are to be charged. -/
def charging (b : Job) (x : Gang) : State := { withGang x Core.reset with jobs := [(1, b)] }
/-- What a charge leaves of the job and of the gang. -/
def jobCharge (t : State) : Option (Bool × Option StopStatus × Nat) := (t.job 1).map fun b => (b.replaying, b.stop, b.charges)
/-- What it leaves of the gang. -/
def gangCharge (t : State) : Option (Bool × Nat) := (t.gang 1 0).map fun x => (x.charged, x.charges)
/-- R354, R355, R367: charges of a job before and at its limit of one replay, of a gang before and at its third and with posts
outside, of an instance at its third, which goes to its gang, and of one that issued a COLL, which goes to the job. -/
theorem test_charges : jobCharge ((charging job0 gang0).chargeJob 1) = some (true, none, 1) ∧
    jobCharge ((charging { job0 with replays := 1 } gang0).chargeJob 1) = some (false, some .failed, 0) ∧
    gangCharge ((charging job0 { gang0 with charges := 2 }).chargeGang 1 0) = some (true, 3) ∧
    jobCharge ((charging job0 { gang0 with charges := 3 }).chargeGang 1 0) = some (true, none, 1) ∧
    jobCharge ((charging job0 { gang0 with outside := true }).chargeGang 1 0) = some (true, none, 1) := by decide +kernel
theorem test_instance_charges : let inst (i : DomInstance) : State := charging job0 { gang0 with insts := [i] }
    (((inst (instance0 false true)).chargeInst 1 0 3 0 5).gang 1 0).map (fun x => x.insts.map fun i => (i.replaying, i.charges)) =
      some [(true, 2)] ∧
    gangCharge ((inst { instance0 false true with charges := 3 }).chargeInst 1 0 3 0 5) = some (true, 1) ∧
    jobCharge ((inst { instance0 false true with coll := true }).chargeInst 1 0 3 0 5) = some (true, none, 1) := by decide +kernel
/-- R354, R367: a member halted for debug keeps its task; roots of a JOIN channel come first, with JNEXT at the first's ordinal. -/
theorem test_replay_cores : let m : Msg := { msg0 with ford := 5 }
    let halt (c : Core) : Core := { c with dbg := { c.dbg with halted := true } }
    let due : Gang := { gang0 with insts := [instance0 true true] }
    let member : Task := { task0 with enrolled := [(3, 0)] }
    ((Ev (.instanceReplay 1 0 3) (withGang due (halt (busy Core.reset member)))).core 0).task = some member ∧
    (let joined : Channel := { chan [{ msg0 with seq := 9, slot := 0 }] with ctl := 0xA0000000, jnext := 7 }
     let s := withGang { gang0 with insts := [{ instance0 true true with roots := [(0, m)] }] }
       { Core.reset with chans := Core.reset.chans.set 0 joined }
     let c := ((Ev (.replayRootRestore 1 0 3) s).core 0).chans[0]
     (c.queue.map (·.seq), c.jnext) = ([m.seq, 9], 5)) := by decide +kernel
/-- R88: a lost core's task on a JOIN channel steps its JNEXT back. -/
theorem test_join_lost : let joined : Channel := { chan [] with ctl := 0xA0000000, jnext := 7 }
    ((Ev (.parityLocal 0) (withCore { busy Core.reset task0 with chans := Core.reset.chans.set 0 joined })).core 0).chans[0].jnext =
      6 := by decide +kernel
/-- R16, R358, R360: a third empty interval declares a core failed, a second failure of its cluster makes the die suspect, and an
interval in which the core was halted does not count. -/
theorem test_intervals : let s (beats : Nat) (failed : List Nat) (c : Core) : State := { withCore c with
      dies := [(0, { Die.reset with beats := [(0, beats)] })]
      sp := { State.reset.sp with failed := failed } }
    (let t := (s 3 [] Core.reset).countInterval 0
     (t.core 0).life = .failed ∧ t.iod.log = [.map (.core 0 0x40)] ∧ t.sp.suspect = [] ∧ t.sp.failed = [0]) ∧
    (let t := (s 3 [1] Core.reset).countInterval 0
     (t.core 0).life = .failed ∧ t.iod.log = [] ∧ t.sp.suspect = [0]) ∧
    (let t := (s 3 [] { Core.reset with dbg := { Core.reset.dbg with halted := true } }).countInterval 0
     (t.core 0).life = .alive ∧ (t.die 0).beats = [(0, 3)]) := by decide +kernel
/-- R23, R360, R364: votes on a memory die, on a die that has taken no spare, and two that disagree. -/
theorem test_votes : (let t := Ev (.peerVote ⟨.md 7, true, true, 0⟩) { State.reset with iod := { State.reset.iod with frames := [(0, 1)] }, jobs := [(1, job0)] }
     t.iod.log = [.map (.md 7 0x40000007)] ∧ t.sp.lost = [31] ∧ (t.job 1).map (·.stop) = some (some .memlost)) ∧
    (let t := Ev (.peerVote ⟨.xd 5, true, true, 0⟩) { State.reset with sp := { State.reset.sp with spares := [] } }
     t.iod.log = [.map (.xd 5 0x40000005)] ∧ t.sp.lost = [5] ∧
     (Ev (.peerVote ⟨.xd 5, true, true, 0⟩) t).sp.lost = []) ∧
    (let t := Ev (.peerVote ⟨.xd 5, true, false, 0⟩) State.reset
     t.sp.rr = true ∧ t.iod.log = [] ∧ t.sp.log = [.disagreement (.xd 5)]) := by decide +kernel
/-- R392: a reading begins at T0 and not before, and selects the cores that its job then holds; one that a selected core never
began is loss. -/
theorem test_readings : let r : Machine.Reading := ⟨{ reading0 with jobId := 7 }, false, [], [], [], false, false, 0, none, none⟩
    let s (t : Nat) : State := { withGang gang0 Core.reset with
      iod := { State.reset.iod with ptime := t }
      sp := { State.reset.sp with readings := [{ r with begun := true, held := [0] }] } }
    (s 9999).markReading r = r ∧ (s 10000).markReading r = { r with begun := true, held := [0] } ∧
    (Ev (.readingEnd 0) (s 10001)).sp.readings.map (·.done) = [false] ∧
    (Ev (.readingEnd 0) { s 10001 with cores := [(0, { Core.reset with life := .failed })] }).sp.readings.map (fun a => (a.done, a.loss)) = [(true, true)] := by decide +kernel
/-- R382: one service processor restarts at a time, and then the other. -/
theorem test_restarts : let s (r : Option Bool) : State := { State.reset with sp := { State.reset.sp with due := [false, true], restarting := r } }
    (restartProcessor false (s none)).sp.restarting = some false ∧ (restartProcessor true (s (some false))).sp.restarting = some false ∧
    (restartProcessor false (s (some false))).sp.due = [true] := by decide +kernel
/-- R22, R380: what a reset keeps of the map of cores. -/
theorem test_reset_keeps : let s : State := { State.reset with dies := [(0, { Die.reset with coreMap := [(5, 0x48)] })] }
    s.coreEntry 5 = 0x48 ∧ (Ev .packageReset s).coreEntry 5 = 0x48 ∧ (s.die 0).applied = s.iod.log.length := by decide +kernel
/-- R367, R385, R387: a resume carries out the abort put off; one core resumed alone, and its die then halts no more. -/
theorem test_resumes : let halted (t : Option Task) : Core := { Core.reset with task := t, dbg := { Core.reset.dbg with
      halted := true
      dieHalt := true } }
    let due : State := withGang { gang0 with charged := true } (halted (some task0))
    due.dueAbort 0 = true ∧ ((Ev (.dbgstat 0 0x8000000000000000) due).core 0).task = none ∧
    ((Ev (.dbgstat 0 0x8000000000000000) (withCore (halted (some task0)))).core 0).task = some task0 ∧
    (let x : Die := { Die.reset with halting := true }
     let s : State := { withCore (halted none) with dies := [(0, x)] }
     (s.haltedDie 0 x).halting = true ∧ (Ev (.dbgstat 0 0x8000000000000000) s).haltedDie 0 x = { x with halting := false }) := by
  decide +kernel
/-- R22, R23, R36, R330, R360, R363, R381, R382: the service processors' own acts. -/
theorem test_acts : let act (a : Action) : State := match step { State.reset with agenda := [a] } with
      | .next t => t
      | _ => State.reset
    (act (.mapWrite (.core 24575 0x78))).iod.log = [.map (.core 24575 0x48)] ∧
    (act (.mapWrite (.core 0 0x09))).sp.log = [.reservedEntry (.core 0 0x09)] ∧
    (act (.mapWrite (.xd 23 0x80003FF9))).iod.log = [.map (.xd 23 0x80000019)] ∧
    (act (.mapWrite (.xd 0 26))).sp.log = [.reservedEntry (.xd 0 26)] ∧
    (act (.mapWrite (.md 7 0x40000007))).iod.log = [.map (.md 7 0x40000007)] ∧
    (act (.mapWrite (.md 0 8))).sp.log = [.reservedEntry (.md 0 8)] ∧
    (act (.groupMap ((List.range 12).map fun i => (i, i / 2)) [0])).sp.log = [.groupMapRefused] ∧
    (act (.corrected 64)).sp.log = [.corrected 64] ∧ ((act (.throttle 3 true)).core 3).throttled = true ∧
    (act (.ptpDomain 9)).sp.domain = 9 ∧ (act (.restart true)).sp.restarting = none ∧
    (act (.memoryError 5)).errorAt 5 1 = true := by decide +kernel

/-! ### Words, formats and conditions -/

/-- R235, R238, R310: a ring of two slots with one filled; a barrier with arrivals of ranks 1 and 2 and rank 0 dropped; a queue
of one operation after two. -/
theorem test_words : ringWord (bound 4 ⟨0, 0, 0⟩) 0 = 0x0000402010080401 ∧ ringWord Core.reset 0 = 0 ∧
    barrierWord { Core.reset with gang := some (1, 0) } ⟨true, 0, 3, 7, [1], [2], [0]⟩ 0 = 0xA000100300000007 ∧
    queueWord { Core.reset with mxq := [⟨.czero 0, false⟩], mxRetired := 2 } = 0x00000000000000030000000200001001 := by decide +kernel

/-- The table of R265: 100 rows and 70 columns over four and two cores. -/
def spread (at' : Word) : Core :=
  put (put (put (xs [(1, 0x1000), (2, at')]) 0x1000 8 0x0000000400080064) 0x1008 8 0x0000000200100046) 0x1020 8 0x0000000200010000
/-- R265: the rows of its table of results; R262: an array beyond its buffer, checked before the reserved bits of D0. -/
theorem test_own_table : (run (.own always 3 1 2) (spread 0x25002D)).regs.x[3] = 0x00010A1400000002 ∧
    (run (.own always 3 1 2) (spread 0x450063)).regs.x[3] = 0x000114D400000000 ∧
    (run (.own always 3 1 2) (spread 0x64)).regs.x[3] = 0xFFFFFFFFFFFFFFFF ∧
    (run (.own always 3 1 2) (spread 0x100000000)).regs.x[3] = 0xFFFFFFFFFFFFFFFF ∧
    trapOf (.own always 3 1 2) (put (put (spread 0) 0x1000 8 0x8000000400080064) 0x1020 8 0x000000020002F000) =
      some TrapCode.bufBounds.code ∧
    trapOf (.own always 3 1 2) (put (spread 0) 0x1000 8 0x8000000400080064) = some TrapCode.fmtMismatch.code := by decide +kernel

/-- R252, R254, R261: the lanes of their worked tables. -/
theorem test_worked_lanes : (qntLane [] 9 true 0x40F00000 0x40400000, qntLane [] 9 true 0xBF400000 0x40400000) = ((4, 1#6), (8, 3#6)) ∧
    (dqnLane [] 9 6 0x40400000, dqnLane [] 9 8 0x40400000) = ((0x41400000, 0#6), (0x80000000, 0#6)) ∧
    convertLane .rne false 0 2 300 = (0x2C, 0#6) ∧ convertLane .rne true 0 2 300 = (0x7F, 4#6) ∧
    convertLane .rtz false 2 10 0x4F32D05E = (0x7FFFFFFF, 5#6) ∧ convertLane .rtz false 2 10 0x7FC00000 = (0, 8#6) ∧
    convertLane .rne false 8 2 70000 = (0x7C00, 5#6) ∧ convertLane .rne true 8 2 70000 = (0x7BFF, 5#6) ∧
    mergeVec 0x00000000FF800000400000003F800000 0x00000000FF8000003FC0000040400000 =
      (0x00000000FF8000004000000040400000, 0#6) := by decide +kernel
/-- R245, R249, R250: masks of an equal pair of zeros and of a NaN; a zip of halves; sums, and the larger of two zeros. -/
theorem test_lanes : cmpLane .eq 8 0x8000 0 = 0xFFFF ∧ cmpLane .le 10 0x7FC00000 0 = 0 ∧ cmpLane .lt 0 0x80 0x7F = 0xFF ∧
    zipVec .zipLow 3 1 2 = 0x00000000000000020000000000000001 ∧ (reduceVec 2 (addNode 2) 0xFFFFFFFF000000020000000300000004).1 = 8 ∧
    reduceVec 10 (fun p q => (pickLane true 10 p.1 q.1, 0#6)) 0x80000000800000000000000080000000 = (0, 0#6) ∧
    reduceVec 10 (fun p q => (pickLane true 10 p.1 q.1, 0#6)) 0x7FC00000 = (0x7FC00000, 0#6) ∧
    absLane 10 0xFFC00001 = 0x7FC00001 ∧ negLane 11 0xFFF80000 = 0x40000 := by decide +kernel
/-- R73: codes below 1/16, between it and 9.5, and beyond. -/
theorem witness_tanh : 16 * (fp32.decode 0x3D000000).rat < 1 ∧ 1 ≤ 16 * (fp32.decode 0x3F800000).rat ∧
    2 * (fp32.decode 0x3F800000).rat < 19 ∧ 19 ≤ 2 * (fp32.decode 0x41200000).rat ∧
    (specialFn .tanh 0xC1200000) = (0xBF800000, 0#6) := by decide +kernel
/-- R71: E and m of a normal code and of the smallest subnormal. -/
theorem witness_parts : (fp32.decode 0x3FC00000).rat = (Val.dyadic false (2 ^ 23 + 0x400000) (0 - 23)).rat ∧
    (fp32.decode 1).rat = (Val.dyadic false (2 ^ 23 + 0) (-149 - 23)).rat := by decide +kernel

/-- R107, R144, R152, R373: the conditions that statements name: a store that a die's cache may take and one the home may apply in
turn; walks that nothing bars; a gang whose core runs; no packet queued. -/
theorem witness_conditions : (home store0).net.mayTake 0 0x1000 8 = true ∧ State.reset.net.admits none 0x1000 8 = true ∧
    State.reset.net.updateInTurn ⟨0, ⟨0, 0, 0, 0, false⟩, 0x1000, [5], [], true, true, none, false, false⟩ = true ∧
    (mapped State.reset).walkBarred 0 1 0x1000 = none ∧ (mapped State.reset).pinBarred 0 1 .pin ⟨0x10000, 64, 5⟩ = none ∧
    preempting.gangFinished gang0 job0 = false ∧ State.reset.queued 2 7 = none ∧ (demanding true State.reset).walkBarred 0 1 0x1000 = none ∧
    retiring.gangFinished { gang0 with retired := [0], state := .preempting } job0 = true := by decide +kernel

/-! ### More witnesses: contents of blocks, feedback and collectives -/

/-- A command of core 0 that has been accepted, by EOP and record. -/
def command (eop : Nat) (payload : List Byte) : Cmd :=
  { pos := 0, seq := 9, serial := 1, chan := 0, msgId := 0, fpc := 0, job := 1, gang := 0, eop := eop, scope := 0, rcen := false,
    rch := 0, engine := 0, payload := payload, table := identityTable, marks := [], reads := [], use := 0, stage := .accepted,
    accepted := 0, snapshot := [], fetched := [], pages := [], translated := 9, token := none, blocks := [], stream := [],
    coded := [], executed := false, contrib := [], stop := none, bytesDone := 0, resv := [], nans := 0, firstNan := 0,
    outcome := 0, globals := [], stale := [] }
/-- A record of doublewords. -/
def record (ws : List Nat) : List Byte := ws.flatMap (natToBytes 8)
/-- A local endpoint of core 0 in A, by format and offset. -/
def inA (f off : Nat) : Nat := f * 2 ^ 58 + fmtBlg f * 2 ^ 54 + 2 ^ 52 + off
/-- The package whose core 0 has that one command and what it reads. -/
def commanding (m : Cmd) (f : Core → Core) : State := withGang gang0 (f { busy Core.reset task0 with cmds := [m] })
/-- A CPYS of two dimensions of 3 and 5 elements, taken in the order 1, 0: source strides 20 and -1, destination strides 7 and 100. -/
def strided : Cmd := command 2 (record ([inA 5 0x1000, inA 5 0x2000, 2 + 2 ^ 6, 0, 3 + 5 * 2 ^ 32, 0, 0, 0, 20, 2 ^ 64 - 1, 0, 0, 0, 0, 0, 7, 100,
  0, 0, 0, 0, 0]))
/-- R283: the element of index vector (4, 2) of the destination, the last one, is number 14. -/
theorem test_elements : strided.total = 15 ∧ strided.perm 0 = 1 ∧ strided.perm 1 = 0 ∧ (4 * 3 + 2 : Nat) = 14 ∧
    strided.srcIndex 14 = -4 + 40 ∧ strided.dstIndex 14 = 28 + 200 ∧
    (command 1 (record [inA 5 0x1000, inA 5 0x2000, 16, 0])).srcIndex 15 = 15 := by decide +kernel
/-- A CPY of one block of 32 elements of FP32 at A offset 0x1000, each 6.0, to a format at A offset 0x2000. -/
def six (eop f : Nat) (more : List Nat) : State :=
  commanding (command eop (record ([inA 1 0x1000, inA f 0x2000, 32, 0] ++ more)))
    fun c => { c with loc := (c.loc.writeList 0x1000 (List.replicate 128 0 |>.mapIdx fun i _ => if i % 4 = 2 then 0xC0 else if i % 4 = 3 then 0x40 else 0)) }
/-- The bytes of the one block on its way after an event. -/
def blockBytes (s : State) : List (List Byte) := (s.core 0).cmds.flatMap fun m => m.blocks.map (·.bytes)
/-- R39, R40, R58, R59, R312, R317: 6.0 in blocks of the 4-bit MX format: scale 127, as the exponent of 6.0 is the format's, and codes
of 7; in the 4-bit format of 16 values under an e4m3 scale the scale 1.0 twice; and the scales land before the codes. -/
theorem test_contents :
    blockBytes (Ev (.engineBlockSend 0 0 false) (six 1 14 [])) = [127 :: List.replicate 16 0x77] ∧
    blockBytes (Ev (.engineBlockSend 0 0 false) (six 1 16 [])) = [0x38 :: 0x38 :: List.replicate 16 0x77] ∧
    (let t := Ev (.engineBlockArrival 0 0 0 none) (Ev (.engineBlockSend 0 0 false) (six 1 16 []))
     ((t.core 0).loc.readNat 0x2000 2, (t.core 0).loc.readNat 0x2010 16)) = (0x3838, 0x77777777777777777777777777777777) := by decide +kernel
/-- R69, R320: SCALE by 2.0 of 6.0; IHAD16 of a group whose element 0 is 4.0 alone is ±1.0 in every element. -/
theorem test_transforms : let m (x : Nat) : Cmd := command 1 (record [inA 1 0x1000, inA 1 0x2000, 16, x * 2 ^ 20])
    let s (x : Nat) : State := commanding (m x) fun c => { c with loc := c.loc.writeNat 0x6E8 8 0x40000000 }
    let words (l : List Byte) : List Nat := (List.range (l.length / 4)).map fun i => bytesToNat ((l.drop (4 * i)).take 4)
    ((s 5).transformed (m 5) 0 (natToBytes 4 0x40C00000)).map words = some [0x41400000] ∧
    ((s 3).transformed (m 3) 0 (natToBytes 64 0x40800000)).map (fun l => (words l).map (· % 2 ^ 31)) = some (List.replicate 16 0x3F800000) ∧
    (s 0).transformed (m 0) 0 [1, 2, 3, 4] = some [1, 2, 3, 4] := by decide +kernel
/-- The block of 32 values of the manual's worked step of EFQ, to the 4-bit MX format at STEP 6: its source at A offset 0x1000, its own
region at 0x4000 and the other at 0x5000; the first value as given. -/
def feeding (first : Nat) : State :=
  commanding (command 3 (record [inA 1 0x1000, inA 14 0x2000, 32, 0, 0x4000 + 0x5000 * 2 ^ 18, 6]))
    fun c => put (put c 0x1000 12 (first + 0xBFA00000 * 2 ^ 32 + 0x3EA00000 * 2 ^ 64)) 0x5000 12 (0x3F000000 + 0x3D800000 * 2 ^ 64)
/-- R284, R322 to R325: the worked step of the manual; a NaN in the block makes the NaN block, residuals of +0 and a status. -/
theorem test_feedback : let t := Ev (.engineBlockSend 0 0 false) (feeding 0x40A00000)
    blockBytes t = [[0x7F, 0xA7, 0x01] ++ List.replicate 14 0] ∧
    (t.core 0).loc.readNat 0x4000 16 = 0xBF000000 + 0xBE800000 * 2 ^ 32 + 0xBE000000 * 2 ^ 64 := by decide +kernel
/-- R324: a NaN in the block. -/
theorem test_nan_block : let n := Ev (.engineBlockSend 0 0 false) (feeding 0x7FC00000)
    blockBytes n = [0xFF :: List.replicate 16 0] ∧
    (n.core 0).loc.readNat 0x4000 16 = 0 ∧ (n.core 0).cmds.map (fun m => (m.nans, m.firstNan)) = [(1, 0)] ∧
    (feeding 0).job 1 = some job0 ∧
    (Ev (.engineCommandComplete 0 0) (Ev (.engineBlockArrival 0 0 0 none) n)).net.msgs.map
      (fun m => (m.kind, m.chan, m.payload.getD 5 0, m.payload.getD 12 0)) = [(5, 15, 5, 1)] := by decide +kernel
/-- R131, R312, R319: a slot of 16 bytes takes a block of 16 one-byte elements, behind the slot that is filled; and the premises on the
rings of the clauses on a scaled operand of B. -/
theorem test_ring_block : let m : Cmd := { command 1 (record [inA 5 0x1000, inA 5 0, 16, 2 ^ 24]) with resv := [⟨0, 0, 1, 1, 0⟩] }
    let s : State := commanding m fun c => { put c 0x1000 16 0x0102 with rings := c.rings.set 0 (ring0 0) }
    let t := Ev (.engineBlockArrival 0 0 0 none) (Ev (.engineBlockSend 0 0 false) s)
    m.toRing = true ∧ (t.core 0).loc.readNat 0x810 16 = 0x0102 ∧ (t.core 0).loc.readNat 0x800 16 = 0 ∧
    (s.destRing m).slog = 4 ∧ fmtScaled 14 = true ∧ (2 ^ 9 * 8 / 4) % (32 * fmtBlock 14) = 0 := by decide +kernel

/-- Two commands of one use, a sum of two contributions of one FP32 element, 1.0 and 2.0, or another operation on them. -/
def collective (cop : Nat) : State :=
  let m (p c : Nat) : Cmd := { command 4 (record [inA 1 0x1000, inA 1 0x2000, 1, 0, 2 ^ 48 + 2 * 2 ^ 32 + p * 2 ^ 16 + 1, cop, 0, 0]) with
    pos := p, contrib := [(0, [(c, 0)])] }
  withGang gang0 { busy Core.reset task0 with cmds := [m 0 0x3F800000, m 1 0x40000000] }
/-- R63, R64, R285, R327 to R329: the sum of both; all of them in the order of their positions; the root's; a contribution read; the
premises: one command at each place. The tree of three values. -/
theorem test_collectives : let go (cop : Nat) := blockBytes (Ev (.engineBlockSend 0 0 false) (collective cop))
    go 0 = [natToBytes 4 0x40400000] ∧ go 2 = [natToBytes 8 0x400000003F800000] ∧ go 3 = [natToBytes 4 0x40000000] ∧
    ((collective 0).useCmds 1 1 0).map (fun p => (p.2.place, p.2.np, p.2.contribFmt, p.2.chunks)) = [(0, 2, 1, 1), (1, 2, 1, 1)] ∧
    ((collective 0).cmd 0 0).map (fun m => ((collective 0).mismatched m, allAgree (((collective 0).useCmds 1 1 0).map (·.2)))) =
      some (false, true) ∧
    (let s := commanding (command 4 (record [inA 1 0x1000, inA 1 0x2000, 1, 0, 2 ^ 48 + 2 * 2 ^ 32, 0, 0, 0])) fun c => put c 0x1000 4 0x3F800000
     ((Ev (.engineBlockSend 0 0 false) s).core 0).cmds.map (·.contrib) = [[(0, [(0x3F800000, 0)])]]) ∧
    redType 1 = .float ∧ treeReduce (fun a b => a - b) 17 [10, 3, 2] = some 5 ∧ treeReduce (fun a b => a - b) 17 [10, 3] = some 7 ∧
    treeReduce (fun a b => a - b) 17 [9, 3, 2, 1] = some 5 := by decide +kernel
/-- R58, R59: values and exponents of the clauses on scales: 6.0 has exponent 2, and a quotient of two of them is exact. -/
theorem witness_scales : (Val.dyadic false 1 2).rat ≤ (fp32.decode 0x40C00000).abs.rat ∧
    (fp32.decode 0x40C00000).abs.rat < (Val.dyadic false 1 3).rat ∧ (Val.fin false 6 1).rat = (fp32.decode 0x40C00000).rat ∧
    (Val.dyadic false 1 3).rat ≤ (tableVal identityTable 15).abs.rat ∧
    (∀ c ≤ 15, (tableVal identityTable c).abs.rat < (Val.dyadic false 1 4).rat) := by decide +kernel
/-- R39, R312: three 4-bit elements land in a byte and half of the next, whose other half stays. -/
theorem test_half_byte : let m : Cmd := command 1 (record [inA 21 0x1000, inA 21 0x2000, 3, 0])
    let s : State := commanding m fun c => put (put c 0x1000 2 0x0321) 0x2000 3 0x77ABCD
    ((Ev (.engineBlockArrival 0 0 0 none) (Ev (.engineBlockSend 0 0 false) s)).core 0).loc.readNat 0x2000 3 = 0x77A321 := by decide +kernel
/-! ### More witnesses: barriers, the scheduler, traces, traps -/

/-- A gang whose barrier 0, on channel 3, expects one core; the core's task ends with an arrival. -/
def arrivingLast (leaving : Bool) : State :=
  withGang { gang0 with bars := gang0.bars.set 0 ⟨true, 3, 1, 7, [], [], []⟩ } (busy { Core.reset with seqctr := 5 } { task0 with
    ended := true, retire := false, buffered := [if leaving then .bard 0 else .bara 0] })
/-- R95, R103, R269: the phase completes: the core that arrived is posted the barrier and the phase; one that leaves lowers E. -/
theorem test_phase : let t := Ev (.taskEndRelease 0) (arrivingLast false)
    let u := Ev (.taskEndRelease 0) (arrivingLast true)
    t.net.msgs.map (fun m => (m.dest, m.chan, m.kind, m.payload, m.seq)) = [(0, 3, 4, [0, 0, 0, 0, 7, 0, 0, 0], 5)] ∧
    (t.gang 1 0).map (fun x => x.bars[(0 : Fin 8)]) = some ⟨true, 3, 1, 8, [], [], []⟩ ∧
    (u.gang 1 0).map (fun x => x.bars[(0 : Fin 8)]) = some ⟨true, 3, 0, 8, [], [], [0]⟩ ∧ u.net.msgs = [] ∧
    (arrivingLast true).gangs.map (fun x => x.coreOf job0.launch.gw 0) = [0] := by decide +kernel

/-- A core with messages on three channels of equal priority, the second a JOIN channel that expects ordinal 1; the last choice was
channel 1. -/
def choosing : Core :=
  { Core.reset with
    lastChan := 1
    chans := ((Core.reset.chans.set 0 (chan [msg0])).set 1 { chan [{ msg0 with ford := 2 }, { msg0 with ford := 1 }] with
      ctl := 0xA0000000, jnext := 1 }).set 4 (chan [{ msg0 with kind := 2, credit := true }]) }
/-- R88, R92, R98: the choice goes round after the last one; a JOIN channel gives its next ordinal, a SPAWN its credit back. -/
theorem test_round : let s (c : Core) : State := withGang gang0 c
    choosing.choose = some 4 ∧ ({ choosing with lastChan := 4 } : Core).choose = some 0 ∧
    ({ choosing with lastChan := 0 } : Core).choose = some 1 ∧
    ((Ev (.taskDispatch 0) (s choosing)).core 0).spcred = 1 ∧ ((Ev (.taskDispatch 0) (s choosing)).core 0).lastChan = 4 ∧
    (let t := (Ev (.taskDispatch 0) (s { choosing with lastChan := 0 })).core 0
     (t.chans[1].queue.map (·.ford), t.chans[1].jnext, t.task.map (·.msg.ford)) = ([2], 2, some 1)) := by decide +kernel

/-- R388 to R390: a record of each type by its bit; with two lost before it both records, with room for one the overflow record
alone, with the queue or the ring full neither. -/
theorem test_trace : let d (q lost issued : Nat) (ctl : Word) : Core := { Core.reset with dbg := { Core.reset.dbg with
      trcctl := ctl, trcQ := List.replicate q ⟨1, 2, 0, 0, 0⟩, trcLost := lost, trcIssued := issued, trcdrop := lost } }
    let left (c : Core) : List Nat × Nat × Nat × Nat := ((c.dbg.trcQ.map (·.type)).drop 13, c.dbg.trcLost, c.dbg.trcdrop, c.dbg.trcIssued)
    left ((d 13 2 20 0x3F).trace 5 0 0) = ([6, 5], 0, 2, 22) ∧ left ((d 15 2 20 0x3F).trace 5 0 0) = ([2, 2, 6], 1, 3, 21) ∧
    left ((d 16 2 20 0x3F).trace 5 0 0) = ([2, 2, 2], 3, 3, 20) ∧ left ((d 13 0 128 0x1F).trace 1 0 0) = ([], 0, 1, 128) ∧
    left ((d 13 0 127 0x1F).trace 4 0 0) = ([4], 0, 0, 128) ∧ left ((d 13 2 127 0x1F).trace 3 0 0) = ([6], 1, 3, 128) ∧
    (d 13 2 20 0x37).trace 3 0 0 = d 13 2 20 0x37 := by decide +kernel

/-- R220, R222: the first lane that fails decides a gather's trap, whatever later lanes do; a load of 4 bytes from the control space. -/
theorem test_lane_traps : let c (lanes : Vec) : Core := { xs [(1, 0x30000)] with regs := (xs [(1, 0x2FFF0)]).regs.setV 2 lanes }
    trapOf (.vldx always 3 1 2 2) (c 0x00000001000000100000000000000000) = some TrapCode.bufBounds.code ∧
    trapOf (.vldx always 3 1 2 2) (c 0x00000010000000010000000000000000) = some TrapCode.align.code ∧
    trapOf (.vldx always 3 1 2 2) { c 0 with regs := (xs [(1, 0xC0000000)]).regs.setV 2 0 } = some TrapCode.bufAccess.code ∧
    trapOf (.vstx always 3 1 2 2) { c 0 with regs := (xs [(1, 0x7F0)]).regs.setV 2 0 } = some TrapCode.bufAccess.code ∧
    trapOf (.ldCw always 3 1 0 2) (xs [(1, 0xC0000000)]) = some TrapCode.bufAccess.code ∧
    trapOf (.vld always 3 1 0) (xs [(1, 0x2FFF8)]) = some TrapCode.bufBounds.code ∧
    trapOf (.vst always 3 1 0) (xs [(1, 0x2FFE8)]) = some TrapCode.align.code := by decide +kernel
/-- R130, R131, R236, R237, R239: a ring of 8-byte slots, one that passes the end of A, a reserved bit, an MXA ring in W, one with a filled
slot; a move of an undefined ring, and a binding of one. -/
theorem test_ring_traps : let def' (w : Word) (c : Core) : Option Nat := trapOf (.rdef always 0 2) { c with regs := (xs [(2, w)]).regs }
    def' 0x008003101C000000 Core.reset = some TrapCode.bufBounds.code ∧ def' 0x2FFF04101C000000 Core.reset = some TrapCode.bufBounds.code ∧
    def' 0x008004101C000001 Core.reset = some TrapCode.fmtMismatch.code ∧ def' 0x408004100C000000 Core.reset = some TrapCode.fmtMismatch.code ∧
    def' 0x008004101C000000 (bound 3 ⟨0, 0, 0⟩) = some TrapCode.fmtMismatch.code ∧
    trapOf (.radvHd always 0 2) Core.reset = some TrapCode.bufAccess.code ∧
    trapOf (.radvTl always 0 2) (bound 3 ⟨0, 0, 4⟩) = some TrapCode.bufAccess.code ∧
    trapOf (.radvHd always 0 2) (bound 4 ⟨0, 4, 0⟩) = some TrapCode.bufAccess.code ∧
    trapOf (.bind always 1 1) (busy Core.reset task0) = some TrapCode.bufAccess.code := by decide +kernel
/-! ### More witnesses: the fourth review's points -/

/-- Ordered atomics of a core at three positions, none sent, the late fault of the second one due. -/
def threeAtomics : State :=
  let c := run (atomic0 true) (run (atomic0 true) (run (atomic0 true) (held (ptr 0x1000))))
  withGang gang0 { c with late := [{ late0 with serial := 9, ordered := some 1 }] }
/-- R231: only the one behind the failed one is dropped; R348: the task of another serial goes on. -/
theorem test_dropped : (threeAtomics.core 0).reqs.map (·.pos) = [0, 1, 2] ∧
    ((Ev (.lateFault 0) threeAtomics).core 0).reqs.map (·.pos) = [0, 1] ∧
    ((Ev (.lateFault 0) threeAtomics).core 0).task.isSome = true := by decide +kernel
/-- R28, R147, R152: a store not translated yet and a load that is, of two virtual addresses that the tables lead to one frame. -/
theorem test_one_granule : let c := run load0 (run store0 (held (ptr 0x1000)))
    let s := mapped (withGang gang0 { c with reqs := c.reqs.map fun r => if r.pos = 0 then r else
      { r with ptr := 0x40001000, phase := .translated 0x1000, leaf := 0x3D } })
    (s.core 0).reqs.map (fun r => (r.va, s.leadsTo 0 r)) = [(0x1000, some 0x1000), (0x40001000, some 0x1000)] ∧
    (s.core 0).reqs.map (fun r => s.granuleClear 0 r true) = [true, false] := by decide +kernel
/-- R86, R88: the message of a Barrow record that stands aside is still compared by the writer check, and counts in the Barrow. -/
theorem test_aside : let joined : Core := { listening [] with chans := Core.reset.chans.set 0 { chan [] with ctl := 0xE0000000 } }
    let x : Gang := { gang0 with aside := [.msg { msg0 with ford := 4 }] }
    (withGang x joined).refuses x { msg0 with ford := 4 } = true ∧ (withGang x joined).refuses x { msg0 with ford := 5 } = false := by
  decide +kernel
/-- R369: SQHEAD 10 and SQTAIL 2 of a queue of 8 entries is an empty one. -/
theorem test_small_queue : ((State.reset.queue 0).entries, ({ State.reset.queue 0 with sqhead := 10, sqtail := 2, sqlog := 3 } : Queue).entries,
    ({ State.reset.queue 0 with sqhead := 10, sqtail := 4, sqlog := 3 } : Queue).entries,
    ({ State.reset.queue 0 with sqhead := 10, sqtail := 4, sqlog := 3 } : Queue).nextIndex) = (0, 0, 2, 2) := by decide +kernel
/-- R361, R363, R378: a predicate word on an MD that is DOWN is not read, and the instance stays; one with an error ends it. -/
theorem test_predicate : let cond : Node := ⟨1, false, 2, 0, 0x5000, 0, 0⟩
    let e : Node := ⟨3, true, 0, 0, 0, 0, 0⟩
    let down : State := { State.reset with iod := { State.reset.iod with mdMap := Vector.replicate 8 0x40000000#32 } }
    nodesOf (Ev (.gevent 9) (graphed (graph0 cond e 0) down)) = [(1, 0, false)] ∧
    nodesOf (Ev (.gevent 9) (graphed (graph0 cond e 0) { State.reset with iod := { State.reset.iod with errMap := [0x140] } })) = [] ∧
    (State.reset.slaxelReads 0x5000, State.reset.errorAt 0x5000 8, State.reset.dataUnit 0x5000) = (true, false, false) := by decide +kernel
/-- R115: while a gang of the die is saved no other is pre-empted; R88, R101: no start message to a locked channel 0. -/
theorem test_saving_first : let z : Gang := { gang0 with job := 3, row0 := 8, state := .saving }
    (Ev (.preemptStart 0) { preempting with gangs := z :: preempting.gangs }).gangs.map (·.state) = [.saving, .running, .queued] ∧
    (let b : Job := { job0 with launch := { launch0 with chans := List.replicate 2 [0x100, 0xC0007FFF] } }
     let s : State := { waitingGang { gang0 with state := .queued } with dies := [(0, { Die.reset with applied := 1 })], jobs := [(1, b)] }
     let t := Ev (.gangGrant 1 0) s
     (t.core 0).gang = some (1, 0) ∧ (t.core 0).chans[0].queue = [] ∧ (t.job 1).map (·.discarded) = some 1) := by decide +kernel
/-- R353: a task's charge counts with its message and with the root logged from it; the fourth goes to its instance or gang. -/
theorem test_task_charges : let s (n : Nat) : State := charging job0 { gang0 with insts := [{ instance0 false true with roots := [(0, { msg0 with charges := n })] }] } |>
      fun t => { t with cores := [(0, held (busy Core.reset { task0 with msg := { msg0 with charges := n } }))] }
    (((s 2).countTask 0).gang 1 0).map (fun x => x.insts.map fun i => i.roots.map fun r => r.2.charges) = some [[3]] ∧
    (((s 2).countTask 0).core 0).task.map (·.msg.charges) = some 3 ∧ gangCharge ((s 3).countTask 0) = some (true, 1) := by decide +kernel
/-- R358: a heartbeat before a stop for debug does not spoil the count: three empty intervals after it declare the core failed. -/
theorem test_stopped_interval : let s (k : Nat) (c : Core) : State := { withCore c with dies := [(0, { Die.reset with beats := [(0, k)] })] }
    ((s 0 { Core.reset with dbg := { Core.reset.dbg with halted := true } }).countInterval 0 |>.die 0).beats = [(0, 1)] ∧
    (((s 17 Core.reset).countInterval 0).die 0).beats = [(0, 1)] := by decide +kernel
/-- R331, R360, R362: in a group a lost MD's unprotected jobs and a lost package's charges wait for the rebuild, which waits for the
MD; a unit once asked for is rebuilt first. -/
theorem test_recovery_order : let e : Erasure := ⟨0, [0, 0x10000], [], [], []⟩
    let s : State := { State.reset with erasure := some e, jobs := [(1, job0)], iod := { State.reset.iod with frames := [(0x700, 1)] } }
    let d := Ev (.peerVote ⟨.md 7, true, true, 6⟩) s
    (d.sp.memDue, (d.job 1).map (·.stop), (d.erasure.map (·.lost))) = ([1], some none, some [(0, 0), (1, 11)]) ∧
    d.lossOpen = true ∧ d.rebuildable ⟨0, [0], [], [(0, 0)], []⟩ (0, 0) = false ∧
    (let p := Ev (.peerVote ⟨.package 0, true, true, 6⟩) s
     (p.sp.chargeDue, (p.job 1).map fun b => (b.replaying, b.charges)) = ([1], some (true, 0)) ∧ (Ev (.jobReplay 1) p).iod.log = p.iod.log) ∧
    jobCharge ({ s with sp := { s.sp with chargeDue := [1] }, jobs := [(1, { job0 with replaying := true })] } : State).settleLoss =
      some (true, none, 1) ∧
    (({ s with sp := { s.sp with memDue := [1] } } : State).settleLoss.job 1).map (·.stop) = some (some .memlost) ∧
    (s.isNext ⟨0, [0, 0x10000], [], [(0, 4), (1, 4)], [1]⟩ 1, s.isNext ⟨0, [0, 0x10000], [], [(0, 4), (1, 4)], [1]⟩ 0) = (true, false) := by
  decide +kernel
/-- R39, R363: a write of some bytes or bits of a granule leaves its error, one of the whole granule clears it. -/
theorem test_cleared : let s : State := { withGang gang0 Core.reset with iod := { State.reset.iod with errMap := [0x40] } }
    let u (keep : List Byte) : State := s.engineWrite 0 (command 1 []) false ⟨0x1000, List.replicate 64 7, keep, 0x3D⟩
    (u (List.replicate 64 0)).iod.errMap = [] ∧ (u (0x0F :: List.replicate 63 0)).iod.errMap = [0x40] ∧
    (u (0x0F :: List.replicate 63 0)).mem.read 0x1000 = 0 := by decide +kernel
/-- R153, R315, R361, R363: a block whose source granule has an error stops its command; one whose home is DOWN waits. -/
theorem test_sources : let s : State := commanding { command 1 (record [5 * 2 ^ 58 + 0x1000, inA 5 0x2000, 16, 0]) with pages := [page0] } id
    blockBytes (Ev (.engineBlockSend 0 0 false) { s with mem := [(0x1003, 9)] }) = [[0, 0, 0, 9] ++ List.replicate 12 0] ∧
    ((Ev (.engineBlockSend 0 0 true) s).core 0).cmds.map (·.stop) = [some 0x1A] ∧
    (Ev (.engineBlockSend 0 0 false) { s with iod := { s.iod with mdMap := Vector.replicate 8 0x40000000#32 } }).core 0 = s.core 0 ∧
    (s.cmd 0 0).map (fun m => m.sourceGranules ((List.range 16).map Int.ofNat)) = some [(0x40, false)] ∧
    ((commanding { command 1 (record [5 * 2 ^ 58 + 0x1038, inA 5 0x2000, 16, 0]) with pages := [page0] } id).cmd 0 0).map
      (fun m => (m.sourceGranules ((List.range 16).map Int.ofNat)).map (·.1)) = some [0x40, 0x41] := by decide +kernel
/-- R385: a fault at the resume of a core does not take back that its first bundle passes breakpoints; R20, R391: cycles of a bank
conflict, counted as event 7. -/
theorem test_resume_conflict :
    ((Ev (.dbgstat 0 0x8000000000000000) (withGang { gang0 with charged := true } { busy Core.reset task0 with dbg := { Core.reset.dbg with
      halted := true } })).core 0).dbg.skipBp = true ∧
    (match step { withGang gang0 { busy Core.reset task0 with dbg := { Core.reset.dbg with evsel := 0x107 } } with agenda := [.conflict 0 3] } with
      | .next t => ((t.core 0).dbg.evcnt, (t.core 0).cycles)
      | _ => (0, 0)) = (3, 3) := by decide +kernel
/-- R230: operands and compare values of a 4-byte atomic count with their low 32 bits. -/
theorem test_low_words : AtomicOp.apply .add 4 7 0x500000002 = some 9 ∧ AtomicOp.apply (.cas 0x300000007) 4 7 5 = some 5 ∧
    AtomicOp.apply (.cas 0x300000007) 8 7 5 = none := by decide +kernel

/-! ### Steps -/

/-- Core 0 about to run the bundle `ADD x3, x4, x5` of its page, where x4 is 2 and x5 is 3. -/
def placed : State := (withCore (xs [(4, 2), (5, 3)])).withFetchWord 64 0x400190A0
/-- R163, R167: the step runs the instruction, and the next bundle is chosen. -/
theorem test_step : (match step placed with
    | .next t => ((t.core 0).regs.x[3], (t.core 0).pc, t.last == .done)
    | _ => (0, 0, false)) = (5, 8, true) := by decide +kernel
/-- The premises of the statement on steps. -/
theorem witness_step : placed.agenda = [] ∧ placed.cur = 0 ∧ ((placed.runCycles 0 1).core 0).runs = true ∧
    ((placed.runCycles 0 1).core 0).breakpointAt = none ∧ placed.fetchWaits 0 = false ∧
    tlbFind ((placed.runCycles 0 1).core 0).tlb 0 0 = some ⟨0, 0, 16, 0x3D⟩ ∧ placed.errorAt 0 8 = false ∧
    ((placed.runCycles 0 1).core 0).late = [] ∧ placed.ecpOk ⟨0, 0, 16, 0x3D⟩ = true ∧ placed.homeTakes 0 0 = true ∧
    placed.foreign 0 0 = false := by decide +kernel
/-- Log 1: an event, an interval of time and a core's cycles of the agenda. -/
theorem test_agenda : (match step { State.reset with agenda := [.elapse 7] } with
      | .next t => t.iod.ptime
      | _ => 0) = 7 ∧
    (match step { State.reset with agenda := [.cycles 24575 3, .elapse 1] } with
      | .next t => ((t.core 24575).cycles, t.agenda)
      | _ => (0, [])) = (3, [.elapse 1]) ∧
    (match step { State.reset with agenda := [.event (.setPlim 4000000)] } with
      | .next t => t.sp.plim
      | _ => 0) = 4000000 := by decide +kernel

end Sys2Proof.Tests
end

section
/-! SUPPORT. The special operands of LOG2, EXP2, RCP, RSQ and SQRT (R72): what each function answers for a NaN, an infinity,
a zero and a negative value, and the FP32 codes that have these values. -/

namespace Sys2Proof.Machine

/-! ### Finite FP32 codes (R42) -/

/-- A value `m * 2^e` with `m` positive is finite with a positive numerator, of the sign given. -/
theorem Val.dyadic_eq_fin_of_pos (neg : Bool) {m : Nat} (e : Int) (hm : 0 < m) :
    ∃ num den, 0 < num ∧ Val.dyadic neg m e = .fin neg num den := by
  unfold Val.dyadic
  split
  · exact ⟨_, _, Nat.mul_pos hm (Nat.two_pow_pos _), rfl⟩
  · exact ⟨_, _, hm, rfl⟩

/-- A magnitude code other than 0 has a finite value other than zero. -/
theorem FloatFmt.magVal_eq_fin_of_pos (F : FloatFmt) (neg : Bool) {mag : Nat} (hmag : 0 < mag) :
    ∃ num den, 0 < num ∧ F.magVal neg mag = .fin neg num den := by
  by_cases hexp : mag / 2 ^ F.mbits = 0
  · have hfrac : 0 < mag % 2 ^ F.mbits := by
      rwa [Nat.mod_eq_of_lt ((Nat.div_eq_zero_iff_lt (Nat.two_pow_pos _)).mp hexp)]
    simpa [FloatFmt.magVal, hexp] using Val.dyadic_eq_fin_of_pos neg _ hfrac
  · have hsig : 0 < 2 ^ F.mbits + mag % 2 ^ F.mbits := Nat.add_pos_left (Nat.two_pow_pos _) _
    simpa [FloatFmt.magVal, hexp] using Val.dyadic_eq_fin_of_pos neg _ hsig

/-- The FP32 codes between −0 and −∞ are those of the finite values below zero. -/
theorem fp32_decode_eq_fin_of_neg {c : Nat} (hlo : 0x80000000 < c) (hhi : c < 0xFF800000) :
    ∃ num den, 0 < num ∧ fp32.decode c = .fin true num den := by
  have hsign : fp32.signBit = 0x80000000 := rfl
  have hmax : fp32.maxCode = 0x7F7FFFFF := rfl
  have hneg : c / 0x80000000 % 2 = 1 := by omega
  have hmag : 0 < c % 0x80000000 ∧ c % 0x80000000 ≤ 0x7F7FFFFF := by omega
  simpa [FloatFmt.decode, hsign, hmax, hneg, hmag.2] using fp32.magVal_eq_fin_of_pos true hmag.1

/-! ### Special functions by the value of their operand (R72) -/

section
variable {c : Nat}

/-- A NaN propagates and sets no flag. -/
theorem specialFn_of_nan (f : SpecialFn) (h : fp32.decode c = .nan) : specialFn f c = (f32Nan, 0#6) := by
  cases f <;> simp only [specialFn, h] <;> rfl

/-- +∞ has a result under each function, and none of them sets a flag. -/
theorem specialFn_of_posInf (h : fp32.decode c = .inf false) :
    specialFn .log2 c = (f32Inf, 0#6) ∧ specialFn .exp2 c = (f32Inf, 0#6) ∧ specialFn .rcp c = (0, 0#6) ∧
    specialFn .rsq c = (0, 0#6) ∧ specialFn .sqrt c = (f32Inf, 0#6) := by
  simp [specialFn, h, log2Fn, exp2Fn, rcpFn, rsqFn, sqrtFn, f32Neg]

/-- LOG2, RSQ and SQRT have no value at −∞; EXP2 and RCP go to zero there, without a flag. -/
theorem specialFn_of_negInf (h : fp32.decode c = .inf true) :
    specialFn .log2 c = (f32Nan, flInv) ∧ specialFn .exp2 c = (0, 0#6) ∧ specialFn .rcp c = (f32Neg true 0, 0#6) ∧
    specialFn .rsq c = (f32Nan, flInv) ∧ specialFn .sqrt c = (f32Nan, flInv) := by
  simp [specialFn, h, log2Fn, exp2Fn, rcpFn, rsqFn, sqrtFn]

/-- A zero of sign `s`: EXP2 gives 1, SQRT the zero itself, LOG2 −∞, RCP and RSQ the infinity of its sign. -/
theorem specialFn_of_zero {s : Bool} {den : Nat} (h : fp32.decode c = .fin s 0 den) :
    specialFn .log2 c = (f32Neg true f32Inf, flDz) ∧ specialFn .exp2 c = (0x3F800000, 0#6) ∧
    specialFn .rcp c = (f32Neg s f32Inf, flDz) ∧ specialFn .rsq c = (f32Neg s f32Inf, flDz) ∧
    specialFn .sqrt c = (f32Neg s 0, 0#6) := by
  simp [specialFn, h, log2Fn, exp2Fn, rcpFn, rsqFn, sqrtFn]

/-- LOG2, RSQ and SQRT have no value at a finite operand below zero. -/
theorem specialFn_of_neg {f : SpecialFn} {num den : Nat} (hf : f ∈ [SpecialFn.log2, .rsq, .sqrt])
    (h : fp32.decode c = .fin true num den) (hnum : 0 < num) : specialFn f c = (f32Nan, flInv) := by
  have hne : num ≠ 0 := Nat.ne_of_gt hnum
  simp only [List.mem_cons, List.not_mem_nil, or_false] at hf
  obtain rfl | rfl | rfl := hf <;> simp [specialFn, h, hne, log2Fn, rsqFn, sqrtFn]

end

/-- Settles O21: each row of the table of R72 by the value its operand's code decodes to. -/
theorem specialOperands : Obligations.SpecialOperands := by
  unfold Obligations.SpecialOperands
  have hposInf : fp32.decode 0x7F800000 = .inf false := by decide
  have hnegInf : fp32.decode 0xFF800000 = .inf true := by decide
  have hposZero : fp32.decode 0 = .fin false 0 (2 ^ 149) := by decide
  have hnegZero : fp32.decode 0x80000000 = .fin true 0 (2 ^ 149) := by decide
  refine ⟨fun _ f _ hnan _ => specialFn_of_nan f hnan, specialFn_of_posInf hposInf, specialFn_of_negInf hnegInf,
    specialFn_of_zero hposZero, specialFn_of_zero hnegZero, fun c f hlo hhi hf => ?_⟩
  obtain ⟨num, den, hnum, hdec⟩ := fp32_decode_eq_fin_of_neg hlo hhi
  exact specialFn_of_neg hf hdec hnum

end Sys2Proof.Machine
end

section
/-! SUPPORT. Division (R203) and shifts (R204): how an operation of two operands on x registers runs, and the values that the
model's functions give, by the rules' own formulas. -/

namespace Sys2Proof.Machine

/-! ### Running an operation of two operands (R199) -/

/-- An operation whose operands are `s.me.x a` and the value of `b` writes its result to xd and completes. -/
theorem runOn_alu {i : Instr} {f : Word → Word → Word} {d a : Fin 32} {b : Core → Word} {s : State} (h : s.Runs i) :
    runOn i (alu f d a b) s = .next (s.doneAs (s.me.setX d (f (s.me.x a) (b s.me)))) :=
  runOn_pure h

/-! ### Values of division (R203) -/

section
variable {a b : Word}

/-- −1 is the only word whose signed value is −1. -/
theorem eq_neg_one_of_toInt (hb : b.toInt = -1) : b = -1#64 := BitVec.eq_of_toInt_eq hb

theorem divSigned_of_eq_zero (hb : b = 0) : divSigned a b = 0xFFFFFFFFFFFFFFFF#64 := if_pos hb

/-- Away from a zero divisor DIV is the quotient of the library's bit vectors. -/
theorem divSigned_of_ne_zero (hb : b ≠ 0) : divSigned a b = a.sdiv b := by
  refine (if_neg hb).trans (BitVec.eq_of_toInt_eq ?_)
  rw [BitVec.toInt_ofInt, BitVec.toInt_sdiv]

/-- The one quotient that overflows, −2^63 by −1, wraps round to −2^63. -/
theorem divSigned_overflow (ha : a = 0x8000000000000000#64) (hb : b.toInt = -1) :
    divSigned a b = 0x8000000000000000#64 := by
  subst ha
  rw [eq_neg_one_of_toInt hb, divSigned_of_ne_zero (by decide)]
  exact BitVec.intMin_sdiv_neg_one

/-- Every other quotient is the integers' own, truncated towards zero. -/
theorem toInt_divSigned (hb : b ≠ 0) (hab : ¬(a = 0x8000000000000000#64 ∧ b.toInt = -1)) :
    (divSigned a b).toInt = a.toInt.tdiv b.toInt := by
  rw [divSigned_of_ne_zero hb]
  refine BitVec.toInt_sdiv_of_ne_or_ne a b ((Decidable.not_and_iff_or_not.mp hab).imp id ?_)
  rintro hne rfl
  exact hne (by decide)

theorem divUnsigned_of_eq_zero (hb : b = 0) : divUnsigned a b = 0xFFFFFFFFFFFFFFFF#64 := if_pos hb

theorem toNat_divUnsigned (hb : b ≠ 0) : (divUnsigned a b).toNat = a.toNat / b.toNat := by
  rw [divUnsigned, if_neg hb, BitVec.toNat_udiv]

theorem remSigned_of_eq_zero (hb : b = 0) : remSigned a b = a := if_pos hb

/-- Away from a zero divisor the signed remainder fits in a word, as it is no larger than the dividend. -/
theorem toInt_remSigned (hb : b ≠ 0) : (remSigned a b).toInt = a.toInt.tmod b.toInt := by
  rw [remSigned, if_neg hb, ← BitVec.toInt_srem, BitVec.ofInt_toInt]

/-- Nothing is left after a division by −1. -/
theorem remSigned_neg_one (hb : b.toInt = -1) : remSigned a b = 0 := by
  have hne : b ≠ 0 := by
    rintro rfl
    exact absurd hb (by decide)
  refine BitVec.eq_of_toInt_eq ?_
  rw [toInt_remSigned hne, hb, Int.tmod_neg, Int.tmod_one]
  rfl

/-- The signed remainder is zero or has the sign of the dividend. -/
theorem remSigned_sign (hb : b ≠ 0) :
    (remSigned a b).toInt = 0 ∨ ((remSigned a b).toInt < 0 ↔ a.toInt < 0) := by
  have hsign := Int.sign_tmod a.toInt b.toInt
  rw [toInt_remSigned hb]
  split at hsign
  · exact .inl (Int.sign_eq_zero_iff_zero.mp hsign)
  · exact .inr (by rw [← Int.sign_neg_iff, hsign, Int.sign_neg_iff])

theorem remUnsigned_of_eq_zero (hb : b = 0) : remUnsigned a b = a := if_pos hb

theorem toNat_remUnsigned (hb : b ≠ 0) : (remUnsigned a b).toNat = a.toNat % b.toNat := by
  rw [remUnsigned, if_neg hb, BitVec.toNat_umod]

end

/-- Settles O2: each form runs as `alu` of its function, whose values are those of the table of R203. -/
theorem division : Obligations.Division := by
  unfold Obligations.Division
  intro g d a b s
  refine ⟨fun h => ⟨_, runOn_alu h, ?div⟩, fun h => ⟨_, runOn_alu h, ?divu⟩, fun h => ⟨_, runOn_alu h, ?rem⟩,
    fun h => ⟨_, runOn_alu h, ?remu⟩⟩
  case div => exact ⟨divSigned_of_eq_zero, divSigned_overflow, toInt_divSigned⟩
  case divu => exact ⟨divUnsigned_of_eq_zero, toNat_divUnsigned⟩
  case rem =>
    exact ⟨remSigned_of_eq_zero, fun _ => remSigned_neg_one,
      fun hb _ => ⟨(toInt_remSigned hb).trans (Int.tmod_def _ _), remSigned_sign hb⟩⟩
  case remu => exact ⟨remUnsigned_of_eq_zero, toNat_remUnsigned⟩

/-! ### Values of shifts (R204) -/

section
variable (u : Word) (k : Nat)

/-- A shift to the left multiplies by a power of two, modulo 2^64. -/
theorem shiftLeft_eq_word : u <<< k = word (u.toNat * 2 ^ k) := by
  rw [← Nat.shiftLeft_eq]
  rfl

/-- A shift to the right divides by a power of two. -/
theorem ushiftRight_eq_word : u >>> k = word (u.toNat / 2 ^ k) := by
  rw [← Nat.shiftRight_eq_div_pow, ← BitVec.toNat_ushiftRight, word, BitVec.ofNat_toNat, BitVec.setWidth_eq]

/-- An arithmetic shift to the right divides the signed value by a power of two, rounding down. -/
theorem sshiftRight_eq_ofInt : u.sshiftRight k = BitVec.ofInt 64 (u.toInt.fdiv (2 ^ k)) := by
  rw [Int.fdiv_eq_ediv_of_nonneg _ (Int.pow_nonneg (by decide))]
  exact congrArg _ (Int.shiftRight_eq_div_pow _ _)

end

theorem shl64_eq : shl64 = fun u n => if 64 ≤ n.toNat then 0 else word (u.toNat * 2 ^ n.toNat) := by
  funext u n
  rw [shl64, shiftLeft_eq_word]

theorem shr64_eq : shr64 = fun u n => if 64 ≤ n.toNat then 0 else word (u.toNat / 2 ^ n.toNat) := by
  funext u n
  rw [shr64, ushiftRight_eq_word]

theorem sra64_eq : sra64 = fun u n => if 64 ≤ n.toNat then (if u.toInt < 0 then 0xFFFFFFFFFFFFFFFF#64 else 0)
    else BitVec.ofInt 64 (u.toInt.fdiv (2 ^ n.toNat)) := by
  funext u n
  simp only [sra64, BitVec.msb_eq_toInt, decide_eq_true_eq, sshiftRight_eq_ofInt]
  rfl

/-- A rotation joins the bits that a shift to the right leaves with those that it drops. -/
theorem ror64_eq : ror64 = fun u n =>
    word (u.toNat / 2 ^ (n.toNat % 64)) ||| word (u.toNat * 2 ^ (64 - n.toNat % 64)) := by
  funext u n
  rw [ror64, BitVec.rotateRight_def, Nat.mod_mod, ushiftRight_eq_word, shiftLeft_eq_word]

/-- Settles O3: each form runs as `alu` of its function, which is the formula of R204. -/
theorem shifts : Obligations.Shifts := by
  unfold Obligations.Shifts
  rw [← shl64_eq, ← shr64_eq, ← sra64_eq, ← ror64_eq]
  intro f s g d a b cw
  refine ⟨?shl, ?shr, ?sra, ?ror⟩
  case shl => rintro rfl; exact ⟨runOn_alu, runOn_alu⟩
  case shr => rintro rfl; exact ⟨runOn_alu, runOn_alu⟩
  case sra => rintro rfl; exact ⟨runOn_alu, runOn_alu⟩
  case ror => rintro rfl; exact runOn_alu

end Sys2Proof.Machine
end

section
/-! SUPPORT. Byte permutation (R248): the lanes of a packed vector, how an instruction of two vector operands runs, and the
words of OP 0x10 that are unassigned. -/

namespace Sys2Proof.Machine

/-! ### Lanes of a vector (R241) -/

/-- A code packed at a place is read back from there, cut to its width. -/
theorem packCodes_div_mod (w : Nat) (l : List Nat) (i : Nat) :
    packCodes w l / 2 ^ (w * i) % 2 ^ w = l.getD i 0 % 2 ^ w := by
  induction l generalizing i with
  | nil => simp [packCodes]
  | cons x xs ih =>
    have hcons : packCodes w (x :: xs) = x % 2 ^ w + 2 ^ w * packCodes w xs := rfl
    have hpos : 0 < 2 ^ w := Nat.two_pow_pos w
    rw [hcons]
    cases i with
    | zero => simp
    | succ i =>
      rw [Nat.mul_succ, Nat.add_comm (w * i), Nat.pow_add, ← Nat.div_div_eq_div_mul, Nat.add_mul_div_left _ _ hpos,
        Nat.div_eq_of_lt (Nat.mod_lt x hpos), Nat.zero_add, ih, List.getD_cons_succ]

theorem toNat_ofLanes (w : Nat) (l : List Nat) : (ofLanes w l).toNat = packCodes w l % 2 ^ 128 := BitVec.toNat_ofNat _ _

/-- A lane that lies in the vector reads the number packed there, cut to the lane's width. -/
theorem lane_ofLanes {w i : Nat} (l : List Nat) (hi : w * i + w ≤ 128) : lane (ofLanes w l) w i = l.getD i 0 % 2 ^ w := by
  have hdvd : 2 ^ w ∣ 2 ^ (128 - w * i) := Nat.pow_dvd_pow 2 (by omega)
  have hsplit : 2 ^ 128 = 2 ^ (w * i) * 2 ^ (128 - w * i) := by rw [← Nat.pow_add, Nat.add_sub_cancel' (by omega)]
  rw [lane, toNat_ofLanes, hsplit, Nat.mod_mul_right_div_self, Nat.mod_mod_of_dvd _ hdvd, packCodes_div_mod]

theorem lane_lt (v : Vec) (w i : Nat) : lane v w i < 2 ^ w := Nat.mod_lt _ (Nat.two_pow_pos w)

/-- A bit of a lane is a bit of the vector. -/
theorem testBit_lane {w k : Nat} (v : Vec) (i : Nat) (hk : k < w) :
    (lane v w i).testBit k = v.getLsbD (w * i + k) := by
  rw [lane, Nat.testBit_mod_two_pow, Nat.testBit_div_two_pow, decide_eq_true hk, Bool.true_and, Nat.add_comm k]
  rfl

/-- The lanes of a width that divides 128 determine a vector. -/
theorem eq_of_lane_eq {w : Nat} {u v : Vec} (hw : w ∣ 128) (h : ∀ i, i < 128 / w → lane u w i = lane v w i) : u = v := by
  have hpos : 0 < w := Nat.pos_of_dvd_of_pos hw (by decide)
  refine BitVec.eq_of_getLsbD_eq fun j hj => ?_
  have hlane := h (j / w) (Nat.div_lt_div_of_lt_of_dvd hw hj)
  have hbit := congrArg (Nat.testBit · (j % w)) hlane
  simpa only [testBit_lane _ _ (Nat.mod_lt j hpos), Nat.div_add_mod] using hbit

/-! ### The permutation (R248) -/

/-- Byte `i` of the result is the byte of `x` that byte `i` of `y` selects, or zero where it selects none. -/
theorem lane_permute {i : Nat} (x y : Vec) (hi : i < 16) :
    lane (permute x y) 8 i = if lane y 8 i < 16 then lane x 8 (lane y 8 i) else 0 := by
  have hselect : (if lane y 8 i < 16 then lane x 8 (lane y 8 i) else 0) < 2 ^ 8 := by
    split
    · exact lane_lt x 8 _
    · decide
  rw [permute, lane_ofLanes _ (by omega), ← Nat.mod_eq_of_lt hselect]
  simp [lanes, hi]

/-- The bytes of R248 leave one result. -/
theorem eq_permute {x y r : Vec}
    (h : ∀ i, i < 16 → lane r 8 i = if lane y 8 i < 16 then lane x 8 (lane y 8 i) else 0) : r = permute x y :=
  eq_of_lane_eq (w := 8) (by decide) fun i hi => (h i hi).trans (lane_permute x y hi).symm

/-! ### Running and decoding -/

/-- An instruction of two vector operands that are read, and whose result is written, completes with its core so. -/
theorem runOn_vec2 {i : Instr} {f : Core → Vec → Vec → Vec × Flags} {d a b : Fin 32} {s : State} {x y : Vec} {c1 c2 : Core}
    (h : s.Runs i) (hread : readVs [a, b] [] s.me = .ok ([x, y], c1))
    (hwrite : writeV d (f s.me x y).1 (c1.raise (f s.me x y).2) = .ok c2) :
    runOn i (vec2 f d a b) s = .next (s.doneAs c2) := by
  refine runOn_core h ?_
  rw [hread]
  exact hwrite

theorem exec_vperm (g : Guard) (d a b : Fin 32) (s : State) :
    exec (.vperm g d a b) s = runOn (.vperm g d a b) (vec2 (fun _ x y => plain (permute x y)) d a b) s := rfl

/-- A word that its slot's map reads as nothing is an illegal opcode. -/
theorem decodeSlot_of_readSlot_none {sl : Slot} {w : Nat} (h : readSlot sl w = none) :
    decodeSlot sl w = .error .illegalOpcode := by
  simp only [decodeSlot, readAssigned, h]

/-- OP 0x10 assigns fn 0 alone. -/
theorem readX10_of_fn_ne_zero {w : Nat} (h : w % 32 ≠ 0) : readX10 w = none := by
  unfold readX10
  split
  next hzero => exact absurd hzero h
  next => rfl

theorem encode_vperm (g : Guard) (d a b : Fin 32) : (Instr.vperm g d a b).encode =
    some (0x10 * 2 ^ 24 + g.gn.toNat * 2 ^ 23 + g.gp.val * 2 ^ 20 + d.val * 2 ^ 15 + a.val * 2 ^ 10 + b.val * 2 ^ 5) := rfl

/-- Settles O20: the bytes determine the result that `exec` writes, and the map of OP 0x10 has no entry but fn 0. -/
theorem permute_spec : Obligations.Permute := by
  unfold Obligations.Permute
  refine ⟨?runs, ?unassigned, encode_vperm⟩
  case runs =>
    intro g d a b x y c1 c2 s hruns hread r hbytes hwrite
    rw [eq_permute hbytes] at hwrite
    exact (exec_vperm g d a b s).trans (runOn_vec2 hruns hread hwrite)
  case unassigned =>
    intro w hop hfn
    exact decodeSlot_of_readSlot_none ((Laws.RoundTrip.readX10_of hop).trans (readX10_of_fn_ne_zero hfn))

end Sys2Proof.Machine
end
